-- ==== Sys2Proof/Word.lean ====
section
/-! DEFINITION. The word types of the device (R2, R3, R37), sparse tables keyed by number and sparse byte
stores in one canonical form. -/

namespace Sys2Proof

abbrev Byte := BitVec 8
abbrev Word := BitVec 32
abbrev DWord := BitVec 64

/-- A sparse table: pairs of a key and a value, keys strictly rising. -/
abbrev Tbl (α : Type) := List (Nat × α)

/-- The value listed at `k`, or `d` where none is listed. -/
def Tbl.get {α : Type} (d : α) : Tbl α → Nat → α
  | [], _ => d
  | (i, v) :: t, k => if i = k then v else Tbl.get d t k

/-- The value listed at `k`, if any. -/
def Tbl.find {α : Type} : Tbl α → Nat → Option α
  | [], _ => none
  | (i, v) :: t, k => if i = k then some v else Tbl.find t k

/-- List `v` at `k`, keeping the keys rising. -/
def Tbl.set {α : Type} : Tbl α → Nat → α → Tbl α
  | [], k, v => [(k, v)]
  | (i, w) :: t, k, v =>
    if k < i then (k, v) :: (i, w) :: t
    else if k = i then (k, v) :: t
    else (i, w) :: Tbl.set t k v

/-- Unlist `k`. -/
def Tbl.del {α : Type} (t : Tbl α) (k : Nat) : Tbl α := t.filter fun e => e.1 ≠ k

/-- Apply `f` to every listed value. -/
def Tbl.mapVals {α β : Type} (f : α → β) (t : Tbl α) : Tbl β := t.map fun e => (e.1, f e.2)

def Tbl.vals {α : Type} (t : Tbl α) : List α := t.map (·.2)
def Tbl.keys {α : Type} (t : Tbl α) : List Nat := t.map (·.1)

/-- A byte store: bytes by address, addresses strictly rising, no listed byte equal to 0, which is what
an unlisted address reads as (assumption 1). -/
abbrev Mem := List (Nat × BitVec 8)

/-- What an unlisted address reads as. -/
def Mem.unlisted : Byte := 0

def Mem.read (m : Mem) (a : Nat) : Byte := Tbl.get Mem.unlisted m a

/-- List a byte at an address that is not listed, keeping the addresses rising. -/
def Mem.insert : Mem → Nat → Byte → Mem
  | [], a, b => [(a, b)]
  | (i, w) :: t, a, b => if a < i then (a, b) :: (i, w) :: t else (i, w) :: Mem.insert t a b

/-- Write one byte, keeping the canonical form. -/
def Mem.write (m : Mem) (a : Nat) (b : Byte) : Mem :=
  let t := m.filter fun e => decide (e.1 ≠ a)
  if b = Mem.unlisted then t else Mem.insert t a b

/-- Every key of the store lies above `lo` when `lo` is given, keys rise, and no byte is the unlisted one. -/
def Mem.wfFrom : Option Nat → Mem → Bool
  | _, [] => true
  | lo, (i, b) :: t =>
    (match lo with | none => true | some l => decide (l < i)) && decide (b ≠ Mem.unlisted) && Mem.wfFrom (some i) t

/-- The canonical form of a byte store. -/
def Mem.wf (m : Mem) : Bool := Mem.wfFrom none m

/-- The `n` bytes from address `a` up. -/
def Mem.readN (m : Mem) (a : Nat) : Nat → List Byte
  | 0 => []
  | n + 1 => Mem.read m a :: Mem.readN m (a + 1) n

/-- Write bytes from address `a` up. -/
def Mem.writeN (m : Mem) (a : Nat) : List Byte → Mem
  | [] => m
  | b :: bs => Mem.writeN (Mem.write m a b) (a + 1) bs

/-- The number that little-endian bytes spell (R2). -/
def leNat : List Byte → Nat
  | [] => 0
  | b :: bs => b.toNat + 256 * leNat bs

/-- The `n` little-endian bytes of a number (R2). -/
def leBytes : Nat → Nat → List Byte
  | 0, _ => []
  | n + 1, v => BitVec.ofNat 8 v :: leBytes n (v / 256)

def Mem.read32 (m : Mem) (a : Nat) : Word := BitVec.ofNat 32 (leNat (m.readN a 4))
def Mem.read64 (m : Mem) (a : Nat) : DWord := BitVec.ofNat 64 (leNat (m.readN a 8))
def Mem.write32 (m : Mem) (a : Nat) (v : Word) : Mem := m.writeN a (leBytes 4 v.toNat)
def Mem.write64 (m : Mem) (a : Nat) (v : DWord) : Mem := m.writeN a (leBytes 8 v.toNat)

/-- Bits [hi:lo] of `v` as a number (R2). -/
def bits (v : DWord) (hi lo : Nat) : Nat := (v.toNat >>> lo) % 2 ^ (hi - lo + 1)

/-- Bit `n` of `v`. -/
def bit (v : DWord) (n : Nat) : Bool := v.toNat.testBit n

/-- `v` with bits [hi:lo] replaced by the low bits of `x`. -/
def setBits (v : DWord) (hi lo : Nat) (x : Nat) : DWord :=
  let m := (2 ^ (hi - lo + 1) - 1) <<< lo
  BitVec.ofNat 64 ((v.toNat &&& (2 ^ 64 - 1 - m)) ||| ((x % 2 ^ (hi - lo + 1)) <<< lo))

/-- The two's complement reading of the low `n` bits of `x` (R8 SignExt). -/
def signExt (x n : Nat) : Int :=
  let y := x % 2 ^ n
  if y < 2 ^ (n - 1) then (y : Int) else (y : Int) - (2 ^ n : Nat)

/-- The low `n` bits of an integer (the narrowing of a typed assignment). -/
def narrow (x : Int) (n : Nat) : Nat := (x % ((2 ^ n : Nat) : Int)).toNat

/-- R8 SatS: clamp to n-bit two's complement, and whether it clamped. -/
def satS (x : Int) (n : Nat) : Int × Bool :=
  let hi : Int := ((2 ^ (n - 1) : Nat) : Int) - 1
  let lo : Int := - ((2 ^ (n - 1) : Nat) : Int)
  if hi < x then (hi, true) else if x < lo then (lo, true) else (x, false)

/-- R8 SatU: clamp to n-bit unsigned, and whether it clamped. -/
def satU (x : Int) (n : Nat) : Int × Bool :=
  let hi : Int := ((2 ^ n : Nat) : Int) - 1
  if hi < x then (hi, true) else if x < 0 then (0, true) else (x, false)

/-- Saturating counter of `n` bits. -/
def satInc (v n : Nat) : Nat := if v + 1 < 2 ^ n then v + 1 else 2 ^ n - 1

/-- Replace element `i` of a list. -/
def setAt {α : Type} : List α → Nat → α → List α
  | [], _, _ => []
  | _ :: t, 0, v => v :: t
  | x :: t, n + 1, v => x :: setAt t n v

/-- Replace element `i` of a list that reads `d` past its end. -/
def setPad {α : Type} (d : α) : List α → Nat → α → List α
  | [], 0, v => [v]
  | [], n + 1, v => d :: setPad d [] n v
  | _ :: t, 0, v => v :: t
  | x :: t, n + 1, v => x :: setPad d t n v

/-- Drop element `i` of a list. -/
def dropAt {α : Type} : List α → Nat → List α
  | [], _ => []
  | _ :: t, 0 => t
  | x :: t, n + 1 => x :: dropAt t n

/-- Insert a number into a rising list without repeats. -/
def insertNat (k : Nat) : List Nat → List Nat
  | [] => [k]
  | x :: t => if k < x then k :: x :: t else if k = x then x :: t else x :: insertNat k t

/-- The 32 lanes of a warp, in rising order. -/
def lanes32 : List Nat := List.range 32

/-- The mask of the lanes that satisfy `p`. -/
def maskOf (p : Nat → Bool) : Word :=
  BitVec.ofNat 32 (lanes32.foldl (fun acc l => if p l then acc + 2 ^ l else acc) 0)

def laneIn (m : Word) (l : Nat) : Bool := m.toNat.testBit l

/-- The lanes of a mask, in rising order. -/
def lanesOf (m : Word) : List Nat := lanes32.filter (laneIn m)

end Sys2Proof
end

