-- ==== Sys2Proof/Syntax.lean ====
section
/-! DEFINITION. The instructions of the device: one constructor per row of the opcode table. A row is a vision
word (R222), a clause header (R216), a tile word (R315), a packet (R139), a path command (R381), a register
write (R5) or an event of the hardware. The instance an event happens to is an input beside it (`EvArgs`); the
events stand last. -/

namespace Sys2Proof

/-- The fields of a vision word below its opcode (R222); the constructor is the opcode. -/
structure VWord where
  guard : BitVec 4
  u : BitVec 1
  dst : BitVec 9
  srcA : BitVec 9
  srcB : BitVec 9
  srcC : BitVec 9
  mod : BitVec 13
  deriving DecidableEq, Repr

/-- The fields of a tile word but its opcode (R315), with the bits [63:48] of its unit (R309). -/
structure TWord where
  high : BitVec 16
  tag : BitVec 3
  popP : BitVec 1
  popN : BitVec 1
  pushP : BitVec 1
  pushN : BitVec 1
  rep : BitVec 7
  step : BitVec 3
  opa : BitVec 12
  opb : BitVec 12
  deriving DecidableEq, Repr

/-- A 64-byte record as eight little-endian 64-bit words: a packet (R139) or a path command (R381). -/
structure Rec64 where
  w0 : DWord
  w1 : DWord
  w2 : DWord
  w3 : DWord
  w4 : DWord
  w5 : DWord
  w6 : DWord
  w7 : DWord
  deriving DecidableEq, Repr

/-- Who writes a device register (R25, R437). -/
inductive Writer
  /-- A service core. -/
  | svc (sc : Fin 16)
  /-- The queue processor of a die. -/
  | qp (die : Fin 2)
  /-- The Governor. -/
  | gov
  /-- The debug port, once it is open. -/
  | debug
  deriving DecidableEq, Repr

/-- A write of a device register: the writer, the physical address, the width in bytes and the value. -/
structure BusWrite where
  src : Writer
  pa : BitVec 44
  size : Nat
  val : DWord
  deriving DecidableEq, Repr

/-- The instance an event happens to: numbers, a list of numbers, an optional number, bytes and a bit, as the event's
meaning says. -/
structure EvArgs where
  i : Nat
  j : Nat
  ids : List Nat
  opt : Option Nat
  bytes : List Byte
  flag : Bool
  deriving DecidableEq, Repr

def EvArgs.none : EvArgs := { i := 0, j := 0, ids := [], opt := Option.none, bytes := [], flag := false }

/-- The instructions: the rows with words of their own in the order of the opcode table, then the events. -/
inductive Instr
  /-- R5. A write to a register with no row of its own sets its RW fields and clears its W1C bits; reserved fields are dropped. -/
  | registerWrite (b : BusWrite)
  /-- R34. A whole 64-bit write to DTU_LOAD sets device time and LOADING when loadable, later and not loading; otherwise it sets LOAD_REJ. -/
  | dtuLoadWrite (b : BusWrite)
  /-- R31. A write of the rate adjustment is clamped to ±500 ppm, setting ADJ_CLAMP when clamped. -/
  | dtuAdjWrite (b : BusWrite)
  /-- R83. A write of the lease length stores it clamped to the range 2 to 512. -/
  | leaseCfgWrite (b : BusWrite)
  /-- R76. SHOOT_CTL GO with SCOPE 0 starts the shoot-down of one page of one ASID. -/
  | shootPage (b : BusWrite)
  /-- R76. SHOOT_CTL GO with SCOPE 1 starts the shoot-down of every page of one ASID. -/
  | shootAsid (b : BusWrite)
  /-- R76. SHOOT_CTL GO with SCOPE 2 starts the shoot-down of every ASID. -/
  | shootAll (b : BusWrite)
  /-- R132. LQ_CMD OP ENQ forwards a plain enqueue of the element at LQ_BUF. -/
  | lqEnq (b : BusWrite)
  /-- R132. LQ_CMD OP DEQ forwards a non-blocking dequeue, with the results placed in LQ_BUF and the result registers. -/
  | lqDeq (b : BusWrite)
  /-- R132. LQ_CMD OP RESV forwards a reservation with HOST 1. -/
  | lqResv (b : BusWrite)
  /-- R132. LQ_CMD OP DONE forwards a slot return. -/
  | lqDone (b : BusWrite)
  /-- R132. LQ_CMD QCTL INIT forwards an INIT from the arguments. -/
  | lqInit (b : BusWrite)
  /-- R132. LQ_CMD QCTL DRAIN forwards a DRAIN. -/
  | lqDrain (b : BusWrite)
  /-- R132. LQ_CMD QCTL CLOSE forwards a CLOSE. -/
  | lqClose (b : BusWrite)
  /-- R132. LQ_CMD QCTL REOPEN forwards a REOPEN. -/
  | lqReopen (b : BusWrite)
  /-- R132. LQ_CMD QCTL REPAIR forwards a REPAIR to h. -/
  | lqRepair (b : BusWrite)
  /-- R132. LQ_CMD QCTL QUERY forwards a QUERY and fills the result registers. -/
  | lqQuery (b : BusWrite)
  /-- R137. A write setting MQ_CFG EN checks the queue and enters FETCH, or OFF with ERR 9. -/
  | mqEnable (b : BusWrite)
  /-- R138. MQ_CTL SKIP discards the halted packet, and the thread enters FETCH. -/
  | mqSkip (b : BusWrite)
  /-- R138. MQ_CTL RETRY re-executes the halted packet from the shadow. -/
  | mqRetry (b : BusWrite)
  /-- R138. MQ_CTL STOP takes the thread to OFF, with its waiter removed. -/
  | mqStop (b : BusWrite)
  /-- R139. A NOP packet completes at once. -/
  | pktNop (p : Rec64)
  /-- R140. A LAUNCH packet checks its card and header, snapshots the arguments and sends a release to the DDX. -/
  | launch (p : Rec64)
  /-- R144. A WAIT packet evaluates its test or time wait, and blocks while it is false. -/
  | wait (p : Rec64)
  /-- R145. A PRED packet dequeues its arms, checks and prefetches them, tests once, and performs one arm. -/
  | pred (p : Rec64)
  /-- R146. A TRIGGER packet triggers a task graph with a patch list. -/
  | trigger (p : Rec64)
  /-- R146. A SIGNAL STORE packet stores VALUE with release at its scope. -/
  | signalStore (p : Rec64)
  /-- R146. A SIGNAL ADD packet performs a non-returning 64-bit add with release. -/
  | signalAdd (p : Rec64)
  /-- R146. A SIGNAL ENQ packet performs a blocking 16-byte plain-mode enqueue. -/
  | signalEnq (p : Rec64)
  /-- R146. A SIGNAL INTR packet raises a vector on a service cluster after a release. -/
  | signalIntr (p : Rec64)
  /-- R160. QP_ADOPT CMD ADOPT sets ADOPTING on the surviving QP and starts the adoption wait. -/
  | adopt (b : BusWrite)
  /-- R161. QP_ADOPT CMD HANDBACK makes the adopting QP finish its steps, write the shadows, fence and clear ADOPTING. -/
  | handback (b : BusWrite)
  /-- R149. A GRAPH_CFG write setting VALID validates the graph, or leaves VALID 0 with TERR 1. -/
  | graphValidate (b : BusWrite)
  /-- R151. A GRAPH_TRIG write is refused or starts a run, releasing the nodes with no predecessor. -/
  | graphTrigger (b : BusWrite)
  /-- R162. A write to a job card outside IDLE or DONE is ignored and sets WERR. -/
  | jobCardWrite (b : BusWrite)
  /-- R165. DDX_CMD ACTIVATE sets ACTIVE on a valid periodic card, or sets CMDERR. -/
  | activate (b : BusWrite)
  /-- R165. DDX_CMD RETIRE clears ACTIVE. -/
  | retire (b : BusWrite)
  /-- R165. DDX_CMD RESUME releases HELD work to RUNNING, PREEMPTED or READY. -/
  | ddxResume (b : BusWrite)
  /-- R165. DDX_CMD KILL tears the card down and sets it DONE with KILLED. -/
  | ddxKill (b : BusWrite)
  /-- R174. A SLU_CFG write that changes the configuration ends the window, resets the counts and re-admits held requests. -/
  | sluCfgWrite (b : BusWrite)
  /-- R218. A clause begins once its wait mask is clear, raising the warp's horizon from the waited flags. -/
  | clauseBegin (hdr : DWord)
  /-- R212. OVL_CMD LOAD makes an explicit load of an overlay for the card held on the core. -/
  | ovlCmdLoad (b : BusWrite)
  /-- R212. OVL_CMD INVAL_CARD invalidates every overlay of the card. -/
  | invalCard (b : BusWrite)
  /-- R212. OVL_CMD INVAL_PID invalidates every overlay of the PID. -/
  | invalPid (b : BusWrite)
  /-- R244. Integer add, wrapping or saturating. -/
  | iadd (w : VWord)
  /-- R244. Integer subtract. -/
  | isub (w : VWord)
  /-- R244. Integer multiply. -/
  | imul (w : VWord)
  /-- R244. High 32 bits of an integer product. -/
  | imulhi (w : VWord)
  /-- R244. Integer multiply-add with a single narrowing. -/
  | imad (w : VWord)
  /-- R244. Integer minimum. -/
  | imin (w : VWord)
  /-- R244. Integer maximum. -/
  | imax (w : VWord)
  /-- R244. Integer absolute value. -/
  | iabs (w : VWord)
  /-- R244. Integer negate. -/
  | ineg (w : VWord)
  /-- R245. Forms a 64-bit address from a base and a shifted index. -/
  | lea (w : VWord)
  /-- R246. Integer compare into a predicate. -/
  | icmp (w : VWord)
  /-- R247. Selects one of two sources by a predicate. -/
  | sel (w : VWord)
  /-- R248. Bitwise and. -/
  | and (w : VWord)
  /-- R248. Bitwise or. -/
  | or (w : VWord)
  /-- R248. Bitwise exclusive or. -/
  | xor (w : VWord)
  /-- R248. Bitwise not. -/
  | not (w : VWord)
  /-- R248. Shift left. -/
  | shl (w : VWord)
  /-- R248. Logical or arithmetic shift right. -/
  | shr (w : VWord)
  /-- R248. Rotate left. -/
  | rot (w : VWord)
  /-- R248. Bit-field extract. -/
  | bfe (w : VWord)
  /-- R248. Bit-field insert. -/
  | bfi (w : VWord)
  /-- R248. Population count. -/
  | popc (w : VWord)
  /-- R248. Count of leading zeros. -/
  | clz (w : VWord)
  /-- R248. Bit reverse. -/
  | brev (w : VWord)
  /-- R249. Floating-point add. -/
  | fadd (w : VWord)
  /-- R249. Floating-point subtract. -/
  | fsub (w : VWord)
  /-- R249. Floating-point multiply. -/
  | fmul (w : VWord)
  /-- R249. Fused multiply-add with one rounding. -/
  | ffma (w : VWord)
  /-- R250. Floating-point minimum. -/
  | fmin (w : VWord)
  /-- R250. Floating-point maximum. -/
  | fmax (w : VWord)
  /-- R251. FP32 compare into a predicate. -/
  | fcmp (w : VWord)
  /-- R252. Classifies an FP32 value. -/
  | fclass (w : VWord)
  /-- R253. Reciprocal, correctly rounded. -/
  | frcp (w : VWord)
  /-- R253. Reciprocal square root. -/
  | frsq (w : VWord)
  /-- R253. Square root under a rounding mode. -/
  | fsqrt (w : VWord)
  /-- R253. Base-2 exponential. -/
  | fexp2 (w : VWord)
  /-- R253. Base-2 logarithm. -/
  | flog2 (w : VWord)
  /-- R253. Sine of an argument in turns. -/
  | fsin (w : VWord)
  /-- R253. Cosine of an argument in turns. -/
  | fcos (w : VWord)
  /-- R254. Converts between number formats, including SX16. -/
  | cvt (w : VWord)
  /-- R255. Narrows two sources into one packed register. -/
  | pack (w : VWord)
  /-- R256. Widens one packed element. -/
  | unpack (w : VWord)
  /-- R257. I8 × 4 dot product with an addend. -/
  | dp4 (w : VWord)
  /-- R257. I4 × 8 dot product with an addend. -/
  | dp8 (w : VWord)
  /-- R258. Assembles a result from selected bytes of two sources. -/
  | bsel (w : VWord)
  /-- R259. Register move. -/
  | mov (w : VWord)
  /-- R260. Combines two predicates by a truth table. -/
  | pcomb (w : VWord)
  /-- R261. Moves a predicate into a register. -/
  | psave (w : VWord)
  /-- R261. Loads a predicate from a register. -/
  | pload (w : VWord)
  /-- R266. Exchanges values within a quad. -/
  | qxch (w : VWord)
  /-- R267. Shuffles values within a subgroup. -/
  | lpick (w : VWord)
  /-- R268. Votes on a predicate over a subgroup. -/
  | vote (w : VWord)
  /-- R269. Ordered prefix scan over a subgroup. -/
  | scan (w : VWord)
  /-- R269. Ordered reduction over a subgroup. -/
  | red (w : VWord)
  /-- R268. Finds the lanes whose values are equal. -/
  | lsame (w : VWord)
  /-- R268. Elects the lowest contributing lane, or takes its value. -/
  | lfirst (w : VWord)
  /-- R271. Branches within the current overlay. -/
  | bra (w : VWord)
  /-- R271. Branches to a per-lane offset within the overlay. -/
  | brx (w : VWord)
  /-- R271. Call within the overlay, writing a link and raising the depth. -/
  | call (w : VWord)
  /-- R271. Returns through a link. -/
  | ret (w : VWord)
  /-- R271. Transfers to an overlay address, resolving the token. -/
  | ocall (w : VWord)
  /-- R272. Waits for the lanes of a mask to converge. -/
  | conv (w : VWord)
  /-- R273. Exits lanes, and retires the warp when no live lane is left. -/
  | exit (w : VWord)
  /-- R274. Stalls the path for a duration of device time. -/
  | sleep (w : VWord)
  /-- R274. Waits for a run-time set of completion flags. -/
  | waitf (w : VWord)
  /-- R275. No operation. -/
  | nop (w : VWord)
  /-- R276. Explicit overlay load at a base slot. -/
  | ovld (w : VWord)
  /-- R276. Queries an overlay's token and state. -/
  | ovqry (w : VWord)
  /-- R276. Invalidates the card's overlay. -/
  | ovrel (w : VWord)
  /-- R277. Reads a special value. -/
  | rdsr (w : VWord)
  /-- R277. Writes sr.deadsrc or sr.fpflags. -/
  | wrsr (w : VWord)
  /-- R278. Raises TRAPI with a code. -/
  | trap (w : VWord)
  /-- R278. Raises BKPT. -/
  | bkpt (w : VWord)
  /-- R278. Raises TRAPI with SRC 1. -/
  | svc (w : VWord)
  /-- R282. Load from global memory or the scratchpad. -/
  | ld (w : VWord)
  /-- R283. Store to global memory or the scratchpad. -/
  | st (w : VWord)
  /-- R288. Asynchronous 16-byte copy per lane between global memory and the scratchpad. -/
  | cpa (w : VWord)
  /-- R290. Value-returning atomic add. -/
  | atomAdd (w : VWord)
  /-- R290. Value-returning atomic minimum. -/
  | atomMin (w : VWord)
  /-- R290. Value-returning atomic maximum. -/
  | atomMax (w : VWord)
  /-- R290. Value-returning atomic and. -/
  | atomAnd (w : VWord)
  /-- R290. Value-returning atomic or. -/
  | atomOr (w : VWord)
  /-- R290. Value-returning atomic exclusive or. -/
  | atomXor (w : VWord)
  /-- R290. Atomic exchange. -/
  | atomExch (w : VWord)
  /-- R290. Atomic compare-and-swap. -/
  | atomCas (w : VWord)
  /-- R290. Atomic FP32 add. -/
  | atomFadd (w : VWord)
  /-- R291. Far reduction add at the home slice. -/
  | fredAdd (w : VWord)
  /-- R291. Far reduction minimum. -/
  | fredMin (w : VWord)
  /-- R291. Far reduction maximum. -/
  | fredMax (w : VWord)
  /-- R291. Far reduction and. -/
  | fredAnd (w : VWord)
  /-- R291. Far reduction or. -/
  | fredOr (w : VWord)
  /-- R291. Far reduction exclusive or. -/
  | fredXor (w : VWord)
  /-- R291. Far reduction FP32 add. -/
  | fredFadd (w : VWord)
  /-- R292. Fence at a scope, optionally sequentially consistent. -/
  | fence (w : VWord)
  /-- R294. Block barrier arrival. -/
  | bar (w : VWord)
  /-- R296. Initialises a phase barrier object. -/
  | pbinit (w : VWord)
  /-- R296. Arrives at a phase barrier with a release. -/
  | pbarr (w : VWord)
  /-- R296. Waits for a phase to complete, then acquires. -/
  | pbwait (w : VWord)
  /-- R297. Team barrier arrival. -/
  | tbar (w : VWord)
  /-- R299. Sends a plain-mode enqueue to a leat. -/
  | qenq (w : VWord)
  /-- R299. Sends a dequeue to a leat. -/
  | qdeq (w : VWord)
  /-- R299. Reserves packet slots in a leat. -/
  | qres (w : VWord)
  /-- R299. Returns packet slots to a leat. -/
  | qdone (w : VWord)
  /-- R299. Sends a QCTL sub-operation to a leat. -/
  | qctl (w : VWord)
  /-- R302. Reserves continuation records in the card's pool. -/
  | cres (w : VWord)
  /-- R303. Publishes a reserved continuation record after a release. -/
  | cpost (w : VWord)
  /-- R392. Enters the warp's ordered section after lower primitives at its quads are out. -/
  | ordin (w : VWord)
  /-- R392. Fences and leaves the ordered section. -/
  | ordout (w : VWord)
  /-- R336. Control no-op. -/
  | knop (w : TWord)
  /-- R336. 64-bit add. -/
  | kadd (w : TWord)
  /-- R336. 64-bit subtract. -/
  | ksub (w : TWord)
  /-- R336. 64-bit multiply. -/
  | kmul (w : TWord)
  /-- R336. 64-bit and. -/
  | kand (w : TWord)
  /-- R336. 64-bit or. -/
  | kor (w : TWord)
  /-- R336. 64-bit exclusive or. -/
  | kxor (w : TWord)
  /-- R336. 64-bit shift left. -/
  | kshl (w : TWord)
  /-- R336. 64-bit logical shift right. -/
  | kshr (w : TWord)
  /-- R336. 64-bit arithmetic shift right. -/
  | ksra (w : TWord)
  /-- R336. Signed 64-bit minimum. -/
  | kmin (w : TWord)
  /-- R336. Signed 64-bit maximum. -/
  | kmax (w : TWord)
  /-- R336. Packs a coordinate pair. -/
  | kpack (w : TWord)
  /-- R337. Adds an immediate. -/
  | kaddi (w : TWord)
  /-- R337. Loads a sign-extended immediate. -/
  | kli (w : TWord)
  /-- R337. Shifts and ors an immediate. -/
  | klis (w : TWord)
  /-- R338. Branches if equal. -/
  | kbeq (w : TWord)
  /-- R338. Branches if not equal. -/
  | kbne (w : TWord)
  /-- R338. Branches if signed less than. -/
  | kblt (w : TWord)
  /-- R338. Branches if signed greater or equal. -/
  | kbge (w : TWord)
  /-- R338. Branches if unsigned less than. -/
  | kbltu (w : TWord)
  /-- R338. Branches if unsigned greater or equal. -/
  | kbgeu (w : TWord)
  /-- R338. Unconditional branch. -/
  | kjmp (w : TWord)
  /-- R338. Decrements a register and branches while it is nonzero. -/
  | kloop (w : TWord)
  /-- R339. Transfers to an overlay address with a link. -/
  | kocall (w : TWord)
  /-- R339. Returns through a link. -/
  | kret (w : TWord)
  /-- R340. Samples device time. -/
  | ktime (w : TWord)
  /-- R340. Samples the largest engine completion horizon. -/
  | kwch (w : TWord)
  /-- R340. Sampled 8-byte load with acquire. -/
  | kld (w : TWord)
  /-- R341. Binds a handle to a descriptor and translates its footprint. -/
  | tbind (w : TWord)
  /-- R341. Unbinds a handle. -/
  | tunbind (w : TWord)
  /-- R342. Loads a weight block and its scales. -/
  | ldw (w : TWord)
  /-- R343. Loads handle rows into accumulator rows. -/
  | ldr (w : TWord)
  /-- R344. Prefetches handle rows into staging. -/
  | lpf (w : TWord)
  /-- R345. Scaled I8 matrix multiply into a tile. -/
  | xmmI8 (w : TWord)
  /-- R345. Scaled I4 matrix multiply into a tile. -/
  | xmmI4 (w : TWord)
  /-- R345. BF16 matrix multiply into a tile. -/
  | xmmBf16 (w : TWord)
  /-- R345. FP16 matrix multiply into a tile. -/
  | xmmFp16 (w : TWord)
  /-- R346. Bypass I8 multiply from a quantised tile. -/
  | xmmbI8 (w : TWord)
  /-- R346. Bypass I4 multiply from a quantised tile. -/
  | xmmbI4 (w : TWord)
  /-- R347. Clears slots and their flags. -/
  | vclr (w : TWord)
  /-- R347. Copies whole slots. -/
  | vmov (w : TWord)
  /-- R347. A40 add. -/
  | vadd (w : TWord)
  /-- R347. A40 subtract. -/
  | vsub (w : TWord)
  /-- R347. A40 multiply. -/
  | vmul (w : TWord)
  /-- R347. A40 maximum. -/
  | vmax (w : TWord)
  /-- R347. A40 minimum. -/
  | vmin (w : TWord)
  /-- R347. Multiplies by the FP32 value in a k register. -/
  | vscl (w : TWord)
  /-- R347. Adds a fixed row. -/
  | vbadd (w : TWord)
  /-- R347. Clears the flag bytes only. -/
  | vflclr (w : TWord)
  /-- R348. I24 wrapping add. -/
  | viadd (w : TWord)
  /-- R348. I24 saturating add. -/
  | viadds (w : TWord)
  /-- R348. I24 rounding arithmetic shift right. -/
  | vishr (w : TWord)
  /-- R349. Converts I24 lanes to A40. -/
  | vcvti (w : TWord)
  /-- R349. Converts A40 to I24, saturating. -/
  | vcvtf (w : TWord)
  /-- R349. Converts A40 to FP16 lanes. -/
  | vcvth (w : TWord)
  /-- R349. Converts A40 to BF16 lanes. -/
  | vcvtb (w : TWord)
  /-- R350. Quantises a row to I8 for the bypass. -/
  | vqnt8 (w : TWord)
  /-- R350. Quantises a row to I4 for the bypass. -/
  | vqnt4 (w : TWord)
  /-- R351. Stores accumulator rows through a handle. -/
  | sst (w : TWord)
  /-- R352. Integer far-reduction store. -/
  | sredi (w : TWord)
  /-- R352. FP32 far-reduction store. -/
  | sredf (w : TWord)
  /-- R353. Waits for the S writes, releases, and enqueues a signal to a leat. -/
  | sqsig (w : TWord)
  /-- R354. Fence of the executing engine. -/
  | tfence (w : TWord)
  /-- R355. Performs token actions only. -/
  | ttok (w : TWord)
  /-- R355. Occupies an engine for n clocks. -/
  | tnop (w : TWord)
  /-- R356. Checkpoint meeting point declaring live tiles. -/
  | ckpt (w : TWord)
  /-- R355. Ends the walker's walk. -/
  | tend (w : TWord)
  /-- R355. Every walker waits until all have reached this occurrence. -/
  | tsync (w : TWord)
  /-- R383. Clears every cell of a window. -/
  | pclr (p : Rec64)
  /-- R384. Fills a path into a window and may spawn warps over covered quads. -/
  | pfill (p : Rec64)
  /-- R385. Resolves a window into an output array. -/
  | prsv (p : Rec64)
  /-- R402. CTX_CMD RESUME continues a trapped context. -/
  | ctxResume (b : BusWrite)
  /-- R402. CTX_CMD RESUME_AT resumes a trapped warp's path at CTX_PC. -/
  | ctxResumeAt (b : BusWrite)
  /-- R402. CTX_CMD KILL retires a warp, or kills a tile or path card. -/
  | ctxKill (b : BusWrite)
  /-- R402. CTX_CMD SKIP continues a path engine at the next command. -/
  | ctxSkip (b : BusWrite)
  /-- R407. GOV_CMD ASSIGN sets a PID's partition in the PID map and every copy. -/
  | govAssign (b : BusWrite)
  /-- R412. GOV_CMD MERGE quiesces, empties and rehomes slices and merges the partitions. -/
  | merge (b : BusWrite)
  /-- R413. GOV_CMD SPLIT divides a merged partition. -/
  | split (b : BusWrite)
  /-- R410. GOV_CMD RESTART_PID stops and kills every card of a PID at once. -/
  | restartPid (b : BusWrite)
  /-- R411. GOV_CMD RESTART_CTL resets a die's distributor and queue processor, with adoption. -/
  | restartCtl (b : BusWrite)
  /-- R419. GOV_CMD SNAPSHOT arms a snapshot at a device time. -/
  | govSnapshot (b : BusWrite)
  /-- R417. GOV_CMD BOOT_OK sets MODE to NORMAL or MINIMAL. -/
  | bootOk (b : BusWrite)
  /-- R416. GOV_CMD RESTART_DEVICE begins a new start, clearing FAILS first on request. -/
  | restartDevice (b : BusWrite)
  /-- R419. A write of GOV_SNAP_T arms a snapshot at that time. -/
  | govSnapTWrite (b : BusWrite)
  /-- R414. Power-on reset starts the Governor's start sequence, with every other engine held in reset and device time set to 0 and loadable. -/
  | powerOnReset
  /-- R414. With no BOOT_OK within 60 s of the release of the service cores, the start fails with cause BOOT_TMO. -/
  | bootTmo
  /-- R405. A comparator mismatch warm-restarts the Governor, aborts its command and posts LOCKSTEP; a second mismatch within 10 ms restarts the device. -/
  | lockstepMismatch
  /-- R435. A die-to-die join that fails to retrain within 1 ms causes a device restart with cause LINK. -/
  | linkRetrainFail
  /-- R436. A die at 125 °C is powered off, a THERM event is posted and the device restarts with cause THERM_TRIP. -/
  | thermTrip
  /-- R437. The Governor opens the debug port after an Ed25519 challenge signed with the key in slot 3. -/
  | debugUnlock
  /-- R433. An inbound non-posted PCIe request to the endpoint completes with Unsupported Request. -/
  | pcieInboundRead
  /-- R29. The DTU corrects each die's copy, measures its offset and sets SKEW_ERR beyond 3 ns; after a load it clears LOADING once every copy has the loaded value. -/
  | dtuCorrection
  /-- R32. A rising edge on the enabled 1 PPS input latches device time into DTU_PPS_IN and sets PPS_SEEN. -/
  | ppsInEdge
  /-- R32. At each whole second of device time, the 1 PPS output is asserted for 100 µs. -/
  | ppsOutPulse
  /-- R83. A home slice fills a line for a PID, grants a lease and raises the line's horizon. -/
  | homeReadFill
  /-- R85. The RDC serves an L1 fill from its lease copy, or refetches the line from the remote home. -/
  | rdcFill
  /-- R86. A home slice performs a store or an engine write and returns WCT := max(tp, H). -/
  | homeStore
  /-- R78. A home slice performs a non-returning reduction in its arithmetic unit and returns a WCT. -/
  | homeReduction
  /-- R78. The owner of a recalled line has completed its accepted atomics and written the line back, and the waiting access proceeds. -/
  | ownerRecallComplete
  /-- R79. An engine releases an owned line, and the home performs the returned sectors as stores. -/
  | engineLineRelease
  /-- R87. A service-core request for E or M permission arrives at the home, which stops granting leases on the line. -/
  | serviceCoreExclRequest
  /-- R87. Once the line's horizon is reached, the home grants E or M permission and then serves the waiting device fills. -/
  | serviceCoreExclGrant
  /-- R76. Once the translations are removed and their users have been performed, the shoot-down clears BUSY. -/
  | shootComplete
  /-- R80. The memory system drops a request not performed within 100 µs of its issue. -/
  | requestDrop
  /-- R80. An asynchronous completion arrives; one of a retired generation is discarded and counted in LATE_DISCARD. -/
  | completionArrival
  /-- R71. A stream-port burst writes physical lines under ownership, or is discarded and counted in SP_ERR. -/
  | streamBurst
  /-- R133. At the start of a frame, the port dequeues a free buffer, or drops the frame and counts it. -/
  | frameStart
  /-- R133. At the end of a frame, the port waits for its writes to be performed and their WCT to be reached. -/
  | frameEnd
  /-- R106. Once the conditions hold, the port enqueues the frame-end record, or on failure returns the buffer and counts a drop. -/
  | frameRecordIssue
  /-- R117. The home controller performs a plain-mode enqueue, parking a blocking form when the queue is full. -/
  | leatEnqueue
  /-- R117. The home controller performs a plain-mode dequeue. -/
  | leatDequeuePlain
  /-- R121. The home controller performs a packet-mode dequeue, turning retired reservations into pads and a bad header into ERROR. -/
  | leatDequeuePacket
  /-- R119. The home controller reserves n contiguous slots, inserting a wrap pad when one is needed. -/
  | leatReserve
  /-- R122. The home controller returns n dequeued slots and advances DONE past skipped pads. -/
  | leatDone
  /-- R123. The controller validates and writes a whole control block, waking every waiter with CLOSED. -/
  | qctlInit
  /-- R123. The controller moves an OPEN leat to DRAINING, or to CLOSED when it is empty. -/
  | qctlDrain
  /-- R123. The controller moves the leat to CLOSED and wakes every waiter with CLOSED. -/
  | qctlClose
  /-- R123. The controller reopens a CLOSED, empty leat. -/
  | qctlReopen
  /-- R123. The controller moves an ERROR leat to OPEN and sets HEAD and DONE to h. -/
  | qctlRepair
  /-- R123. The controller returns STAT, HEAD, TAIL, DONE and FREE. -/
  | qctlQuery
  /-- R120. A store to the header of the head slot notifies the controller, which serves consumers and may wake. -/
  | publishNotify
  /-- R126. A core's answer to an offer arrives; on acceptance the controller writes the data and then advances the indices. -/
  | offerAnswer
  /-- R126. An offer unanswered for 2 µs counts as refused, and the element is offered to the next waiter. -/
  | offerTimeout
  /-- R129. A removal for a waiter entry arrives, and the controller frees the entry. -/
  | waiterRemoval
  /-- R125. A blocking operation held for want of a waiter entry is re-issued every 1 µs. -/
  | waiterReissue
  /-- R130. On a reported end of a release, each die's controllers re-evaluate their parked consumers. -/
  | releaseEndReeval
  /-- R135. An accepted offer writes a packet into the shadow, and the thread enters EXEC. -/
  | qpPacketFetch
  /-- R144. A store notification from the home re-evaluates a blocked WAIT. -/
  | waitNotify
  /-- R144. Every 1 µs of device time a blocked WAIT is re-evaluated. -/
  | waitPoll
  /-- R144. At the WAIT's TIMEOUT, the packet halts with TIMEOUT or completes. -/
  | waitTimeout
  /-- R138. The condition of a BLOCKED thread is met, and the thread returns to EXEC. -/
  | qpBlockedResume
  /-- R160. After the R108 bound, the adopting QP starts threads 32 + i and resumes them from their shadows. -/
  | adoptStartThreads
  /-- R161. Once ADOPTING has cleared, the restarted QP clears ADOPTED_OUT and resumes each queue from its shadow. -/
  | handbackResume
  /-- R151. A node's completion decrements its successors' counters and releases those at zero, or ends the run. -/
  | graphNodeComplete
  /-- R140. The DDX accepts a release identified by (die, queue, seq), or refuses it with SHAPE. -/
  | ddxReleaseRequest
  /-- R165. At Reached(NEXTREL) an active periodic card is released, skipped or refused. -/
  | periodicRelease
  /-- R167. When a resource frees or a card becomes ready, the DDX grants by order key, pre-empting a later card if needed. -/
  | dispatch
  /-- R167. When the last save of a pre-empted card completes, the card goes PREEMPTED and the resources are granted. -/
  | preemptSaveComplete
  /-- R165. When a card's work is done, the card goes DONE with a release, its GEN retired and its overlays retagged. -/
  | cardWorkDone
  /-- R175. At Reached(DEADLINE) the card sets MISS and raises DMISS under its DMPOL. -/
  | deadlineMiss
  /-- R179. Every 100 µs at or above TLIM, the DDX raises a die's operating point, pre-empts work or reports THERM. -/
  | thermalStep
  /-- R179. A change of operating point completes within 10 µs. -/
  | opChangeDone
  /-- R174. At a window boundary the sluice updates RUN and OVW, reports overruns, resets and admits held requests. -/
  | sluiceWindow
  /-- R174. The DDX counts OVWIN and applies OVPOL when RUN reaches OVLIMIT. -/
  | sluiceOverrunReport
  /-- R152. A distributor places an owned team whole when all its blocks fit, reserving its barrier entries. -/
  | teamPlace
  /-- R153. An idle distributor sends STEAL and receives the upper half of the other's unplaced teams, or NONE. -/
  | steal
  /-- R153. After 1 µs a thief that received NONE may send STEAL again. -/
  | stealRetry
  /-- R156. The distributor reads a published continuation record into a gather bin, closing it at 32 records. -/
  | contRecordRead
  /-- R156. A bin closes 2 µs after its first record. -/
  | binTimeout
  /-- R156. A closed bin's warp is placed from the launch queue as a one-warp team. -/
  | contWarpPlace
  /-- R193. A core or die node whose count is complete forwards one arrival upward. -/
  | teamNodeForward
  /-- R194. The top node releases every waiting warp of the team and advances its phase. -/
  | teamBarrierRelease
  /-- R294. When every warp of the block has arrived or retired, BAR releases its standing lanes. -/
  | blockBarrierRelease
  /-- R296. On a change of the object or every 1 µs, a waiting PBWAIT tests its phase again. -/
  | phaseBarrierRecheck
  /-- R218. A long-latency word completes, writes its destinations, lowers its flag count and raises the flag's horizon. -/
  | longLatencyComplete
  /-- R95. A fence finishes its drain and its time wait, and the warp issues later accesses. -/
  | fenceWaitEnd
  /-- R274. At Reached(t0 + a) a sleeping path continues. -/
  | sleepExpiry
  /-- R169. Affected warps stop at save points, waiters are removed, and the warps' state is written to the save area. -/
  | visionPreempt
  /-- R169. When ORDBOUND expires with a warp still inside an ordered section, the warp takes WDOG and is saved trapped. -/
  | ordboundExpiry
  /-- R171. Once its in-flight accesses complete, a saved warp is restored and issues after the R107 wait. -/
  | visionRestore
  /-- R204. A load's pages are all written; the overlay becomes RESIDENT or PINNED and waiting warps go READY. -/
  | overlayLoadDone
  /-- R204. A load's page read faults or the load is dropped; the slots become INVALID and waiters take the fault. -/
  | overlayLoadFail
  /-- R207. After 20 µs without a placement, the warp takes OVL_ABSENT with detail BUSY. -/
  | placeTimeout
  /-- R198. An uncorrectable instruction-store error rereads the 4 KiB from its image and resumes the fetch, or raises ECC. -/
  | istoreRefetch
  /-- R308. A tile release sets the start state, clearing the store for 2048 clocks, before the walkers start. -/
  | tileDispatch
  /-- R313. A tile word retires and pushes its tokens, which may wake engines waiting to pop. -/
  | wordRetire
  /-- R323. The last walker reaches a CKPT occurrence; all walkers pass, or stop for the save. -/
  | ckptMeet
  /-- R172. The checkpoint image is written, and the tile card goes PREEMPTED. -/
  | tileSaveComplete
  /-- R324. Restore sets the checkpoint state, rebinds the handles and resumes after the R107 wait. -/
  | tileRestore
  /-- R177. When the time since the last checkpoint exceeds CKSPAN, CKPT_LATE is raised and the card goes HELD. -/
  | ckspanExpiry
  /-- R378. At a path release the PCE reads and checks the program header and the shading header. -/
  | pceReleaseStart
  /-- R382. Once a command's writes are performed, the next command starts or the card completes. -/
  | pceCommandComplete
  /-- R388. The PCE resolves the private buffer and gathers covered quads into warps, waiting while the launch queue is full. -/
  | pceSpawn
  /-- R390. The distributor places spawned warps in spawn order on free cores. -/
  | spawnedWarpPlace
  /-- R387. On pre-emption or HELD, the PCE stops at its next stopping point and writes its image. -/
  | pceStop
  /-- R398. After a release, a trap record is enqueued to the PID's trap leat and vector 0 is set pending. -/
  | trapDeliver
  /-- R398. A precise record that failed to enqueue is re-sent every 1 µs, or dropped once its generation is retired. -/
  | trapResend
  /-- R419. At Reached(t) every register is latched into the snapshot view and a SNAPSHOT event is posted. -/
  | snapshotLatch
  /-- R408. 10 µs of DDX silence causes a device restart with cause DDX. -/
  | ddxSilence
  /-- R408. Every 20 µs the Governor samples QP_HB; two equal samples post QP_FAIL and start adoption and restart. -/
  | qpHbSample
  /-- R408. 10 µs of distributor silence causes RESTART_CTL of the die. -/
  | distributorSilence
  /-- R408. A SKEW_ERR report posts a SKEW event. -/
  | skewReport
  /-- R408. At the end of each heartbeat period, an unchanged GOV_HB posts HB_MISS, and a third miss may restart the device. -/
  | serviceHbPeriod
  /-- R408. A DDX report to the Governor posts REPORT or THERM and may perform RESTART_PID. -/
  | governorReport
  /-- R435. A die-to-die join loses training: OZ_STAT.UP clears and retraining starts. -/
  | ozashLinkDown
  /-- R435. A join retrains within 1 ms and sets UP again, with DEGRADED set when spare lanes are in use. -/
  | ozashLinkRetrained
  /-- R435. A flit that fails its CRC on a join is replayed, and OZ_REPLAY counts it. -/
  | flitReplay
  /-- R416. Power to the Governor's domain or the device is lost, losing FAILS and all other state. -/
  | powerLoss
  /-- R436. A die's hottest sensor reading changes, updating OP_STAT and DDX_STATUS.THERM as it crosses TLIM. -/
  | dieTemperatureChange
  /-- R405. The Governor's warm restart ends within 1 ms, and it resumes judging heartbeats and performing commands. -/
  | governorWarmRestartDone
  /-- R411. The reloaded and verified QP firmware restarts with every thread OFF, and the Governor then writes HANDBACK or resumes the queues from their shadows. -/
  | qpRestartComplete
  /-- R412. At Reached(E + 8) a merge or split writes HOME_MAP, PART_CFG and DDX_PART, and starts the shoot-down that completes it. -/
  | rehomeHorizonReached
  deriving DecidableEq, Repr

end Sys2Proof
end

