-- ==== Sys2Proof/Machine/Regs.lean ====
section
/-! DEFINITION. The register windows (R22, R26): where each register lies, its width, which bits a write sets,
which a written 1 clears, and what it holds at reset. -/

namespace Sys2Proof

/-- Access of a register (R5): width in bytes, RW bits, W1C bits, reset value, and whether only the Governor
writes it or it is write-only. -/
structure RegInfo where
  size : Nat
  rw : Nat
  w1c : Nat
  reset : Nat
  gov : Bool := false
  wo : Bool := false
  deriving DecidableEq, Repr

def hubBase : Nat := 0xF0000000000
def dieBase (d : Nat) : Nat := 0xF0100000000 + d * 0x100000000
def hostBase : Nat := 0xF0300000000

/-! ## Addresses by name -/

namespace Reg
def dtime : Nat := hubBase
def dtuCtl : Nat := hubBase + 0x8
def dtuStatus : Nat := hubBase + 0xC
def dtuLoad : Nat := hubBase + 0x10
def dtuPpsIn : Nat := hubBase + 0x18
def dtuAdj : Nat := hubBase + 0x20
def ddx : Nat := hubBase + 0x01000000
def ddxCtl : Nat := ddx
def ddxStatus : Nat := ddx + 0x4
def ddxCmd : Nat := ddx + 0x8
def pwrCap : Nat := ddx + 0x10
def pwrBase : Nat := ddx + 0x14
def pwrAdm : Nat := ddx + 0x18
def tlim : Nat := ddx + 0x1C
def opStat (d : Nat) : Nat := ddx + 0x20 + 8 * d
def ddxPart : Nat := ddx + 0x30
def ddxPidmap : Nat := ddx + 0x38
def ctxId (c : Nat) : Nat := ddx + 0x100 + 0x20 * c
def ctxTarget (c : Nat) : Nat := ctxId c + 0x8
def ctxPc (c : Nat) : Nat := ctxId c + 0x10
def ctxCmd (c : Nat) : Nat := ctxId c + 0x18
def ctxStat (c : Nat) : Nat := ctxId c + 0x1C
def trapq (p : Nat) : Nat := ddx + 0x200 + 8 * p
def trapqDrop (p : Nat) : Nat := ddx + 0x280 + 4 * p
def graphCfg (g : Nat) : Nat := ddx + 0x8000 + 0x40 * g
def graphSatp (g : Nat) : Nat := graphCfg g + 0x8
def graphTrig (g : Nat) : Nat := graphCfg g + 0x10
def graphStat (g : Nat) : Nat := graphCfg g + 0x18
def graphDone (g : Nat) : Nat := graphCfg g + 0x20
def card (c : Nat) : Nat := hubBase + 0x01800000 + 128 * c
def cardEnd : Nat := card 1024
def graphMem : Nat := hubBase + 0x01C00000
def graphMemEnd : Nat := graphMem + 0x400000
def sp (n : Nat) : Nat := hubBase + 0x02000000 + 0x10000 * n
def spPid (n : Nat) : Nat := sp n + 0x40
def spFreeq (n : Nat) : Nat := sp n + 0x48
def spDoneq (n : Nat) : Nat := sp n + 0x50
def spDrop (n : Nat) : Nat := sp n + 0x58
def spErr (n : Nat) : Nat := sp n + 0x5C
def spVc (n : Nat) : Nat := sp n + 0x60
def gov : Nat := hubBase + 0x03000000
def govCmd : Nat := gov
def govStat : Nat := gov + 0x4
def govArg0 : Nat := gov + 0x8
def govArg1 : Nat := gov + 0x10
def govMode : Nat := gov + 0x18
def govPart : Nat := gov + 0x20
def govPidmap : Nat := gov + 0x28
def govPol : Nat := gov + 0x30
def govHbcfg : Nat := gov + 0x38
def govHb (c : Nat) : Nat := gov + 0x40 + 8 * c
def govSnapT : Nat := gov + 0x60
def govSnapLast : Nat := gov + 0x68
def govEvtHead : Nat := gov + 0x70
def govEvtTail : Nat := gov + 0x74
def govEvtDrop : Nat := gov + 0x78
def govLock : Nat := gov + 0x7C
def govEvt (n : Nat) : Nat := gov + 0x1000 + 32 * n
def homeMap (d : Nat) : Nat := dieBase d + 0x100
def partCfg (d : Nat) : Nat := dieBase d + 0x108
def poolBase (d p : Nat) : Nat := dieBase d + 0x200 + 0x20 * p
def poolCfg (d p : Nat) : Nat := poolBase d p + 0x8
def poolStat (d p : Nat) : Nat := poolBase d p + 0xC
def poolHead (d p : Nat) : Nat := poolBase d p + 0x10
def poolTail (d p : Nat) : Nat := poolBase d p + 0x14
def shootVa (d : Nat) : Nat := dieBase d + 0x400
def shootCtl (d : Nat) : Nat := dieBase d + 0x408
def shootStat (d : Nat) : Nat := dieBase d + 0x40C
def lateDiscard (d : Nat) : Nat := dieBase d + 0x410
def leaseCfg (d p : Nat) : Nat := dieBase d + 0x600 + 4 * p
def lq (d c : Nat) : Nat := dieBase d + 0x800 + 0x40 * c
def lqPa (d c : Nat) : Nat := lq d c
def lqArg0 (d c : Nat) : Nat := lq d c + 0x8
def lqArg1 (d c : Nat) : Nat := lq d c + 0x10
def lqBuf (d c : Nat) : Nat := lq d c + 0x18
def lqCmd (d c : Nat) : Nat := lq d c + 0x20
def lqStat (d c : Nat) : Nat := lq d c + 0x24
def lqRes0 (d c : Nat) : Nat := lq d c + 0x28
def lqRes1 (d c : Nat) : Nat := lq d c + 0x30
def lqState (d c : Nat) : Nat := lq d c + 0x38
/-- Register region of a vision core (0 to 31) or tile core (32 to 55). -/
def core (c : Nat) : Nat :=
  if c < 32 then dieBase (c / 16) + 0x01000000 + 0x100000 * (c % 16)
  else dieBase ((c - 32) / 12) + 0x02000000 + 0x100000 * ((c - 32) % 12)
def ovlMask (c p : Nat) : Nat := core c + 0x40000 + 8 * p
def ovlSlot (c s : Nat) : Nat := core c + 0x40080 + 8 * s
def ovlCnt (c : Nat) : Nat := core c + 0x40200
def ovlCmd (c : Nat) : Nat := core c + 0x40208
def ovlCmdStat (c : Nat) : Nat := core c + 0x40210
def spmWords (c : Nat) : Nat := core c + 0x50000
def spmPasses (c : Nat) : Nat := core c + 0x50008
def tcStat (tc : Nat) : Nat := core (tc + 32) + 0x60000
def tcWalk (tc e : Nat) : Nat := core (tc + 32) + 0x60008 + 8 * e
def tcChk (tc : Nat) : Nat := core (tc + 32) + 0x60030
def slice (h : Nat) : Nat := dieBase (h / 16) + 0x03000000 + 0x10000 * (h % 16)
def waymask (h p : Nat) : Nat := slice h + 4 * p
def evh (h : Nat) : Nat := slice h + 0x40
def eccCe (h : Nat) : Nat := slice h + 0x48
def eccUe (h : Nat) : Nat := slice h + 0x4C
def mc (m : Nat) : Nat := dieBase (m / 8) + 0x04000000 + 0x20000 * (m % 8)
def sluCfg (m r : Nat) : Nat := mc m + 0x1000 + 0x20 * r
def sluCnt (m r : Nat) : Nat := sluCfg m r + 0x4
def sluRun (m r : Nat) : Nat := sluCfg m r + 0x8
def sluOvw (m r : Nat) : Nat := sluCfg m r + 0xC
def sluHold (m r : Nat) : Nat := sluCfg m r + 0x10
def rdcWaymask (d p : Nat) : Nat := dieBase d + 0x05000000 + 4 * p
def qpBase (d : Nat) : Nat := dieBase d + 0x05020000
def qpCtl (d : Nat) : Nat := qpBase d
def qpStatus (d : Nat) : Nat := qpBase d + 0x4
def qpAdopt (d : Nat) : Nat := qpBase d + 0x8
def qpHb (d : Nat) : Nat := qpBase d + 0x10
def mqCfg (d i : Nat) : Nat := qpBase d + 0x100 + 0x40 * i
def mqSatp (d i : Nat) : Nat := mqCfg d i + 0x8
def mqShadow (d i : Nat) : Nat := mqCfg d i + 0x10
def mqStat (d i : Nat) : Nat := mqCfg d i + 0x18
def mqCtl (d i : Nat) : Nat := mqCfg d i + 0x20
def mqSeq (d i : Nat) : Nat := mqCfg d i + 0x24
def ozStat (d : Nat) : Nat := dieBase d + 0x05040000
def ozReplay (d : Nat) : Nat := dieBase d + 0x05040008
def cl (c : Nat) : Nat := hostBase + 0x100 + 0x80 * c
def clPid (c : Nat) : Nat := cl c
def clTgt (c : Nat) : Nat := cl c + 0x4
def clIpend (c n : Nat) : Nat := cl c + 0x8 + 8 * n
def clIen (c n : Nat) : Nat := cl c + 0x28 + 8 * n
end Reg

/-! ## The register at an address -/

def all32 : Nat := 0xFFFFFFFF
def all64 : Nat := 0xFFFFFFFFFFFFFFFF

def rw32 (m reset : Nat) : Option RegInfo := some { size := 4, rw := m, w1c := 0, reset := reset }
def rw64 (m reset : Nat) : Option RegInfo := some { size := 8, rw := m, w1c := 0, reset := reset }
def ro32 (reset : Nat) : Option RegInfo := rw32 0 reset
def ro64 (reset : Nat) : Option RegInfo := rw64 0 reset
def wo32 : Option RegInfo := some { size := 4, rw := 0, w1c := 0, reset := 0, wo := true }
def wo64 : Option RegInfo := some { size := 8, rw := 0, w1c := 0, reset := 0, wo := true }

/-- Writable bits of the words of a job card (R162). -/
def cardRw (k : Nat) : Nat := if k < 12 then all64 else 0

/-- Hub window. -/
def hubReg (o : Nat) : Option RegInfo :=
  if o < 0x10000 then
    if o = 0 then ro64 0 else if o = 0x8 then rw32 7 0
    else if o = 0xC then some { size := 4, rw := 0, w1c := 0xF, reset := 0x10 }
    else if o = 0x10 then wo64 else if o = 0x18 then ro64 0 else if o = 0x20 then rw32 all32 0 else none
  else if o < 0x01000000 then none
  else if o < 0x01000100 then
    let x := o - 0x01000000
    if x = 0 then rw32 1 0
    else if x = 4 then some { size := 4, rw := 0, w1c := 3, reset := 0 }
    else if x = 8 then wo32
    else if x = 0x10 then rw32 0xFFFF 3000 else if x = 0x14 then rw32 0xFFFF 900
    else if x = 0x18 then ro32 900 else if x = 0x1C then rw32 0xFF 105
    else if x = 0x20 ∨ x = 0x28 then ro32 0
    else if x = 0x30 then some { size := 4, rw := 0xFF, w1c := 0, reset := 0xE4, gov := true }
    else if x = 0x38 then some { size := 8, rw := all64, w1c := 0, reset := all64, gov := true }
    else none
  else if o < 0x01000180 then
    let x := (o - 0x01000100) % 0x20
    if x = 0 then rw64 0xFFFF1FFF 0 else if x = 8 ∨ x = 0x10 then rw64 all64 0
    else if x = 0x18 then wo32 else if x = 0x1C then ro32 0 else none
  else if 0x01000200 ≤ o ∧ o < 0x01000280 then
    if o % 8 = 0 then rw64 0x8000CFFFFFFFFFC0 0 else none
  else if 0x01000280 ≤ o ∧ o < 0x010002C0 then (if o % 4 = 0 then ro32 0 else none)
  else if 0x01008000 ≤ o ∧ o < 0x01009000 then
    let x := o % 0x40
    if x = 0 then rw64 0x8000000FFFFFFFFF 0 else if x = 8 then rw64 all64 0 else if x = 0x10 then wo64
    else if x = 0x18 then ro64 0 else if x = 0x20 then rw64 all64 0 else none
  else if 0x01800000 ≤ o ∧ o < 0x01820000 then
    if o % 8 = 0 then rw64 (cardRw (o % 128 / 8)) 0 else none
  else if 0x01C00000 ≤ o ∧ o < 0x02000000 then (if o % 8 = 0 then rw64 all64 0 else none)
  else if 0x02000000 ≤ o ∧ o < 0x02090000 then
    let x := o % 0x10000
    if x = 0x40 then rw32 0x1F 0 else if x = 0x48 ∨ x = 0x50 then rw64 all64 0
    else if x = 0x58 ∨ x = 0x5C then ro32 0 else if x = 0x60 then rw32 0xF 0 else none
  else if 0x03000000 ≤ o ∧ o < 0x03002000 then
    let x := o - 0x03000000
    if x = 0 then wo32 else if x = 4 then ro32 0 else if x = 8 ∨ x = 0x10 then rw64 all64 0
    else if x = 0x18 then ro32 0 else if x = 0x20 then ro32 0xE4 else if x = 0x28 then ro64 all64
    else if x = 0x30 then rw32 all32 0 else if x = 0x38 then rw32 0x1FFFFF 0
    else if 0x40 ≤ x ∧ x < 0x60 ∧ x % 8 = 0 then rw64 all64 0
    else if x = 0x60 then rw64 all64 0 else if x = 0x68 then ro64 0
    else if x = 0x70 then ro32 0 else if x = 0x74 then rw32 all32 0 else if x = 0x78 ∨ x = 0x7C then ro32 0
    else if 0x1000 ≤ x ∧ x % 8 = 0 then ro64 0 else none
  else none

/-- Overlay registers of a core (R209): slots of the store. -/
def ovlReg (slots x : Nat) : Option RegInfo :=
  if x < 0x80 then (if x % 8 = 0 then rw64 (2 ^ slots - 1) (2 ^ slots - 1) else none)
  else if x < 0x80 + 8 * slots then (if x % 8 = 0 then ro64 0 else none)
  else if x = 0x200 then ro64 0 else if x = 0x208 then wo64 else if x = 0x210 then ro64 0 else none

/-- Mill-die window of die d. -/
def dieReg (d o : Nat) : Option RegInfo :=
  if o < 0x10000 then
    if o = 0 then ro64 0
    else if o = 0x100 then some { size := 4, rw := 1, w1c := 0, reset := 0, gov := true }
    else if o = 0x108 then some { size := 4, rw := 0xF, w1c := 0, reset := if d = 0 then 4 else 0xE, gov := true }
    else if 0x200 ≤ o ∧ o < 0x400 then
      let x := o % 0x20
      if x = 0 then rw64 all64 0 else if x = 8 then rw32 0x81FFFFFF 0
      else if x = 0xC then some { size := 4, rw := 0, w1c := 2, reset := 0 }
      else if x = 0x10 then ro32 0 else if x = 0x14 then rw32 all32 0 else none
    else if o = 0x400 then rw64 all64 0 else if o = 0x408 then rw32 0x3FFFF 0
    else if o = 0x40C then some { size := 4, rw := 0, w1c := 2, reset := 0 }
    else if o = 0x410 then ro64 0
    else if 0x600 ≤ o ∧ o < 0x640 then (if o % 4 = 0 then rw32 0x3FF 0x10 else none)
    else if 0x800 ≤ o ∧ o < 0x900 then
      let x := o % 0x40
      if x < 0x20 then (if x % 8 = 0 then rw64 all64 0 else none)
      else if x = 0x20 then wo32 else if x = 0x24 then ro32 0 else if x = 0x28 ∨ x = 0x30 then ro64 0
      else if x = 0x38 then ro32 0 else none
    else none
  else if 0x01000000 ≤ o ∧ o < 0x02000000 then
    let x := o % 0x100000
    if 0x40000 ≤ x ∧ x < 0x50000 then ovlReg 48 (x - 0x40000)
    else if x = 0x50000 ∨ x = 0x50008 then rw64 all64 0 else none
  else if 0x02000000 ≤ o ∧ o < 0x02C00000 then
    let x := o % 0x100000
    if 0x40000 ≤ x ∧ x < 0x50000 then ovlReg 16 (x - 0x40000)
    else if x = 0x60000 then some { size := 4, rw := 0, w1c := 0x80, reset := 0 }
    else if 0x60008 ≤ x ∧ x < 0x60030 ∧ x % 8 = 0 then ro64 0
    else if x = 0x60030 then ro32 0 else none
  else if 0x03000000 ≤ o ∧ o < 0x03100000 then
    let x := o % 0x10000
    if x < 0x40 then (if x % 4 = 0 then rw32 0xFFFF 0xFFFF else none)
    else if x = 0x40 then ro64 0
    else if x = 0x48 ∨ x = 0x4C then some { size := 4, rw := 0, w1c := all32, reset := 0 } else none
  else if 0x04000000 ≤ o ∧ o < 0x04100000 then
    let x := o % 0x20000
    if 0x1000 ≤ x ∧ x < 0x1000 + 0x20 * 73 then
      let y := x % 0x20
      if y = 0 then rw32 0x83FFFFFF 0 else if y = 4 ∨ y = 8 ∨ y = 0xC ∨ y = 0x10 then ro32 0 else none
    else none
  else if 0x05000000 ≤ o ∧ o < 0x05000040 then (if o % 4 = 0 then rw32 0xFFFF 0xFFFF else none)
  else if 0x05020000 ≤ o ∧ o < 0x05030000 then
    let x := o - 0x05020000
    if x = 0 then rw32 1 0 else if x = 4 then ro32 0
    else if x = 8 then some { size := 8, rw := all64, w1c := 0, reset := 0, gov := true }
    else if x = 0x10 then rw32 all32 0
    else if 0x100 ≤ x ∧ x < 0x1100 then
      let y := x % 0x40
      let own := decide (x < 0x900)
      if y = 0 then rw64 (if own then 0x800F0FFFFFFFFFC0 else 0) 0
      else if y = 8 then rw64 (if own then all64 else 0) 0
      else if y = 0x10 then rw64 (if own then 0x00000FFFFFFFF800 else 0) 0
      else if y = 0x18 then ro64 0
      else if y = 0x20 then (if own then wo32 else ro32 0)
      else if y = 0x24 then ro32 0 else none
    else none
  else if o = 0x05040000 then ro32 0
  else if o = 0x05040008 then ro64 0
  else none

/-- Host-chiplet window. -/
def hostReg (o : Nat) : Option RegInfo :=
  if o = 0 then ro64 0
  else if 0x100 ≤ o ∧ o < 0x300 then
    let x := o % 0x80
    if x = 0 then rw32 0xF 0 else if x = 4 then rw32 3 0
    else if 8 ≤ x ∧ x < 0x28 ∧ x % 8 = 0 then some { size := 8, rw := 0, w1c := all64, reset := 0 }
    else if 0x28 ≤ x ∧ x < 0x48 ∧ x % 8 = 0 then rw64 all64 0 else none
  else none

/-- The register that begins at a physical address. -/
def regInfo (pa : Nat) : Option RegInfo :=
  let o := pa % 0x100000000
  let win := pa / 0x100000000
  if o ≥ 0x80000000 then none
  else if win = 0xF00 then hubReg o
  else if win = 0xF01 then dieReg 0 o
  else if win = 0xF02 then dieReg 1 o
  else if win = 0xF03 then hostReg o
  else none

/-- What a register holds while nothing has written it. -/
def regReset (pa : Nat) : DWord :=
  match regInfo pa with
  | some r => BitVec.ofNat 64 r.reset
  | none => 0

/-- Physical addresses of the register windows (R22). -/
def inWindow (pa : Nat) : Bool := decide (0xF0000000000 ≤ pa ∧ pa < 0xF0400000000)

/-- One register touched by a write: its base, which bytes of it, and the value moved to its place. -/
structure RegPart where
  reg : Nat
  size : Nat
  lo : Nat
  bytes : Nat
  val : DWord
  deriving DecidableEq, Repr

/-- Bits of a register that the written bytes cover. -/
def RegPart.mask (q : RegPart) : Nat := (2 ^ (8 * q.bytes) - 1) * 2 ^ (8 * q.lo)

/-- Offset of a register in its die's window. -/
def RegPart.off (q : RegPart) : Nat := q.reg % 0x100000000

/-- Die (or, past the dies, window) of a register. -/
def RegPart.die (q : RegPart) : Nat := q.reg / 0x100000000 - 0xF01

/-- The registers a write of 4 bytes touches: a whole 32-bit register or one half of a 64-bit one. -/
def parts4 (pa : Nat) (v : DWord) : List RegPart :=
  match regInfo pa with
  | some r =>
    if r.size = 4 then [{ reg := pa, size := 4, lo := 0, bytes := 4, val := BitVec.ofNat 64 (bits v 31 0) }]
    else [{ reg := pa, size := 8, lo := 0, bytes := 4, val := BitVec.ofNat 64 (bits v 31 0) }]
  | none =>
    if pa % 8 = 4 then
      match regInfo (pa - 4) with
      | some r =>
        if r.size = 8 then
          [{ reg := pa - 4, size := 8, lo := 4, bytes := 4, val := BitVec.ofNat 64 (bits v 31 0 * 2 ^ 32) }]
        else []
      | none => []
    else []

/-- The registers a naturally aligned write of 4 or 8 bytes touches (R25). -/
def busParts (b : BusWrite) : List RegPart :=
  let pa := b.pa.toNat
  if b.size = 4 ∧ pa % 4 = 0 then parts4 pa b.val
  else if b.size = 8 ∧ pa % 8 = 0 then
    match regInfo pa with
    | some r =>
      if r.size = 8 then [{ reg := pa, size := 8, lo := 0, bytes := 8, val := b.val }]
      else parts4 pa b.val ++ parts4 (pa + 4) (BitVec.ofNat 64 (bits b.val 63 32))
    | none => parts4 (pa + 4) (BitVec.ofNat 64 (bits b.val 63 32))
  else []

end Sys2Proof
end

