-- ==== Sys2Proof/Machine/VCheck.lean ====
section
/-! DEFINITION. The ENC checks of a vision word (R222 to R233) as functions of its opcode and fields, and the
check of a clause header (R217). -/

namespace Sys2Proof

/-! ## Fields of MOD (R229) -/

def VWord.f (w : VWord) (hi lo : Nat) : Nat := (w.mod.toNat >>> lo) % 2 ^ (hi - lo + 1)
def VWord.typ (w : VWord) : Nat := w.f 9 7
def VWord.sub (w : VWord) : Nat := w.f 3 0
def VWord.rm (w : VWord) : Nat := w.f 12 11
def VWord.sat (w : VWord) : Bool := w.mod.toNat.testBit 10
def VWord.na (w : VWord) : Bool := w.mod.toNat.testBit 6
def VWord.nb (w : VWord) : Bool := w.mod.toNat.testBit 5
def VWord.nc (w : VWord) : Bool := w.mod.toNat.testBit 4
def VWord.scope (w : VWord) : Nat := w.f 12 10
def VWord.ord (w : VWord) : Nat := w.f 9 8
def VWord.size (w : VWord) : Nat := w.f 7 5
def VWord.sx (w : VWord) : Bool := w.mod.toNat.testBit 4
def VWord.space (w : VWord) : Nat := w.f 3 1
def VWord.fs (w : VWord) : Nat := w.f 0 0
def VWord.subX (w : VWord) : Nat := w.f 6 3
def VWord.width (w : VWord) : Nat := w.f 12 10
def VWord.sc (w : VWord) : Bool := w.mod.toNat.testBit 7
def VWord.blk (w : VWord) : Bool := w.mod.toNat.testBit 6
def VWord.subS (w : VWord) : Nat := w.f 5 1
def VWord.srn (w : VWord) : Nat := w.f 12 5
def VWord.uni (w : VWord) : Bool := decide (w.u.toNat = 1)

/-! ## The opcode map (R232) -/

/-- Forms of MOD. -/
inductive VForm
  | a | m | x | b | s | n
  deriving DecidableEq, Repr

def vForm (opc : Nat) : VForm :=
  if opc < 0x080 then .a else if opc < 0x0A0 then .x else if opc < 0x0C0 then .b
  else if opc = 0x0C3 ∨ opc = 0x0C4 then .n else if opc < 0x100 then .s else if opc < 0x120 then .m else .s

/-- The U column: 0 and 1 as required, 2 for either, 3 for either with v sources under U = 1. -/
def vUPerm (opc : Nat) : Nat :=
  if opc < 0x080 then 2
  else if opc = 0x082 ∨ opc = 0x084 ∨ opc = 0x086 then 3
  else if opc < 0x0C0 then 0
  else if opc = 0x0C3 then 2
  else if opc < 0x0C5 then 1
  else if opc < 0x100 then 0
  else if opc = 0x100 ∨ opc = 0x101 then 2
  else if opc < 0x140 then 0
  else if opc < 0x160 then 2
  else 0

/-- Long-latency opcodes (R219). -/
def vLong (opc : Nat) : Bool :=
  decide (opc = 0x0C0 ∨ opc = 0x0C1 ∨ opc = 0x100 ∨ opc = 0x102 ∨ (0x110 ≤ opc ∧ opc ≤ 0x118) ∨
    (0x140 ≤ opc ∧ opc ≤ 0x148))

/-- Clause-ending words (R221). -/
def vEnds (opc : Nat) (w : VWord) : Bool :=
  decide ((0x0A0 ≤ opc ∧ opc ≤ 0x0A8) ∨ (0x0C5 ≤ opc ∧ opc ≤ 0x0C7) ∨ opc = 0x121 ∨ opc = 0x124 ∨ opc = 0x125 ∨
    opc = 0x160) || (decide (opc = 0x140 ∨ opc = 0x141 ∨ opc = 0x142) && w.blk)

/-! ## Operand fields (R225 to R228, R280) -/

/-- What a field of an entry may hold: nothing (448), a source or a destination of a number of registers, or a
predicate. `uni` marks a source that takes no v register; `vOnly` a destination that takes no s register;
`disc` whether a destination may be 448. -/
inductive Fk
  | blank
  | src (n : Nat) (uni : Bool)
  | dst (n : Nat) (vOnly disc : Bool)
  | psrc
  | pdst
  deriving DecidableEq, Repr

def regsOfSize (z : Nat) : Nat := if z = 3 then 2 else if z = 4 then 4 else 1

/-- Special values that are 64 bits wide (R231). -/
def srnWide (n : Nat) : Bool := decide (n = 0x18 ∨ n = 0x19 ∨ n = 0x1A)

def s1 : Fk := .src 1 false
def u1 : Fk := .src 1 true
def d1 : Fk := .dst 1 false true

/-- CVT reads b when it makes a 16-bit pair of two 32-bit sources (R254). -/
def cvtReadsB (w : VWord) : Bool :=
  decide ((w.typ = 3 ∨ w.typ = 4 ∨ w.typ = 5) ∧ w.sub < 3)

/-- The kinds of DST, SRCA, SRCB and SRCC by opcode. -/
def vFields (opc : Nat) (w : VWord) : List Fk :=
  if opc = 0x004 then [d1, s1, s1, s1]
  else if opc = 0x007 ∨ opc = 0x008 then [d1, s1, .blank, .blank]
  else if opc = 0x009 then [.dst 2 false true, .src 2 false, s1, .blank]
  else if opc = 0x00A then [.pdst, s1, s1, .blank]
  else if opc = 0x00B then [d1, s1, s1, .psrc]
  else if opc < 0x00A then [d1, s1, s1, .blank]
  else if opc = 0x023 ∨ opc = 0x029 ∨ opc = 0x02A ∨ opc = 0x02B then [d1, s1, .blank, .blank]
  else if opc = 0x028 then [d1, s1, s1, s1]
  else if opc < 0x040 then [d1, s1, s1, .blank]
  else if opc = 0x043 then [d1, s1, s1, s1]
  else if opc = 0x046 then [.pdst, s1, s1, .blank]
  else if opc < 0x046 then [d1, s1, s1, .blank]
  else if opc < 0x060 then [d1, s1, .blank, .blank]
  else if opc = 0x060 then [d1, s1, if cvtReadsB w then s1 else .blank, .blank]
  else if opc = 0x061 then [d1, s1, s1, .blank]
  else if opc = 0x062 ∨ opc = 0x066 then [d1, s1, .blank, .blank]
  else if opc = 0x067 then [.pdst, .psrc, .psrc, .blank]
  else if opc = 0x068 then [d1, .psrc, .blank, .blank]
  else if opc = 0x069 then [.pdst, s1, .blank, .blank]
  else if opc < 0x080 then [d1, s1, s1, s1]
  else if opc = 0x081 then [.dst 1 true true, s1, s1, .blank]
  else if opc = 0x082 then [if w.subX = 2 then d1 else .pdst, .psrc, .blank, .blank]
  else if opc = 0x084 then [if w.uni then d1 else .dst 1 true true, s1, .blank, .blank]
  else if opc = 0x086 then (if w.uni then [d1, s1, .blank, .blank] else [.pdst, .blank, .blank, .blank])
  else if opc < 0x0A0 then [.dst 1 true true, s1, .blank, .blank]
  else if opc = 0x0A1 then [.blank, s1, .blank, .blank]
  else if opc = 0x0A2 then [.dst 2 true false, .blank, .blank, .blank]
  else if opc = 0x0A3 then [.blank, .src 2 false, .blank, .blank]
  else if opc = 0x0A4 then [.dst 2 true true, .src 2 false, .blank, .blank]
  else if opc = 0x0A5 ∨ opc = 0x0A7 ∨ opc = 0x0A8 then [.blank, u1, .blank, .blank]
  else if opc < 0x0C0 then [.blank, .blank, .blank, .blank]
  else if opc = 0x0C0 then [.dst 2 false true, u1, u1, .blank]
  else if opc = 0x0C1 then [.dst 2 false true, u1, .blank, .blank]
  else if opc = 0x0C3 then [.dst (if srnWide w.srn then 2 else 1) false true, .blank, .blank, .blank]
  else if opc < 0x100 then [.blank, u1, .blank, .blank]
  else if opc = 0x100 then
    [.dst (regsOfSize w.size) false true, .src (if w.space = 1 then 1 else 2) false, s1, .blank]
  else if opc = 0x101 then
    [.blank, .src (if w.space = 1 then 1 else 2) false, s1, .src (regsOfSize w.size) false]
  else if opc = 0x102 then [.blank, .src 2 false, s1, .blank]
  else if opc < 0x119 then
    [.dst (regsOfSize w.size) false true, .src (if w.space = 1 then 1 else 2) false,
     .src (regsOfSize w.size) false, if opc = 0x117 then .src (regsOfSize w.size) false else .blank]
  else if opc < 0x120 then [.blank, .src 2 false, .src (regsOfSize w.size) false, .blank]
  else if opc < 0x122 then [.blank, .blank, .blank, .blank]
  else if opc < 0x125 then
    [.blank, .src (if w.subS % 2 = 1 then 1 else 2) true, u1, if opc = 0x123 then u1 else .blank]
  else if opc = 0x125 then [.blank, u1, .blank, .blank]
  else if opc = 0x140 then [d1, .src 2 false, .src 2 false, .blank]
  else if opc = 0x141 then [.dst 8 false true, .src 2 false, .src 2 false, .blank]
  else if opc = 0x142 then [.dst 2 false true, .src 2 false, s1, .blank]
  else if opc = 0x143 then [d1, .src 2 false, s1, .blank]
  else if opc = 0x144 then [.dst 8 false true, .src 2 false, .blank, .blank]
  else if opc = 0x148 then [.dst 2 false true, s1, .blank, .blank]
  else if opc = 0x149 then [.blank, s1, .blank, .blank]
  else [.blank, .blank, .blank, .blank]

/-- The four fields' contents. -/
def VWord.vals (w : VWord) : List Nat := [w.dst.toNat, w.srcA.toNat, w.srcB.toNat, w.srcC.toNat]

/-- Whether a field's value is one its kind permits (R225, R227, R228, R280). -/
def Fk.ok (k : Fk) (v : Nat) : Bool :=
  match k with
  | .blank => decide (v = 448)
  | .pdst => decide (v ≤ 6)
  | .psrc => decide (v ≤ 7)
  | .dst n vOnly disc =>
    if v = 448 then disc
    else decide (v < 448 ∧ v % n = 0) && !(vOnly && decide (256 ≤ v))
  | .src n uni =>
    if v < 448 then decide (v % n = 0) && !(uni && decide (v < 256))
    else if v = 448 then true
    else decide (v ≠ 509 ∧ v ≠ 510 ∧ n ≤ 2)

/-- The v registers a field names: first and number. -/
def Fk.vregs (k : Fk) (v : Nat) : Option (Nat × Nat) :=
  match k with
  | .dst n _ _ => if v < 256 then some (v, n) else none
  | .src n _ => if v < 256 then some (v, n) else none
  | _ => none

/-! ## The checks, each true where it passes (R233) -/

def vGuardOk (w : VWord) : Bool := decide (w.guard.toNat ≠ 15)

/-- R224: the U column, no v destination under U = 1, and no v source but under R. -/
def vUniformOk (opc : Nat) (w : VWord) : Bool :=
  let p := vUPerm opc
  decide (p = 2 ∨ p = 3 ∨ p = w.u.toNat) &&
    (!w.uni ||
      ((vFields opc w).zip w.vals).all fun kv =>
        match kv.1 with
        | .dst _ _ _ => decide (256 ≤ kv.2)
        | .src _ _ => decide (256 ≤ kv.2) || decide (p = 3)
        | _ => true)

def vRegOk (opc : Nat) (w : VWord) : Bool := ((vFields opc w).zip w.vals).all fun kv => kv.1.ok kv.2

/-- R184, R225: every v register lies below the allotment. -/
def vAllotOk (opc : Nat) (w : VWord) (n : Nat) : Bool :=
  ((vFields opc w).zip w.vals).all fun kv =>
    match kv.1.vregs kv.2 with
    | some (r, c) => decide (r + c ≤ n)
    | none => true

/-- TYP codes of a form-A opcode (R244 to R261). -/
def vTypOk (opc typ : Nat) : Bool :=
  if opc ≤ 0x001 ∨ opc = 0x005 ∨ opc = 0x006 then decide (typ ∈ [0, 1, 5, 6])
  else if opc = 0x002 ∨ opc = 0x004 then decide (typ ∈ [0, 1, 5])
  else if opc = 0x003 ∨ opc = 0x00A ∨ (0x020 ≤ opc ∧ opc ≤ 0x02B) then decide (typ ≤ 1)
  else if opc = 0x007 ∨ opc = 0x008 then decide (typ ∈ [0, 5, 6])
  else if 0x040 ≤ opc ∧ opc ≤ 0x045 then decide (typ ∈ [2, 3, 4])
  else if 0x046 ≤ opc ∧ opc ≤ 0x04E then decide (typ = 2)
  else if opc = 0x060 then decide (typ ≤ 5)
  else if opc = 0x061 ∨ opc = 0x062 then decide (5 ≤ typ)
  else if opc = 0x063 then decide (typ = 6)
  else if opc = 0x064 then decide (typ = 7)
  else decide (typ = 0)

def vSatOk (opc : Nat) : Bool :=
  decide (opc ∈ [0x000, 0x001, 0x002, 0x004, 0x007, 0x008, 0x060, 0x061, 0x063, 0x064])

def vRmOk (opc : Nat) : Bool := decide (opc ∈ [0x040, 0x041, 0x042, 0x043, 0x04A, 0x060])

/-- Sources that may be negated: a, b, c. -/
def vNegOk (opc : Nat) (w : VWord) : Bool :=
  let fl := decide (2 ≤ w.typ ∧ w.typ ≤ 4)
  let two := decide (0x040 ≤ opc ∧ opc ≤ 0x046)
  let one := two || decide (0x047 ≤ opc ∧ opc ≤ 0x04E)
  (!w.na || (fl && one)) && (!w.nb || (fl && two)) && (!w.nc || (fl && decide (opc = 0x043)))

/-- The combinations of CVT (R254). -/
def cvtOk (w : VWord) : Bool :=
  let d := w.typ
  let s := w.sub % 8
  let x := decide (8 ≤ w.sub)
  let intTy := fun t => decide (t = 0 ∨ t = 1 ∨ t = 5)
  let base :=
    if 6 ≤ d ∨ 6 ≤ s then false
    else if x && decide (d = 2 ∧ s = 1) then true
    else if x && decide (d = 1 ∧ s = 2) then decide (w.rm = 0)
    else if d < 3 ∧ 3 ≤ s then true
    else !x && decide (d ≠ s)
  base && (!w.sat || (intTy d && intTy s))

def vSubOk (opc : Nat) (w : VWord) : Bool :=
  if opc = 0x009 ∨ opc = 0x067 then true
  else if opc = 0x00A then decide (w.sub ≤ 5)
  else if opc = 0x046 then decide (w.sub ≤ 7)
  else if opc = 0x060 then cvtOk w
  else if opc = 0x062 then
    decide (w.sub % 8 < (if w.typ = 5 then 2 else if w.typ = 6 then 4 else 8))
  else decide (w.sub = 0)

def vModAOk (opc : Nat) (w : VWord) : Bool :=
  vTypOk opc w.typ && (!w.sat || vSatOk opc) && (decide (w.rm = 0) || vRmOk opc) && vNegOk opc w && vSubOk opc w

def vModXOk (opc : Nat) (w : VWord) : Bool :=
  decide (w.f 2 0 = 0 ∧ w.width ≤ 5) && (!w.uni || decide (w.width = 5)) &&
    (if opc = 0x080 then decide (w.width = 0 ∧ w.typ = 0 ∧ (w.subX ≤ 2 ∨ (4 ≤ w.subX ∧ w.subX ≤ 7)))
     else if opc = 0x081 then decide (w.typ = 0 ∧ w.subX ≤ 3)
     else if opc = 0x082 then decide (w.typ = 0 ∧ w.subX ≤ 2)
     else if opc = 0x083 ∨ opc = 0x084 then
       decide (w.subX % 8 ≤ 6 ∧ (if w.subX % 8 = 6 then w.typ = 2 else w.typ ≤ 1) ∧ (opc = 0x083 ∨ w.subX < 8))
     else if opc = 0x085 then decide (w.typ ≤ 1 ∧ w.subX = 0)
     else decide (w.typ = 0 ∧ w.subX = 0))

/-- Special values that exist, and those WRSR may name (R231). -/
def srnOk (opc n : Nat) : Bool :=
  if opc = 0x0C4 then decide (n = 0x14 ∨ n = 0x15) else decide (n ≤ 0x15) || srnWide n

def vModMOk (opc : Nat) (w : VWord) : Bool :=
  decide (w.scope ≤ 5 ∧ w.size ≤ 4 ∧ w.space ≤ 1) && (decide (w.fs = 0) || vLong opc) &&
    (decide (w.scope = 0) || decide (w.ord ≠ 0)) && (decide (w.ord = 0) || decide (w.space = 0)) &&
    (if opc = 0x100 then decide (w.ord ≤ 1) && (!w.sx || decide (w.size ≤ 1))
     else if opc = 0x101 then decide (w.ord = 0 ∨ w.ord = 2) && !w.sx
     else if opc = 0x102 then decide (w.size = 4 ∧ w.ord = 0) && !w.sx
     else if opc ≤ 0x118 then
       decide ((w.size = 2 ∨ w.size = 3) ∧ (opc = 0x118 → w.size = 2)) &&
         (!w.sx || decide (opc = 0x111 ∨ opc = 0x112))
     else
       decide ((w.size = 2 ∨ w.size = 3) ∧ (opc = 0x11F → w.size = 2) ∧ w.space = 0 ∧ (w.ord = 0 ∨ w.ord = 2)) &&
         (!w.sx || decide (opc = 0x11A ∨ opc = 0x11B)))

def vModSOk (opc : Nat) (w : VWord) : Bool :=
  (decide (w.fs = 0) || vLong opc) &&
    (if opc = 0x120 then
       decide (w.scope ≤ 5 ∧ w.ord = 0 ∧ w.subS = 0) && !w.blk && (!w.sc || decide (w.scope = 4 ∨ w.scope = 5))
     else if opc = 0x122 ∨ opc = 0x123 ∨ opc = 0x124 then
       decide (w.scope ≤ 5 ∧ w.ord = 0 ∧ w.subS ≤ 1 ∧ (opc = 0x122 → w.scope = 0) ∧ (w.subS = 1 → w.scope ≤ 1)) &&
         !w.blk && !w.sc
     else if 0x140 ≤ opc ∧ opc ≤ 0x144 then
       decide (w.scope = 0 ∧ w.ord = 0) && !w.sc && (!w.blk || (w.uni && decide (opc ≤ 0x142))) &&
         (if opc = 0x144 then decide (w.subS ≤ 5) else decide (w.subS = 0))
     else decide (w.scope = 0 ∧ w.ord = 0 ∧ w.subS = 0) && !w.sc && !w.blk)

/-- R229, R231 and the entries' own limits. -/
def vModOk (opc : Nat) (w : VWord) : Bool :=
  match vForm opc with
  | .a => vModAOk opc w
  | .x => vModXOk opc w
  | .b => decide (w.mod.toNat = 0 ∨ opc = 0x0A0 ∨ opc = 0x0A2)
  | .n => decide (w.f 4 0 = 0) && srnOk opc w.srn
  | .m => vModMOk opc w
  | .s => vModSOk opc w

/-- R221: a clause-ending word stands last. -/
def vPlaceOk (opc : Nat) (w : VWord) (last : Bool) : Bool := !(vEnds opc w) || last

/-- The first failing check of R233 at a warp of allotment n, at the last word of its clause or not. -/
def vEnc (opc : Nat) (w : VWord) (n : Nat) (last : Bool) : Option Nat :=
  if !vGuardOk w then some 3
  else if !vUniformOk opc w then some 4
  else if !vRegOk opc w then some 5
  else if !vAllotOk opc w n then some 6
  else if !vModOk opc w then some 7
  else if !vPlaceOk opc w last then some 8
  else none

/-! ## The clause header (R216, R217) -/

def hdrSig (h : DWord) : Nat := bits h 63 56
def hdrWait (h : DWord) : Nat := bits h 55 44
def hdrSetA (h : DWord) : Nat := bits h 43 40
def hdrSetB (h : DWord) : Nat := bits h 39 36
def hdrLen (h : DWord) : Nat := bits h 35 33
def hdrYield (h : DWord) : Bool := bit h 32
def hdrImm (h : DWord) : Word := BitVec.ofNat 32 (bits h 31 0)

def hdrOk (h : DWord) : Bool :=
  decide (hdrSig h = 0xC1 ∧ hdrLen h ≠ 0 ∧ (hdrSetA h < 12 ∨ hdrSetA h = 15) ∧ (hdrSetB h < 12 ∨ hdrSetB h = 15))

end Sys2Proof
end

