-- ==== Sys2Proof/Decode.lean ====
section
/-! DEFINITION. From words to instructions and back: the opcode maps (R232, R327), the packet and command codes
(R139, R381) and the register writes that have a row of their own. Events of the hardware have no encoding. -/

namespace Sys2Proof

/-- Why words name no instruction. -/
inductive DecodeErr
  /-- a vision opcode that R232 does not list: ENC with detail OPCODE at issue -/
  | visionOpcode
  /-- a tile opcode that R327 does not list: ENC with detail OPCODE -/
  | tileOpcode
  /-- a packet OP, or a SIGNAL kind, that R139 does not assign: BADPKT -/
  | packetOp
  /-- a command OP that R381 calls invalid: PATH_FMT with detail COMMAND -/
  | commandOp
  deriving DecidableEq, Repr

/-- The opcode of a vision word. -/
def vOpcode (x : DWord) : Nat := (x.extractLsb' 54 10).toNat

/-- The fields of a vision word (R222). -/
def vFieldsOf (x : DWord) : VWord :=
  { guard := x.extractLsb' 50 4, u := x.extractLsb' 49 1, dst := x.extractLsb' 40 9, srcA := x.extractLsb' 31 9,
    srcB := x.extractLsb' 22 9, srcC := x.extractLsb' 13 9, mod := x.extractLsb' 0 13 }

/-- The word of an opcode and its fields (R222). -/
def vPack (opc : BitVec 10) (w : VWord) : DWord :=
  opc ++ w.guard ++ w.u ++ w.dst ++ w.srcA ++ w.srcB ++ w.srcC ++ w.mod

/-- The opcode map of the vision array (R232). -/
def vInstr (opc : Nat) (w : VWord) : Option Instr :=
  match opc with
  | 0x000 => some (.iadd w)
  | 0x001 => some (.isub w)
  | 0x002 => some (.imul w)
  | 0x003 => some (.imulhi w)
  | 0x004 => some (.imad w)
  | 0x005 => some (.imin w)
  | 0x006 => some (.imax w)
  | 0x007 => some (.iabs w)
  | 0x008 => some (.ineg w)
  | 0x009 => some (.lea w)
  | 0x00A => some (.icmp w)
  | 0x00B => some (.sel w)
  | 0x020 => some (.and w)
  | 0x021 => some (.or w)
  | 0x022 => some (.xor w)
  | 0x023 => some (.not w)
  | 0x024 => some (.shl w)
  | 0x025 => some (.shr w)
  | 0x026 => some (.rot w)
  | 0x027 => some (.bfe w)
  | 0x028 => some (.bfi w)
  | 0x029 => some (.popc w)
  | 0x02A => some (.clz w)
  | 0x02B => some (.brev w)
  | 0x040 => some (.fadd w)
  | 0x041 => some (.fsub w)
  | 0x042 => some (.fmul w)
  | 0x043 => some (.ffma w)
  | 0x044 => some (.fmin w)
  | 0x045 => some (.fmax w)
  | 0x046 => some (.fcmp w)
  | 0x047 => some (.fclass w)
  | 0x048 => some (.frcp w)
  | 0x049 => some (.frsq w)
  | 0x04A => some (.fsqrt w)
  | 0x04B => some (.fexp2 w)
  | 0x04C => some (.flog2 w)
  | 0x04D => some (.fsin w)
  | 0x04E => some (.fcos w)
  | 0x060 => some (.cvt w)
  | 0x061 => some (.pack w)
  | 0x062 => some (.unpack w)
  | 0x063 => some (.dp4 w)
  | 0x064 => some (.dp8 w)
  | 0x065 => some (.bsel w)
  | 0x066 => some (.mov w)
  | 0x067 => some (.pcomb w)
  | 0x068 => some (.psave w)
  | 0x069 => some (.pload w)
  | 0x080 => some (.qxch w)
  | 0x081 => some (.lpick w)
  | 0x082 => some (.vote w)
  | 0x083 => some (.scan w)
  | 0x084 => some (.red w)
  | 0x085 => some (.lsame w)
  | 0x086 => some (.lfirst w)
  | 0x0A0 => some (.bra w)
  | 0x0A1 => some (.brx w)
  | 0x0A2 => some (.call w)
  | 0x0A3 => some (.ret w)
  | 0x0A4 => some (.ocall w)
  | 0x0A5 => some (.conv w)
  | 0x0A6 => some (.exit w)
  | 0x0A7 => some (.sleep w)
  | 0x0A8 => some (.waitf w)
  | 0x0A9 => some (.nop w)
  | 0x0C0 => some (.ovld w)
  | 0x0C1 => some (.ovqry w)
  | 0x0C2 => some (.ovrel w)
  | 0x0C3 => some (.rdsr w)
  | 0x0C4 => some (.wrsr w)
  | 0x0C5 => some (.trap w)
  | 0x0C6 => some (.bkpt w)
  | 0x0C7 => some (.svc w)
  | 0x100 => some (.ld w)
  | 0x101 => some (.st w)
  | 0x102 => some (.cpa w)
  | 0x110 => some (.atomAdd w)
  | 0x111 => some (.atomMin w)
  | 0x112 => some (.atomMax w)
  | 0x113 => some (.atomAnd w)
  | 0x114 => some (.atomOr w)
  | 0x115 => some (.atomXor w)
  | 0x116 => some (.atomExch w)
  | 0x117 => some (.atomCas w)
  | 0x118 => some (.atomFadd w)
  | 0x119 => some (.fredAdd w)
  | 0x11A => some (.fredMin w)
  | 0x11B => some (.fredMax w)
  | 0x11C => some (.fredAnd w)
  | 0x11D => some (.fredOr w)
  | 0x11E => some (.fredXor w)
  | 0x11F => some (.fredFadd w)
  | 0x120 => some (.fence w)
  | 0x121 => some (.bar w)
  | 0x122 => some (.pbinit w)
  | 0x123 => some (.pbarr w)
  | 0x124 => some (.pbwait w)
  | 0x125 => some (.tbar w)
  | 0x140 => some (.qenq w)
  | 0x141 => some (.qdeq w)
  | 0x142 => some (.qres w)
  | 0x143 => some (.qdone w)
  | 0x144 => some (.qctl w)
  | 0x148 => some (.cres w)
  | 0x149 => some (.cpost w)
  | 0x160 => some (.ordin w)
  | 0x161 => some (.ordout w)
  | _ => none

def decodeVision (x : DWord) : Except DecodeErr Instr :=
  match vInstr (vOpcode x) (vFieldsOf x) with
  | some i => .ok i
  | none => .error .visionOpcode

/-- The fields of a tile word and of the high bits of its unit (R309, R315). -/
def tFieldsOf (x : DWord) : TWord :=
  { high := x.extractLsb' 48 16, tag := x.extractLsb' 45 3, popP := x.extractLsb' 44 1, popN := x.extractLsb' 43 1,
    pushP := x.extractLsb' 42 1, pushN := x.extractLsb' 41 1, rep := x.extractLsb' 27 7, step := x.extractLsb' 24 3,
    opa := x.extractLsb' 12 12, opb := x.extractLsb' 0 12 }

def tOpcode (x : DWord) : Nat := (x.extractLsb' 34 7).toNat

def tPack (opc : BitVec 7) (w : TWord) : DWord :=
  w.high ++ w.tag ++ w.popP ++ w.popN ++ w.pushP ++ w.pushN ++ opc ++ w.rep ++ w.step ++ w.opa ++ w.opb

/-- The opcode map of the tile cores (R327). -/
def tInstr (opc : Nat) (w : TWord) : Option Instr :=
  match opc with
  | 0x00 => some (.knop w)
  | 0x01 => some (.kadd w)
  | 0x02 => some (.ksub w)
  | 0x03 => some (.kmul w)
  | 0x04 => some (.kand w)
  | 0x05 => some (.kor w)
  | 0x06 => some (.kxor w)
  | 0x07 => some (.kshl w)
  | 0x08 => some (.kshr w)
  | 0x09 => some (.ksra w)
  | 0x0A => some (.kmin w)
  | 0x0B => some (.kmax w)
  | 0x0C => some (.kaddi w)
  | 0x0D => some (.kli w)
  | 0x0E => some (.klis w)
  | 0x0F => some (.kpack w)
  | 0x10 => some (.kbeq w)
  | 0x11 => some (.kbne w)
  | 0x12 => some (.kblt w)
  | 0x13 => some (.kbge w)
  | 0x14 => some (.kbltu w)
  | 0x15 => some (.kbgeu w)
  | 0x16 => some (.kjmp w)
  | 0x17 => some (.kloop w)
  | 0x18 => some (.kocall w)
  | 0x19 => some (.kret w)
  | 0x1A => some (.ktime w)
  | 0x1B => some (.kwch w)
  | 0x1C => some (.kld w)
  | 0x20 => some (.tbind w)
  | 0x21 => some (.tunbind w)
  | 0x22 => some (.ldw w)
  | 0x23 => some (.ldr w)
  | 0x24 => some (.lpf w)
  | 0x30 => some (.xmmI8 w)
  | 0x31 => some (.xmmI4 w)
  | 0x32 => some (.xmmBf16 w)
  | 0x33 => some (.xmmFp16 w)
  | 0x34 => some (.xmmbI8 w)
  | 0x35 => some (.xmmbI4 w)
  | 0x40 => some (.vclr w)
  | 0x41 => some (.vmov w)
  | 0x42 => some (.vadd w)
  | 0x43 => some (.vsub w)
  | 0x44 => some (.vmul w)
  | 0x45 => some (.vmax w)
  | 0x46 => some (.vmin w)
  | 0x47 => some (.vscl w)
  | 0x48 => some (.vbadd w)
  | 0x49 => some (.viadd w)
  | 0x4A => some (.viadds w)
  | 0x4B => some (.vishr w)
  | 0x4C => some (.vcvti w)
  | 0x4D => some (.vcvtf w)
  | 0x4E => some (.vqnt8 w)
  | 0x4F => some (.vqnt4 w)
  | 0x50 => some (.vcvth w)
  | 0x51 => some (.vcvtb w)
  | 0x52 => some (.vflclr w)
  | 0x60 => some (.sst w)
  | 0x61 => some (.sredi w)
  | 0x62 => some (.sredf w)
  | 0x63 => some (.sqsig w)
  | 0x70 => some (.tfence w)
  | 0x71 => some (.ttok w)
  | 0x72 => some (.tnop w)
  | 0x78 => some (.ckpt w)
  | 0x79 => some (.tend w)
  | 0x7A => some (.tsync w)
  | _ => none

def decodeTile (x : DWord) : Except DecodeErr Instr :=
  match tInstr (tOpcode x) (tFieldsOf x) with
  | some i => .ok i
  | none => .error .tileOpcode

/-- The packet OPs (R139), and the kinds of SIGNAL (R146). -/
def decodePacket (p : Rec64) : Except DecodeErr Instr :=
  let op := bits p.w0 7 0
  if op = 0 then .ok (.pktNop p)
  else if op = 1 then .ok (.launch p)
  else if op = 2 then .ok (.wait p)
  else if op = 3 then .ok (.pred p)
  else if op = 4 then .ok (.trigger p)
  else if op = 5 then
    let k := bits p.w0 9 8
    if k = 0 then .ok (.signalStore p) else if k = 1 then .ok (.signalAdd p)
    else if k = 2 then .ok (.signalEnq p) else .ok (.signalIntr p)
  else .error .packetOp

/-- The command OPs (R381). -/
def decodeCommand (p : Rec64) : Except DecodeErr Instr :=
  let op := bits p.w0 3 0
  if op = 1 then .ok (.pclr p) else if op = 2 then .ok (.pfill p) else if op = 3 then .ok (.prsv p)
  else .error .commandOp

/-- The row of a write to one register: by its address and, for a command register, the code written. -/
def partRow (src : Writer) (q : RegPart) : Option (BusWrite → Instr) :=
  let pa := q.reg
  let v := q.val
  let o := pa % 0x100000000
  let win := pa / 0x100000000
  if win = 0xF00 then
    if o = 0x10 then some .dtuLoadWrite
    else if o = 0x20 then some .dtuAdjWrite
    else if o = 0x01000008 then
      let c := bits v 12 10
      if c = 1 then some .activate else if c = 2 then some .retire else if c = 3 then some .ddxResume
      else if c = 4 then some .ddxKill else none
    else if 0x01000100 ≤ o ∧ o < 0x01000180 ∧ o % 0x20 = 0x18 then
      let c := bits v 2 0
      if c = 1 then some .ctxResume else if c = 2 then some .ctxResumeAt else if c = 3 then some .ctxKill
      else if c = 4 then some .ctxSkip else none
    else if 0x01008000 ≤ o ∧ o < 0x01009000 ∧ o % 0x40 = 0 then
      (if bit v 63 then some .graphValidate else none)
    else if 0x01008000 ≤ o ∧ o < 0x01009000 ∧ o % 0x40 = 0x10 then some .graphTrigger
    else if 0x01800000 ≤ o ∧ o < 0x01820000 then some .jobCardWrite
    else if o = 0x03000000 then
      let c := bits v 7 0
      if c = 1 then some .govAssign else if c = 2 then some .merge else if c = 3 then some .split
      else if c = 4 then some .restartPid else if c = 5 then some .restartCtl else if c = 6 then some .govSnapshot
      else if c = 7 then some .bootOk else if c = 8 then some .restartDevice else none
    else if o = 0x03000060 then some .govSnapTWrite
    else none
  else if win = 0xF01 ∨ win = 0xF02 then
    if o = 0x408 then
      if bit v 31 then
        let c := bits v 17 16
        if c = 0 then some .shootPage else if c = 1 then some .shootAsid else if c = 2 then some .shootAll else none
      else none
    else if 0x600 ≤ o ∧ o < 0x640 then some .leaseCfgWrite
    else if 0x800 ≤ o ∧ o < 0x900 ∧ o % 0x40 = 0x20 then
      let c := bits v 3 0
      if c = 0 then some .lqEnq else if c = 1 then some .lqDeq else if c = 2 then some .lqResv
      else if c = 3 then some .lqDone else if c = 8 then some .lqInit else if c = 9 then some .lqDrain
      else if c = 10 then some .lqClose else if c = 11 then some .lqReopen else if c = 12 then some .lqRepair
      else if c = 13 then some .lqQuery else none
    else if 0x01000000 ≤ o ∧ o < 0x02C00000 ∧ o % 0x100000 = 0x40208 then
      if bit v 63 then
        let c := bits v 62 60
        if c = 1 then some .ovlCmdLoad else if c = 2 then some .invalCard else if c = 3 then some .invalPid else none
      else none
    else if 0x04000000 ≤ o ∧ o < 0x04100000 then
      (if 0x1000 ≤ o % 0x20000 ∧ o % 0x20 = 0 then some .sluCfgWrite else none)
    else if o = 0x05020008 then
      if src = .gov then
        let c := bits v 63 62
        if c = 1 then some .adopt else if c = 2 then some .handback else none
      else none
    else if 0x05020100 ≤ o ∧ o < 0x05020900 ∧ o % 0x40 = 0 then
      (if bit v 63 then some .mqEnable else none)
    else if 0x05020100 ≤ o ∧ o < 0x05020900 ∧ o % 0x40 = 0x20 then
      let c := bits v 1 0
      if c = 1 then some .mqSkip else if c = 2 then some .mqRetry else if c = 3 then some .mqStop else none
    else none
  else none

/-- The row of a register write: that of its first part that has one, else REGISTER_WRITE. -/
def decodeBus (b : BusWrite) : Instr :=
  match (busParts b).findSome? (partRow b.src) with
  | some r => r b
  | none => .registerWrite b

/-- Where words come from decides what they are (R309, R135, R382, R215). -/
inductive Enc
  | header (x : DWord)
  | vision (x : DWord)
  | tile (x : DWord)
  | packet (p : Rec64)
  | command (p : Rec64)
  | bus (b : BusWrite)
  deriving DecidableEq, Repr

def decode : Enc → Except DecodeErr Instr
  | .header x => .ok (.clauseBegin x)
  | .vision x => decodeVision x
  | .tile x => decodeTile x
  | .packet p => decodePacket p
  | .command p => decodeCommand p
  | .bus b => .ok (decodeBus b)

/-- A record of 64 bytes as eight little-endian words. -/
def rec64 (f : Nat → DWord) : Rec64 :=
  { w0 := f 0, w1 := f 1, w2 := f 2, w3 := f 3, w4 := f 4, w5 := f 5, w6 := f 6, w7 := f 7 }

def Rec64.words (p : Rec64) : List DWord := [p.w0, p.w1, p.w2, p.w3, p.w4, p.w5, p.w6, p.w7]

/-- The instruction whose bits are w, numbered from the least significant bit of its first word: up to 48 bits a
tile word, up to 64 a vision word or, where its SIG says so, a clause header, and above that a packet. -/
def decodeTableWord (nbits w : Nat) : Option Instr :=
  let x : DWord := BitVec.ofNat 64 w
  if nbits ≤ 48 then (decodeTile x).toOption
  else if nbits ≤ 64 then
    (if hdrSig x = 0xC1 then some (.clauseBegin x) else (decodeVision x).toOption)
  else (decodePacket (rec64 fun k => BitVec.ofNat 64 (w >>> (64 * k)))).toOption

/-! ## The encoder -/

/-- The encoding of an instruction; an event of the hardware has none. -/
def encode : Instr → Option Enc
  | .powerOnReset => none
  | .bootTmo => none
  | .lockstepMismatch => none
  | .linkRetrainFail => none
  | .thermTrip => none
  | .debugUnlock => none
  | .pcieInboundRead => none
  | .registerWrite b => some (.bus b)
  | .dtuLoadWrite b => some (.bus b)
  | .dtuAdjWrite b => some (.bus b)
  | .dtuCorrection => none
  | .ppsInEdge => none
  | .ppsOutPulse => none
  | .leaseCfgWrite b => some (.bus b)
  | .homeReadFill => none
  | .rdcFill => none
  | .homeStore => none
  | .homeReduction => none
  | .ownerRecallComplete => none
  | .engineLineRelease => none
  | .serviceCoreExclRequest => none
  | .serviceCoreExclGrant => none
  | .shootPage b => some (.bus b)
  | .shootAsid b => some (.bus b)
  | .shootAll b => some (.bus b)
  | .shootComplete => none
  | .requestDrop => none
  | .completionArrival => none
  | .streamBurst => none
  | .frameStart => none
  | .frameEnd => none
  | .frameRecordIssue => none
  | .leatEnqueue => none
  | .leatDequeuePlain => none
  | .leatDequeuePacket => none
  | .leatReserve => none
  | .leatDone => none
  | .qctlInit => none
  | .qctlDrain => none
  | .qctlClose => none
  | .qctlReopen => none
  | .qctlRepair => none
  | .qctlQuery => none
  | .publishNotify => none
  | .offerAnswer => none
  | .offerTimeout => none
  | .waiterRemoval => none
  | .waiterReissue => none
  | .releaseEndReeval => none
  | .lqEnq b => some (.bus b)
  | .lqDeq b => some (.bus b)
  | .lqResv b => some (.bus b)
  | .lqDone b => some (.bus b)
  | .lqInit b => some (.bus b)
  | .lqDrain b => some (.bus b)
  | .lqClose b => some (.bus b)
  | .lqReopen b => some (.bus b)
  | .lqRepair b => some (.bus b)
  | .lqQuery b => some (.bus b)
  | .mqEnable b => some (.bus b)
  | .mqSkip b => some (.bus b)
  | .mqRetry b => some (.bus b)
  | .mqStop b => some (.bus b)
  | .qpPacketFetch => none
  | .pktNop p => some (.packet p)
  | .launch p => some (.packet p)
  | .wait p => some (.packet p)
  | .waitNotify => none
  | .waitPoll => none
  | .waitTimeout => none
  | .pred p => some (.packet p)
  | .trigger p => some (.packet p)
  | .signalStore p => some (.packet p)
  | .signalAdd p => some (.packet p)
  | .signalEnq p => some (.packet p)
  | .signalIntr p => some (.packet p)
  | .qpBlockedResume => none
  | .adopt b => some (.bus b)
  | .adoptStartThreads => none
  | .handback b => some (.bus b)
  | .handbackResume => none
  | .graphValidate b => some (.bus b)
  | .graphTrigger b => some (.bus b)
  | .graphNodeComplete => none
  | .ddxReleaseRequest => none
  | .periodicRelease => none
  | .jobCardWrite b => some (.bus b)
  | .activate b => some (.bus b)
  | .retire b => some (.bus b)
  | .ddxResume b => some (.bus b)
  | .ddxKill b => some (.bus b)
  | .dispatch => none
  | .preemptSaveComplete => none
  | .cardWorkDone => none
  | .deadlineMiss => none
  | .thermalStep => none
  | .opChangeDone => none
  | .sluCfgWrite b => some (.bus b)
  | .sluiceWindow => none
  | .sluiceOverrunReport => none
  | .teamPlace => none
  | .steal => none
  | .stealRetry => none
  | .contRecordRead => none
  | .binTimeout => none
  | .contWarpPlace => none
  | .teamNodeForward => none
  | .teamBarrierRelease => none
  | .blockBarrierRelease => none
  | .phaseBarrierRecheck => none
  | .clauseBegin x => some (.header x)
  | .longLatencyComplete => none
  | .fenceWaitEnd => none
  | .sleepExpiry => none
  | .visionPreempt => none
  | .ordboundExpiry => none
  | .visionRestore => none
  | .overlayLoadDone => none
  | .overlayLoadFail => none
  | .placeTimeout => none
  | .istoreRefetch => none
  | .ovlCmdLoad b => some (.bus b)
  | .invalCard b => some (.bus b)
  | .invalPid b => some (.bus b)
  | .iadd w => some (.vision (vPack 0x000 w))
  | .isub w => some (.vision (vPack 0x001 w))
  | .imul w => some (.vision (vPack 0x002 w))
  | .imulhi w => some (.vision (vPack 0x003 w))
  | .imad w => some (.vision (vPack 0x004 w))
  | .imin w => some (.vision (vPack 0x005 w))
  | .imax w => some (.vision (vPack 0x006 w))
  | .iabs w => some (.vision (vPack 0x007 w))
  | .ineg w => some (.vision (vPack 0x008 w))
  | .lea w => some (.vision (vPack 0x009 w))
  | .icmp w => some (.vision (vPack 0x00A w))
  | .sel w => some (.vision (vPack 0x00B w))
  | .and w => some (.vision (vPack 0x020 w))
  | .or w => some (.vision (vPack 0x021 w))
  | .xor w => some (.vision (vPack 0x022 w))
  | .not w => some (.vision (vPack 0x023 w))
  | .shl w => some (.vision (vPack 0x024 w))
  | .shr w => some (.vision (vPack 0x025 w))
  | .rot w => some (.vision (vPack 0x026 w))
  | .bfe w => some (.vision (vPack 0x027 w))
  | .bfi w => some (.vision (vPack 0x028 w))
  | .popc w => some (.vision (vPack 0x029 w))
  | .clz w => some (.vision (vPack 0x02A w))
  | .brev w => some (.vision (vPack 0x02B w))
  | .fadd w => some (.vision (vPack 0x040 w))
  | .fsub w => some (.vision (vPack 0x041 w))
  | .fmul w => some (.vision (vPack 0x042 w))
  | .ffma w => some (.vision (vPack 0x043 w))
  | .fmin w => some (.vision (vPack 0x044 w))
  | .fmax w => some (.vision (vPack 0x045 w))
  | .fcmp w => some (.vision (vPack 0x046 w))
  | .fclass w => some (.vision (vPack 0x047 w))
  | .frcp w => some (.vision (vPack 0x048 w))
  | .frsq w => some (.vision (vPack 0x049 w))
  | .fsqrt w => some (.vision (vPack 0x04A w))
  | .fexp2 w => some (.vision (vPack 0x04B w))
  | .flog2 w => some (.vision (vPack 0x04C w))
  | .fsin w => some (.vision (vPack 0x04D w))
  | .fcos w => some (.vision (vPack 0x04E w))
  | .cvt w => some (.vision (vPack 0x060 w))
  | .pack w => some (.vision (vPack 0x061 w))
  | .unpack w => some (.vision (vPack 0x062 w))
  | .dp4 w => some (.vision (vPack 0x063 w))
  | .dp8 w => some (.vision (vPack 0x064 w))
  | .bsel w => some (.vision (vPack 0x065 w))
  | .mov w => some (.vision (vPack 0x066 w))
  | .pcomb w => some (.vision (vPack 0x067 w))
  | .psave w => some (.vision (vPack 0x068 w))
  | .pload w => some (.vision (vPack 0x069 w))
  | .qxch w => some (.vision (vPack 0x080 w))
  | .lpick w => some (.vision (vPack 0x081 w))
  | .vote w => some (.vision (vPack 0x082 w))
  | .scan w => some (.vision (vPack 0x083 w))
  | .red w => some (.vision (vPack 0x084 w))
  | .lsame w => some (.vision (vPack 0x085 w))
  | .lfirst w => some (.vision (vPack 0x086 w))
  | .bra w => some (.vision (vPack 0x0A0 w))
  | .brx w => some (.vision (vPack 0x0A1 w))
  | .call w => some (.vision (vPack 0x0A2 w))
  | .ret w => some (.vision (vPack 0x0A3 w))
  | .ocall w => some (.vision (vPack 0x0A4 w))
  | .conv w => some (.vision (vPack 0x0A5 w))
  | .exit w => some (.vision (vPack 0x0A6 w))
  | .sleep w => some (.vision (vPack 0x0A7 w))
  | .waitf w => some (.vision (vPack 0x0A8 w))
  | .nop w => some (.vision (vPack 0x0A9 w))
  | .ovld w => some (.vision (vPack 0x0C0 w))
  | .ovqry w => some (.vision (vPack 0x0C1 w))
  | .ovrel w => some (.vision (vPack 0x0C2 w))
  | .rdsr w => some (.vision (vPack 0x0C3 w))
  | .wrsr w => some (.vision (vPack 0x0C4 w))
  | .trap w => some (.vision (vPack 0x0C5 w))
  | .bkpt w => some (.vision (vPack 0x0C6 w))
  | .svc w => some (.vision (vPack 0x0C7 w))
  | .ld w => some (.vision (vPack 0x100 w))
  | .st w => some (.vision (vPack 0x101 w))
  | .cpa w => some (.vision (vPack 0x102 w))
  | .atomAdd w => some (.vision (vPack 0x110 w))
  | .atomMin w => some (.vision (vPack 0x111 w))
  | .atomMax w => some (.vision (vPack 0x112 w))
  | .atomAnd w => some (.vision (vPack 0x113 w))
  | .atomOr w => some (.vision (vPack 0x114 w))
  | .atomXor w => some (.vision (vPack 0x115 w))
  | .atomExch w => some (.vision (vPack 0x116 w))
  | .atomCas w => some (.vision (vPack 0x117 w))
  | .atomFadd w => some (.vision (vPack 0x118 w))
  | .fredAdd w => some (.vision (vPack 0x119 w))
  | .fredMin w => some (.vision (vPack 0x11A w))
  | .fredMax w => some (.vision (vPack 0x11B w))
  | .fredAnd w => some (.vision (vPack 0x11C w))
  | .fredOr w => some (.vision (vPack 0x11D w))
  | .fredXor w => some (.vision (vPack 0x11E w))
  | .fredFadd w => some (.vision (vPack 0x11F w))
  | .fence w => some (.vision (vPack 0x120 w))
  | .bar w => some (.vision (vPack 0x121 w))
  | .pbinit w => some (.vision (vPack 0x122 w))
  | .pbarr w => some (.vision (vPack 0x123 w))
  | .pbwait w => some (.vision (vPack 0x124 w))
  | .tbar w => some (.vision (vPack 0x125 w))
  | .qenq w => some (.vision (vPack 0x140 w))
  | .qdeq w => some (.vision (vPack 0x141 w))
  | .qres w => some (.vision (vPack 0x142 w))
  | .qdone w => some (.vision (vPack 0x143 w))
  | .qctl w => some (.vision (vPack 0x144 w))
  | .cres w => some (.vision (vPack 0x148 w))
  | .cpost w => some (.vision (vPack 0x149 w))
  | .ordin w => some (.vision (vPack 0x160 w))
  | .ordout w => some (.vision (vPack 0x161 w))
  | .tileDispatch => none
  | .wordRetire => none
  | .ckptMeet => none
  | .tileSaveComplete => none
  | .tileRestore => none
  | .ckspanExpiry => none
  | .knop w => some (.tile (tPack 0x00 w))
  | .kadd w => some (.tile (tPack 0x01 w))
  | .ksub w => some (.tile (tPack 0x02 w))
  | .kmul w => some (.tile (tPack 0x03 w))
  | .kand w => some (.tile (tPack 0x04 w))
  | .kor w => some (.tile (tPack 0x05 w))
  | .kxor w => some (.tile (tPack 0x06 w))
  | .kshl w => some (.tile (tPack 0x07 w))
  | .kshr w => some (.tile (tPack 0x08 w))
  | .ksra w => some (.tile (tPack 0x09 w))
  | .kmin w => some (.tile (tPack 0x0A w))
  | .kmax w => some (.tile (tPack 0x0B w))
  | .kpack w => some (.tile (tPack 0x0F w))
  | .kaddi w => some (.tile (tPack 0x0C w))
  | .kli w => some (.tile (tPack 0x0D w))
  | .klis w => some (.tile (tPack 0x0E w))
  | .kbeq w => some (.tile (tPack 0x10 w))
  | .kbne w => some (.tile (tPack 0x11 w))
  | .kblt w => some (.tile (tPack 0x12 w))
  | .kbge w => some (.tile (tPack 0x13 w))
  | .kbltu w => some (.tile (tPack 0x14 w))
  | .kbgeu w => some (.tile (tPack 0x15 w))
  | .kjmp w => some (.tile (tPack 0x16 w))
  | .kloop w => some (.tile (tPack 0x17 w))
  | .kocall w => some (.tile (tPack 0x18 w))
  | .kret w => some (.tile (tPack 0x19 w))
  | .ktime w => some (.tile (tPack 0x1A w))
  | .kwch w => some (.tile (tPack 0x1B w))
  | .kld w => some (.tile (tPack 0x1C w))
  | .tbind w => some (.tile (tPack 0x20 w))
  | .tunbind w => some (.tile (tPack 0x21 w))
  | .ldw w => some (.tile (tPack 0x22 w))
  | .ldr w => some (.tile (tPack 0x23 w))
  | .lpf w => some (.tile (tPack 0x24 w))
  | .xmmI8 w => some (.tile (tPack 0x30 w))
  | .xmmI4 w => some (.tile (tPack 0x31 w))
  | .xmmBf16 w => some (.tile (tPack 0x32 w))
  | .xmmFp16 w => some (.tile (tPack 0x33 w))
  | .xmmbI8 w => some (.tile (tPack 0x34 w))
  | .xmmbI4 w => some (.tile (tPack 0x35 w))
  | .vclr w => some (.tile (tPack 0x40 w))
  | .vmov w => some (.tile (tPack 0x41 w))
  | .vadd w => some (.tile (tPack 0x42 w))
  | .vsub w => some (.tile (tPack 0x43 w))
  | .vmul w => some (.tile (tPack 0x44 w))
  | .vmax w => some (.tile (tPack 0x45 w))
  | .vmin w => some (.tile (tPack 0x46 w))
  | .vscl w => some (.tile (tPack 0x47 w))
  | .vbadd w => some (.tile (tPack 0x48 w))
  | .vflclr w => some (.tile (tPack 0x52 w))
  | .viadd w => some (.tile (tPack 0x49 w))
  | .viadds w => some (.tile (tPack 0x4A w))
  | .vishr w => some (.tile (tPack 0x4B w))
  | .vcvti w => some (.tile (tPack 0x4C w))
  | .vcvtf w => some (.tile (tPack 0x4D w))
  | .vcvth w => some (.tile (tPack 0x50 w))
  | .vcvtb w => some (.tile (tPack 0x51 w))
  | .vqnt8 w => some (.tile (tPack 0x4E w))
  | .vqnt4 w => some (.tile (tPack 0x4F w))
  | .sst w => some (.tile (tPack 0x60 w))
  | .sredi w => some (.tile (tPack 0x61 w))
  | .sredf w => some (.tile (tPack 0x62 w))
  | .sqsig w => some (.tile (tPack 0x63 w))
  | .tfence w => some (.tile (tPack 0x70 w))
  | .ttok w => some (.tile (tPack 0x71 w))
  | .tnop w => some (.tile (tPack 0x72 w))
  | .ckpt w => some (.tile (tPack 0x78 w))
  | .tend w => some (.tile (tPack 0x79 w))
  | .tsync w => some (.tile (tPack 0x7A w))
  | .pceReleaseStart => none
  | .pclr p => some (.command p)
  | .pfill p => some (.command p)
  | .prsv p => some (.command p)
  | .pceCommandComplete => none
  | .pceSpawn => none
  | .spawnedWarpPlace => none
  | .pceStop => none
  | .trapDeliver => none
  | .trapResend => none
  | .ctxResume b => some (.bus b)
  | .ctxResumeAt b => some (.bus b)
  | .ctxKill b => some (.bus b)
  | .ctxSkip b => some (.bus b)
  | .govAssign b => some (.bus b)
  | .merge b => some (.bus b)
  | .split b => some (.bus b)
  | .restartPid b => some (.bus b)
  | .restartCtl b => some (.bus b)
  | .govSnapshot b => some (.bus b)
  | .bootOk b => some (.bus b)
  | .restartDevice b => some (.bus b)
  | .govSnapTWrite b => some (.bus b)
  | .snapshotLatch => none
  | .ddxSilence => none
  | .qpHbSample => none
  | .distributorSilence => none
  | .skewReport => none
  | .serviceHbPeriod => none
  | .governorReport => none
  | .ozashLinkDown => none
  | .ozashLinkRetrained => none
  | .flitReplay => none
  | .powerLoss => none
  | .dieTemperatureChange => none
  | .governorWarmRestartDone => none
  | .qpRestartComplete => none
  | .rehomeHorizonReached => none

end Sys2Proof
end

