-- ==== Sys2Proof/Machine/Num.lean ====
section
/-! DEFINITION. Number formats and exact arithmetic (R37 to R57): decoding, rounding, conversions and the
correctly rounded special functions. Flags are a number: 1 INV, 2 OVF, 4 UNF, 8 INX, 16 SAT (R49). -/

namespace Sys2Proof

/-- A binary floating-point format (R39): exponent and fraction widths. -/
structure Fmt where
  eb : Nat
  fb : Nat
  deriving DecidableEq, Repr

def Fmt.fp16 : Fmt := { eb := 5, fb := 10 }
def Fmt.bf16 : Fmt := { eb := 8, fb := 7 }
def Fmt.fp32 : Fmt := { eb := 8, fb := 23 }
def Fmt.a40 : Fmt := { eb := 8, fb := 31 }

def Fmt.bias (f : Fmt) : Nat := 2 ^ (f.eb - 1) - 1
def Fmt.emax (f : Fmt) : Nat := 2 ^ f.eb - 1
def Fmt.signBit (f : Fmt) : Nat := 2 ^ (f.eb + f.fb)
def Fmt.infBits (f : Fmt) : Nat := f.emax * 2 ^ f.fb
/-- The canonical NaN (R41, R42). -/
def Fmt.nan (f : Fmt) : Nat := f.infBits + 2 ^ (f.fb - 1)
def Fmt.maxFin (f : Fmt) : Nat := f.infBits - 1
def Fmt.withSign (f : Fmt) (neg : Bool) (b : Nat) : Nat := if neg then f.signBit + b else b

/-- A decoded value (R40): a NaN, an infinity, or the exact number m * 2^e with its sign. -/
inductive FVal
  | nan (signalling : Bool)
  | inf (neg : Bool)
  | fin (neg : Bool) (m : Nat) (e : Int)
  deriving DecidableEq, Repr

def Fmt.decode (f : Fmt) (x : Nat) : FVal :=
  let neg := x.testBit (f.eb + f.fb)
  let e := (x >>> f.fb) % 2 ^ f.eb
  let m := x % 2 ^ f.fb
  if e = f.emax then
    if m = 0 then .inf neg else .nan (decide (f.fb ≠ 31) && !(m.testBit (f.fb - 1)))
  else if e = 0 then .fin neg m (1 - (f.bias : Int) - f.fb)
  else .fin neg (m + 2 ^ f.fb) ((e : Int) - f.bias - f.fb)

/-- Rounding modes (R47). -/
inductive RMode
  | rne | rtz | rdn | rup
  deriving DecidableEq, Repr

def RMode.ofBits (n : Nat) : RMode :=
  if n % 4 = 0 then .rne else if n % 4 = 1 then .rtz else if n % 4 = 2 then .rdn else .rup

/-- Whether the quotient q, remainder r of divisor d rounds away from zero. -/
def RMode.up (m : RMode) (neg : Bool) (q r d : Nat) : Bool :=
  match m with
  | .rne => decide (d < 2 * r) || (decide (2 * r = d) && decide (q % 2 = 1))
  | .rtz => false
  | .rdn => neg && decide (r ≠ 0)
  | .rup => !neg && decide (r ≠ 0)

/-- num / den * 2^e as a quotient and remainder over a divisor. -/
def scaleQ (num den : Nat) (e : Int) : Nat × Nat × Nat :=
  let n := if 0 ≤ e then num * 2 ^ e.toNat else num
  let d := if 0 ≤ e then den else den * 2 ^ (-e).toNat
  (n / d, n % d, d)

/-- floor (log2 (num / den * 2^e)) for num, den > 0. -/
def ilog (num den : Nat) (e : Int) : Int :=
  let k : Int := (Nat.log2 num : Int) - Nat.log2 den
  let below := if 0 ≤ k then decide (num < den * 2 ^ k.toNat) else decide (num * 2 ^ (-k).toNat < den)
  (if below then k - 1 else k) + e

/-- Overflow by mode (R48). -/
def Fmt.overflow (f : Fmt) (m : RMode) (neg : Bool) : Nat :=
  match m with
  | .rne => f.withSign neg f.infBits
  | .rtz => f.withSign neg f.maxFin
  | .rdn => if neg then f.withSign true f.infBits else f.maxFin
  | .rup => if neg then f.withSign true f.maxFin else f.infBits

/-- Round(x, F, m) of R48 for x = (-1)^neg * num / den * 2^e: the bits and the flags. -/
def Fmt.round (f : Fmt) (m : RMode) (neg : Bool) (num den : Nat) (e : Int) : Nat × Nat :=
  if num = 0 then (f.withSign neg 0, 0)
  else
    let emin : Int := 1 - (f.bias : Int)
    let k := ilog num den e
    let u : Int := (if k < emin then emin else k) - f.fb
    let (q, r, d) := scaleQ num den (e - u)
    let q := if m.up neg q r d then q + 1 else q
    let carry := decide (q = 2 ^ (f.fb + 1))
    let q := if carry then 2 ^ f.fb else q
    let u := if carry then u + 1 else u
    let inx := if r = 0 then 0 else 8
    let unf := if k < emin ∧ r ≠ 0 then 4 else 0
    if q < 2 ^ f.fb then (f.withSign neg q, inx + unf)
    else
      let ef := u + f.fb + f.bias
      if (f.emax : Int) ≤ ef then (f.overflow m neg, 10)
      else (f.withSign neg (ef.toNat * 2 ^ f.fb + (q - 2 ^ f.fb)), inx + unf)

/-- The integer (-1)^neg * m scaled by 2^(e - e0), for e ≥ e0. -/
def scaled (neg : Bool) (m : Nat) (e e0 : Int) : Int :=
  let v : Int := ((m * 2 ^ (e - e0).toNat : Nat) : Int)
  if neg then -v else v

/-- Round the exact number v * 2^e, an exact zero taking the sign that R48 gives a sum of the signs given. -/
def Fmt.roundInt (f : Fmt) (m : RMode) (zeroNeg : Bool) (v : Int) (e : Int) : Nat × Nat :=
  if v = 0 then (f.withSign zeroNeg 0, 0) else f.round m (decide (v < 0)) v.natAbs 1 e

/-- Sign of an exact zero sum of terms of signs n1 and n2 (R48). -/
def zeroSign (m : RMode) (n1 n2 : Bool) : Bool :=
  if n1 = n2 then n1 else decide (m = .rdn)

/-- The exact sum of two decoded values rounded into F, under the rules of R249. -/
def Fmt.addVals (f : Fmt) (m : RMode) (x y : FVal) : Nat × Nat :=
  match x, y with
  | .nan a, .nan b => (f.nan, if a || b then 1 else 0)
  | .nan a, _ => (f.nan, if a then 1 else 0)
  | _, .nan b => (f.nan, if b then 1 else 0)
  | .inf a, .inf b => if a = b then (f.withSign a f.infBits, 0) else (f.nan, 1)
  | .inf a, .fin _ _ _ => (f.withSign a f.infBits, 0)
  | .fin _ _ _, .inf b => (f.withSign b f.infBits, 0)
  | .fin a ma ea, .fin b mb eb =>
    let e0 := if ea < eb then ea else eb
    let v := scaled a ma ea e0 + scaled b mb eb e0
    f.roundInt m (if ma = 0 ∧ mb = 0 then zeroSign m a b else decide (m = .rdn)) v e0

/-- The exact product of two decoded values, with its invalid flag. -/
def mulVals (x y : FVal) : FVal × Nat :=
  match x, y with
  | .nan a, .nan b => (.nan false, if a || b then 1 else 0)
  | .nan a, _ => (.nan false, if a then 1 else 0)
  | _, .nan b => (.nan false, if b then 1 else 0)
  | .inf a, .inf b => (.inf (a != b), 0)
  | .inf a, .fin b m _ => if m = 0 then (.nan false, 1) else (.inf (a != b), 0)
  | .fin a m _, .inf b => if m = 0 then (.nan false, 1) else (.inf (a != b), 0)
  | .fin a ma ea, .fin b mb eb => (.fin (a != b) (ma * mb) (ea + eb), 0)

/-- Round a decoded value into F: an exact conversion where F holds it (R51), with the NaN rule of R42. -/
def Fmt.ofVal (f : Fmt) (m : RMode) (x : FVal) : Nat × Nat :=
  match x with
  | .nan a => (f.nan, if a then 1 else 0)
  | .inf a => (f.withSign a f.infBits, 0)
  | .fin a ma ea => f.round m a ma 1 ea

def Fmt.add (f : Fmt) (m : RMode) (a b : Nat) : Nat × Nat := f.addVals m (f.decode a) (f.decode b)

def Fmt.mul (f : Fmt) (m : RMode) (a b : Nat) : Nat × Nat :=
  let (p, fl) := mulVals (f.decode a) (f.decode b)
  let (r, fr) := f.ofVal m p
  (r, fl ||| fr)

/-- a * b + c with one rounding (R249). -/
def Fmt.fma (f : Fmt) (m : RMode) (a b c : Nat) : Nat × Nat :=
  let (p, fl) := mulVals (f.decode a) (f.decode b)
  let (r, fr) := f.addVals m p (f.decode c)
  (r, fl ||| fr)

/-- Flip the sign bit (the negation bits of R249). -/
def Fmt.neg (f : Fmt) (neg : Bool) (a : Nat) : Nat := if neg then a ^^^ f.signBit else a

/-- Order of two finite or infinite values: -1, 0 or 1; zeros of both signs equal. -/
def cmpVals (x y : FVal) : Int :=
  match x, y with
  | .inf a, .inf b => if a = b then 0 else if a then -1 else 1
  | .inf a, _ => if a then -1 else 1
  | _, .inf b => if b then 1 else -1
  | .fin a ma ea, .fin b mb eb =>
    let e0 := if ea < eb then ea else eb
    let d := scaled a ma ea e0 - scaled b mb eb e0
    if d < 0 then -1 else if 0 < d then 1 else 0
  | _, _ => 0

def FVal.isNan : FVal → Bool
  | .nan _ => true
  | _ => false

def FVal.isSnan : FVal → Bool
  | .nan s => s
  | _ => false

/-- FMIN and FMAX (R250); `max` selects the larger. -/
def Fmt.minMax (f : Fmt) (max : Bool) (a b : Nat) : Nat × Nat :=
  let x := f.decode a
  let y := f.decode b
  let fl := if x.isSnan || y.isSnan then 1 else 0
  if x.isNan && y.isNan then (f.nan, fl)
  else if x.isNan then (b, fl)
  else if y.isNan then (a, fl)
  else
    let c := cmpVals x y
    let aLess := decide (c < 0) || (decide (c = 0) && a.testBit (f.eb + f.fb) && !(b.testBit (f.eb + f.fb)))
    ((if aLess != max then a else b), fl)

/-- FCMP by SUB (R251): the bit and the flags. -/
def fcmp (sub : Nat) (a b : Nat) : Bool × Nat :=
  let x := Fmt.fp32.decode a
  let y := Fmt.fp32.decode b
  let un := x.isNan || y.isNan
  let c := cmpVals x y
  let inv := if 2 ≤ sub ∧ sub ≤ 5 then un else (x.isSnan || y.isSnan)
  let r :=
    if sub = 0 then !un && decide (c = 0)
    else if sub = 1 then un || decide (c ≠ 0)
    else if sub = 2 then !un && decide (c < 0)
    else if sub = 3 then !un && decide (c ≤ 0)
    else if sub = 4 then !un && decide (0 < c)
    else if sub = 5 then !un && decide (0 ≤ c)
    else if sub = 6 then un
    else !un
  (r, if inv then 1 else 0)

/-- FCLASS (R252). -/
def fclass (a : Nat) : Nat :=
  let neg := a.testBit 31
  match Fmt.fp32.decode a with
  | .inf true => 1
  | .inf false => 128
  | .nan true => 256
  | .nan false => 512
  | .fin _ m _ =>
    if m = 0 then if neg then 8 else 16
    else if m < 2 ^ 23 then if neg then 4 else 32
    else if neg then 2 else 64

/-- Floor of the square root of n below 2^(2b), bit by bit. -/
def isqrtAux (n : Nat) : Nat → Nat → Nat
  | 0, r => r
  | b + 1, r =>
    let t := r + 2 ^ b
    isqrtAux n b (if t * t ≤ n then t else r)

def isqrt (n : Nat) : Nat := isqrtAux n (Nat.log2 n / 2 + 1) 0

/-- FRCP (R253). -/
def frcp (a : Nat) : Nat × Nat :=
  let f := Fmt.fp32
  match f.decode a with
  | .nan s => (f.nan, if s then 1 else 0)
  | .inf n => (f.withSign n 0, 0)
  | .fin n m e => if m = 0 then (f.withSign n f.infBits, 0) else f.round .rne n 1 m (-e)

/-- FSQRT (R253). -/
def fsqrt (rm : RMode) (a : Nat) : Nat × Nat :=
  let f := Fmt.fp32
  match f.decode a with
  | .nan s => (f.nan, if s then 1 else 0)
  | .inf n => if n then (f.nan, 1) else (f.infBits, 0)
  | .fin n m e =>
    if m = 0 then (f.withSign n 0, 0)
    else if n then (f.nan, 1)
    else
      let odd := decide (e % 2 ≠ 0)
      let m2 := (if odd then 2 * m else m) * 2 ^ 80
      let e2 := ((if odd then e - 1 else e) - 80) / 2
      let r := isqrt m2
      f.round rm false (2 * r + if r * r = m2 then 0 else 1) 1 (e2 - 1)

/-- FRSQ (R253). -/
def frsq (a : Nat) : Nat × Nat :=
  let f := Fmt.fp32
  match f.decode a with
  | .nan s => (f.nan, if s then 1 else 0)
  | .inf n => if n then (f.nan, 1) else (0, 0)
  | .fin n m e =>
    if m = 0 then (f.withSign n f.infBits, 0)
    else if n then (f.nan, 1)
    else
      let odd := decide (e % 2 ≠ 0)
      let m2 := if odd then 2 * m else m
      let e2 := (if odd then e - 1 else e) / 2
      let r := isqrt (2 ^ 160 / m2)
      f.round .rne false (2 * r + if r * r * m2 = 2 ^ 160 then 0 else 1) 1 (-e2 - 81)

/-! ### Special functions by series in fixed point of 420 fraction bits

The working error is below 2^-400; every inexact result of FEXP2, FLOG2, FSIN and FCOS is a number whose
expansion does not end, so one more bit below the working precision is set before the one rounding. -/

def fxBits : Nat := 420
def fxOne : Nat := 2 ^ fxBits
def fxPi : Nat := 8506444083868174897761245044461686771323923700309573190120836733458428361833437461212585903707197869053776263619362240579410812
def fxLn2 : Nat := 1876824395609227333012827928779323266191743313097702438946411434594075065122341625559620327432671006135712522364620446458635100
def fxMul (a b : Nat) : Nat := a * b / fxOne

/-- Sum of a^n / n! for n from 0, the terms formed one from the other. -/
def fxExp (a : Nat) : Nat :=
  ((List.range 110).foldl (fun st i => (st.1 + st.2, fxMul st.2 a / (i + 1))) (0, fxOne)).1

/-- sin a for a in fixed point up to pi/2. -/
def fxSin (a : Nat) : Nat :=
  let a2 := fxMul a a
  let st := (List.range 70).foldl
    (fun (st : Int × Nat) i =>
      (st.1 + (if i % 2 = 0 then (st.2 : Int) else -(st.2 : Int)), fxMul st.2 a2 / ((2 * i + 2) * (2 * i + 3))))
    ((0 : Int), a)
  st.1.toNat

/-- log2 y for y in [1, 2), y in fixed point: 2 atanh((y - 1) / (y + 1)) / ln 2. -/
def fxLog2 (y : Nat) : Nat :=
  let z := (y - fxOne) * fxOne / (y + fxOne)
  let z2 := fxMul z z
  let s := ((List.range 140).foldl (fun st i => (st.1 + st.2 / (2 * i + 1), fxMul st.2 z2)) (0, z)).1
  2 * s * fxOne / fxLn2

/-- FEXP2 (R253). -/
def fexp2 (a : Nat) : Nat × Nat :=
  let f := Fmt.fp32
  match f.decode a with
  | .nan s => (f.nan, if s then 1 else 0)
  | .inf n => if n then (0, 0) else (f.infBits, 0)
  | .fin n m e =>
    if m = 0 then (0x3F800000, 0)
    else if decide (8 ≤ ilog m 1 e) then
      if n then (0, 12) else (f.infBits, 10)
    else
      let v : Int := scaled n m (e + 200) 0
      let k : Int := v / ((2 ^ 200 : Nat) : Int)
      let fr : Nat := (v % ((2 ^ 200 : Nat) : Int)).toNat
      if fr = 0 then f.round .rne false 1 1 k
      else f.round .rne false (2 * fxExp (fxMul (fr * 2 ^ 220) fxLn2) + 1) 1 (k - 421)

/-- FLOG2 (R253). -/
def flog2 (a : Nat) : Nat × Nat :=
  let f := Fmt.fp32
  match f.decode a with
  | .nan s => (f.nan, if s then 1 else 0)
  | .inf n => if n then (f.nan, 1) else (f.infBits, 0)
  | .fin n m e =>
    if m = 0 then (f.withSign true f.infBits, 0)
    else if n then (f.nan, 1)
    else
      let l := Nat.log2 m
      let k : Int := e + l
      if m = 2 ^ l then f.round .rne (decide (k < 0)) k.natAbs 1 0
      else
        let g : Int := k * ((fxOne : Nat) : Int) + fxLog2 (m * fxOne / 2 ^ l)
        f.round .rne (decide (g < 0)) (2 * g.natAbs + 1) 1 (-421)

/-- sin(2 pi t), t a fraction of a turn in fixed point below fxOne: sign, magnitude, and whether it is exact. -/
def fxTurn (t : Nat) : Bool × Nat × Bool :=
  let q := 4 * t / fxOne
  let u := 4 * t % fxOne
  let w := if q % 2 = 0 then u else fxOne - u
  let neg := decide (2 ≤ q)
  if w = 0 then (false, 0, true)
  else if w = fxOne then (neg, fxOne, true)
  else (neg, fxSin (fxMul fxPi w / 2), false)

/-- FSIN and FCOS (R253); `quarter` adds a quarter of a turn. -/
def fsincos (quarter : Bool) (a : Nat) : Nat × Nat :=
  let f := Fmt.fp32
  match f.decode a with
  | .nan s => (f.nan, if s then 1 else 0)
  | .inf _ => (f.nan, 1)
  | .fin n m e =>
    if m = 0 ∧ quarter = false then (f.withSign n 0, 0)
    else
      let v : Int := scaled n m (e + fxBits) 0
      let t := ((v + (if quarter then ((fxOne / 4 : Nat) : Int) else 0)) % ((fxOne : Nat) : Int)).toNat
      let (neg, mag, ex) := fxTurn t
      if ex then f.round .rne neg mag fxOne 0 else f.round .rne neg (2 * mag + 1) 1 (-421)

/-! ### Conversions (R51, R52) -/

/-- Round(x to an integer, m), and whether it was inexact. -/
def roundToInt (m : RMode) (neg : Bool) (mant : Nat) (e : Int) : Int × Bool :=
  let (q, r, d) := scaleQ mant 1 e
  let q := if m.up neg q r d then q + 1 else q
  ((if neg then -(q : Int) else (q : Int)), decide (r ≠ 0))

/-- Clamp to n bits, signed or unsigned. -/
def satN (signed : Bool) (x : Int) (n : Nat) : Int × Bool := if signed then satS x n else satU x n

/-- A floating value to an n-bit integer (R51). -/
def FVal.toInt (m : RMode) (signed : Bool) (n : Nat) (x : FVal) : Nat × Nat :=
  match x with
  | .nan _ => (0, 1)
  | .inf neg =>
    let big : Int := ((2 ^ 40 : Nat) : Int)
    (narrow (satN signed (if neg then -big else big) n).1 n, 16)
  | .fin neg mant e =>
    let (v, inx) := roundToInt m neg mant e
    let (w, sat) := satN signed v n
    (narrow w n, if sat then 16 else if inx then 8 else 0)

/-- An integer to a floating format (R51). -/
def Fmt.ofInt (f : Fmt) (m : RMode) (x : Int) : Nat × Nat := f.roundInt m false x 0

/-- A value to SX16 (R52). -/
def FVal.toSx16 (x : FVal) : Nat × Nat :=
  match x with
  | .nan _ => (0, 1)
  | .inf neg => if neg then (0, 1) else (0xFEFF, 10)
  | .fin neg m e =>
    if m = 0 then (0, 0)
    else if neg then (0, 1)
    else
      let k := ilog m 1 e
      if k < -127 then (0, 12)
      else
        let (q, r, d) := scaleQ m 1 (e - (k - 8))
        let q := if RMode.rne.up false q r d then q + 1 else q
        let carry := decide (q = 512)
        let q := if carry then 256 else q
        let k := if carry then k + 1 else k
        let inx := if r = 0 then 0 else 8
        if 127 < k then (0xFEFF, 10)
        else
          let code := (k + 127).toNat * 256 + (q - 256)
          if code = 0 then (1, 8) else (code, inx)

/-- R52 on an exact quotient num / den of a value m * 2^e (R350). -/
def toSx16Q (num den : Nat) (e : Int) : Nat :=
  if num = 0 then 0
  else
    let k := ilog num den e
    if k < -127 then 0
    else
      let (q, r, d) := scaleQ num den (e - (k - 8))
      let q := if RMode.rne.up false q r d then q + 1 else q
      let carry := decide (q = 512)
      let q := if carry then 256 else q
      let k := if carry then k + 1 else k
      if 127 < k then 0xFEFF
      else
        let code := (k + 127).toNat * 256 + (q - 256)
        if code = 0 then 1 else code

/-- The value of an SX16 code as m * 2^e (R43); an invalid code is not asked. -/
def sx16Val (c : Nat) : Nat × Int :=
  if c = 0 then (0, 0) else (256 + c % 256, ((c / 256 : Nat) : Int) - 135)

def sx16Bad (c : Nat) : Bool := decide (c / 256 % 256 = 255)

end Sys2Proof
end

