-- ==== Sys2Proof/Config.lean ====
section
/-! DEFINITION. What an implementation fixes and the values the manual leaves open. An opaque constant has
no body: nothing can be proved about its value. -/

namespace Sys2Proof.Config

/-- The PCIe role strap read at reset (R433): true for a root port. -/
opaque pcieRoot : Bool

/-- Whether an Ed25519 or Ed25519ph signature (RFC 8032, R415, R437) verifies against the key of a
key slot: key slot, signed bytes, signature bytes. -/
opaque signatureValid : Nat → List Byte → List Byte → Bool

/-- Whether a one-time-programmable key slot is revoked (R415). -/
opaque slotRevoked : Nat → Bool

/-- The least security version of a key slot for an image type (R415). -/
opaque slotMinSvn : Nat → Nat → Nat

/-- A value the manual leaves open: fresh at each count of `State.free` (assumption 3). -/
opaque freeValue : Nat → DWord

/-- The overlays of at most 64 KiB that the loader's version needs for a Muhilu module (R427, R428). -/
opaque overlaysNeeded : List Byte → Nat

/-- What the loader's version leaves in memory for a Muhilu module at a virtual address, where the module is not one that
`muCode` translates (R425 to R427). -/
opaque muTranslation : List Byte → Nat → List Byte

/-- The warm entry of the Governor's boot ROM (R405). -/
opaque govWarmEntry : BitVec 32

/-- The challenge the Governor issues before a debug unlock (R437). -/
opaque debugChallenge : List Byte

end Sys2Proof.Config
end

