-- ==== Sys2Proof/Machine/State.lean ====
section
/-! DEFINITION. The state of the device as plain data, its faults and refusals, and the state at reset.
Registers of the register windows are one table keyed by physical address (`regs`); what an unlisted register
reads is its reset value (`regReset`). Typed fields hold everything the spec gives the machine beside them. -/

namespace Sys2Proof.Machine

/-! ## Names of agents and of instances -/

/-- An agent of the ordering rules (R82), with the queue processor and the distributor per die. -/
inductive Agent
  | warp (wid : Nat)
  | teng (tc e : Nat)
  | pce (die : Nat)
  | qp (die : Nat)
  | dist (die : Nat)
  | sp (n : Nat)
  | svc (sc : Nat)
  | ddx
  deriving DecidableEq, Repr

/-- A device context: a job card and its generation (R80). -/
structure Ctx where
  card : Nat
  gen : Nat
  deriving DecidableEq, Repr

/-- An overlay address in resolved form (R202): residency token and byte offset. -/
structure OvAddr where
  tok : Word
  off : Nat
  deriving DecidableEq, Repr

/-- A register operand by kind (R225, R228). -/
inductive RegRef
  | v (n : Nat)
  | s (n : Nat)
  | discard
  deriving DecidableEq, Repr

/-! ## Traps -/

/-- A trap record (R399); numbers are the fields' contents. -/
structure TrapRec where
  code : Nat
  notice : Bool
  src : Nat
  pid : Nat
  card : Nat
  gen : Nat
  target : Nat
  pc : Nat
  next : Nat
  addr : Nat
  lanes : Nat
  done : Nat
  detail : Nat
  lane : Nat
  core : Nat
  time : Nat
  /-- time of the last failed enqueue, for the re-send of R398; none before the first -/
  tried : Option Nat
  deriving DecidableEq, Repr

/-- What raises a trap: code, detail, address, lowest failing lane (R400). -/
structure Cause where
  code : Nat
  detail : Nat
  addr : Nat := 0
  lane : Nat := 0
  deriving DecidableEq, Repr

/-! ## Caches and requests (R62 to R67, R78 to R80) -/

/-- A sector held by an L1 or an RDC: its bytes, its poison and the time its request was issued (R100). -/
structure Sec where
  data : List Byte
  poison : Bool
  req : Nat
  deriving DecidableEq, Repr

/-- A line that an L1 owns exclusively: the PID of its fills, the sectors moved in, and those its atomics have written (R62, R78). -/
structure Owned where
  pid : Nat
  valid : List Nat
  dirty : List Nat
  deriving DecidableEq, Repr

/-- A line of an L1 or of an RDC: lease expiry, sectors held by sector index, and use stamp. -/
structure LLine where
  exp : Nat
  secs : Tbl Sec
  used : Nat
  /-- its way in its set -/
  way : Nat := 0
  /-- what an L1 holds of a line that it owns (R78) -/
  own : Option Owned := none
  deriving DecidableEq, Repr

/-- A line in the ways of a home-cache slice: way, valid and dirty sectors, last dirtier, use stamp. -/
structure HLine where
  way : Nat
  valid : List Nat
  dirty : List Nat
  by_ : Nat
  used : Nat
  deriving DecidableEq, Repr

/-- MOESI state of a line in one service core's caches; invalid is absence (R66). -/
inductive Moesi
  | m | o | e | s
  deriving DecidableEq, Repr

/-- Who owns a line exclusively (R66): an L1 for atomics (R78), with the WCT of its grant, or an engine (R79). -/
inductive Owner
  | l1 (core : Nat) (wct : Nat)
  | engine (req : Nat)
  deriving DecidableEq, Repr

/-- A waiting E or M request of a service core, with the store it is for (R87). -/
structure ExclReq where
  sc : Nat
  pa : Nat
  data : List Byte
  deriving DecidableEq, Repr

/-- A directory entry of a line (R66): holders, MOESI states, owners, horizon and waiting E or M requests. -/
structure DirEnt where
  hor : Nat
  holders : List Nat
  svc : Tbl Moesi
  owners : List Owner
  excl : List ExclReq
  deriving DecidableEq, Repr

/-- Operations of reductions and atomics (R290, R291). -/
inductive RedOp
  | add | min | max | and | or | xor | fadd | exch | cas
  deriving DecidableEq, Repr

/-- What a request in flight asks of the memory system. -/
inductive ReqKind
  /-- an L1's read fill of the sector, at the home directly -/
  | fill
  /-- an L1's read fill of a remote sector, by way of its die's RDC (R65) -/
  | rdcFill
  /-- the RDC's own fill of the sector at the remote home -/
  | homeForRdc
  /-- a plain store of bytes by address, later bytes of the list prevailing -/
  | store (bs : List (Nat × Byte))
  /-- a non-returning reduction -/
  | red (op : RedOp) (signed : Bool) (size : Nat) (pa : Nat) (val : DWord)
  /-- the same into an element that lies across two sectors, by the address of each byte (R319, R352) -/
  | redAcross (op : RedOp) (signed : Bool) (pas : List Nat) (val : DWord)
  /-- an engine write, returned at release; whether the written bytes are poisoned -/
  | engine (bs : List (Nat × Byte)) (poisoned : Bool)
  /-- an L1's request for exclusive ownership of the line -/
  | own
  deriving DecidableEq, Repr

/-- A request in flight. `rq` is the sluice requester number (R173), `adm` the DRAM sector accesses already
admitted, `op` the operation whose completion waits for it. -/
structure Req where
  id : Nat
  agent : Agent
  rq : Nat
  pid : Nat
  ctx : Option Ctx
  issue : Nat
  die : Nat
  core : Nat
  kind : ReqKind
  sec : Nat
  fresh : Nat
  op : Option Nat
  adm : Nat
  held : Bool
  /-- how long a sluice has held it: the bound of R80 counts from its admission (assumption 22) -/
  extra : Nat := 0
  deriving DecidableEq, Repr

/-- An access made outside the queue of requests of which a sluice holds a part (R174): requester, sector, and the accesses admitted. -/
structure SluWait where
  id : Nat
  r : Nat
  sec : Nat
  adm : Nat
  held : Bool
  deriving DecidableEq, Repr

/-- A page translation in use (R75): die, translation cache (core, or 100 and above for the other engines),
address space, virtual page and its PTE with its level. -/
structure TlbEnt where
  die : Nat
  unit : Nat
  asid : Nat
  vpn : Nat
  level : Nat
  pte : DWord
  deriving DecidableEq, Repr

/-- A walker's first touch under way (R74): die, translation cache, PID, address of the PTE, frame, the PTE that was read and the one
to be installed, the sectors of the frame zeroed so far, and the time at which the zero writes, or once it is installed the write of the
PTE, have completed. -/
structure Touch where
  die : Nat
  unit : Nat
  pid : Nat
  pte : Nat
  frame : Nat
  old : DWord
  new : DWord
  zeroed : Nat
  installed : Bool
  ready : Nat
  deriving DecidableEq, Repr

/-- A shoot-down in progress on a die (R76). -/
structure Shoot where
  scope : Nat
  asid : Nat
  va : Nat
  /-- requests and operations that used a removed translation and have not been performed -/
  waitReqs : List Nat
  waitOps : List Nat
  /-- leat operations, on their way or parked, of which the object or the buffer lies in a removed page -/
  waitLeats : List Nat := []
  /-- the named entries of tile handles have been removed and marked (R77) -/
  marked : Bool := false
  deriving DecidableEq, Repr

/-! ## Leats (R109 to R131) -/

inductive LOp
  | enq (elem : List Byte)
  | deq
  | res (n : Nat)
  | done (n : Nat)
  | init (cfg ring wake : DWord)
  | drain
  | close
  | reopen
  | repair (h : Nat)
  | query
  deriving DecidableEq, Repr

/-- The requester of a leat operation (R110). -/
inductive LWho
  | warp (wid op lane : Nat)
  | tile (tc : Nat)
  | port (die c : Nat)
  | qp (die th : Nat)
  | sp (n : Nat)
  | graph (g node : Nat)
  deriving DecidableEq, Repr

/-- A leat operation on its way to a home controller. `buf` is the physical address of the element buffer,
the shadow or the port buffer; `mode` the ES and MODE that a core read (R299). -/
structure LReq where
  id : Nat
  cb : Nat
  who : LWho
  op : LOp
  blocking : Bool
  buf : Nat
  mode : Option (Nat × Nat)
  ctx : Option Ctx
  pid : Option Nat
  /-- set when no waiter entry was free: the time of the last issue (R125) -/
  reissue : Option Nat
  /-- the requester has been saved or killed: the operation does not park (R129, R130) -/
  quit : Bool := false
  /-- the sectors of it that its homes and its sluices have taken (R174) -/
  had : List Nat := []
  deriving DecidableEq, Repr

/-- A parked waiter entry (R125). -/
structure Waiter where
  id : Nat
  slice : Nat
  q : LReq
  /-- the requester has marked it removed (R129) -/
  marked : Bool
  deriving DecidableEq, Repr

/-- An outstanding offer (R126). -/
structure Offer where
  cb : Nat
  wid : Nat
  time : Nat
  deriving DecidableEq, Repr

/-- The answer of a leat operation: status, up to two result words, or a trap. -/
structure LAns where
  status : Nat
  trap : Option (Nat × Nat)
  r : List DWord
  wct : Nat
  /-- R299: the controller found another ES or MODE -/
  again : Bool
  deriving DecidableEq, Repr

/-- A frame in progress or finished at a stream port (R133). -/
structure SpState where
  inFrame : Bool
  /-- the frame's free element: address and size; none for a discarded frame -/
  buf : Option (Nat × Nat)
  bytes : Nat
  trunc : Bool
  burstErr : Bool
  tFirst : Option Nat
  seq : Nat
  source : Word
  wct : Nat
  /-- the frame has ended and its record is owed -/
  ended : Bool
  /-- the free element has been asked for, or the record is at its controller -/
  asked : Bool
  /-- buffers that could not be returned -/
  kept : List (Nat × Nat)
  /-- buffers on their way back to the free leat, and whether EN was cleared when they were sent -/
  giving : List (Nat × Nat × Bool) := []
  deriving DecidableEq, Repr

/-! ## Queue processors, graphs, releases (R134 to R161) -/

/-- What a thread in BLOCKED waits for. -/
inductive Blocked
  /-- the test of a WAIT: time of the next 1 us evaluation, sector of ADDR, and a notification that has arrived -/
  | cond (nextPoll sec : Nat) (noted : Bool)
  | card
  | work (card gen : Nat)
  /-- a release request is at the DDX -/
  | ask
  | graphFree (g : Nat)
  | graphRun (g run : Nat)
  | leat
  deriving DecidableEq, Repr

inductive ThState
  | off | fetch | exec | blocked | halted | adopted
  deriving DecidableEq, Repr

/-- Who launched a release. -/
inductive Launcher
  | periodic
  | queue (die q seq th : Nat)
  | node (g n : Nat)
  deriving DecidableEq, Repr

/-- The release a card runs (R140, R165): header words, argument snapshot, grid or tile selection. -/
structure Release where
  hdr : List DWord
  args : List Word
  grid : DWord
  argsVa : Nat
  ig : Nat
  tok : Nat
  launcher : Launcher
  doneSig : Option (Nat × DWord)
  /-- shading header of a path release -/
  shade : List DWord
  obound : Nat
  /-- unplaced owned teams of each die -/
  unplaced : List (List Nat)
  /-- spawned or continuation sequence numbers given so far -/
  seq : Nat
  dlrel : Nat
  deriving DecidableEq, Repr

/-- A queue-processor thread (R138). -/
structure Thread where
  st : ThState
  /-- what it is blocked on, kept when the condition is met until the packet goes on -/
  blk : Option Blocked
  err : Nat
  tag : Nat
  unsure : Bool
  seq : Nat
  /-- index in the shadow of the packet being performed -/
  idx : Nat
  /-- packets of the taken arm that follow -/
  armLeft : Nat
  /-- packets that the shadow holds, and packets of a PRED still to be dequeued into it -/
  have_ : Nat
  gather : Nat
  /-- a dequeue is at the leat's controller -/
  asked : Bool
  /-- STAGE ISSUED has been written for the packet -/
  issued : Bool
  /-- STOP came while a request of the step was in flight -/
  stop : Bool
  /-- stopped with a packet in the shadow at STAGE BEGUN (R128) -/
  kept : Bool
  /-- answer of a leat operation or of the DDX -/
  ans : Option LAns
  /-- the release of a LAUNCH whose reads are made and which waits for its card -/
  prep : Option Release
  /-- a STAGE and a position that the shadow is still to receive, with release (R158) -/
  owes : Option (Nat × Nat) := none
  /-- sectors of the shadow that have been read for the packet under way (R174) -/
  seen : List Nat := []
  deriving DecidableEq, Repr

inductive NodeSt
  | waiting | ready | blocked | running | done | failed
  /-- its completion has arrived and is still to be processed -/
  | ended (ok : Bool)
  deriving DecidableEq, Repr

/-- A run of a task graph (R151). -/
structure GraphRun where
  counters : List Nat
  nodes : List NodeSt
  bodies : List Rec64
  /-- answers of the leat operations of SIGNAL ENQ nodes, by node -/
  answers : Tbl LAns
  deriving DecidableEq, Repr

/-- A release request at the DDX (R140, R151): from a queue with its release prepared, or of a graph node. -/
structure Ask where
  id : Nat
  src : Launcher
  card : Nat
  pkt : Rec64
  rel : Option Release
  deriving DecidableEq, Repr

/-- What is under way for a card beside its STATE: the pre-emption, the held kind, the teardown. -/
structure CardSt where
  /-- decision time of a pending pre-emption -/
  preempt : Option Nat
  /-- the card goes HELD instead of PREEMPTED when the stop is complete -/
  toHeld : Bool
  /-- work was saved (held or pre-empted before) -/
  saved : Bool
  /-- tile core that wrote the checkpoint image -/
  savedOn : Option Nat
  /-- a teardown waits for in-flight operations (R80) -/
  tear : Bool
  /-- largest completion horizon of the card's work that has ended -/
  ch : Nat
  /-- the windows counted in OVWIN for this release -/
  wins : List Nat
  /-- OVPOL was applied since the release or the last RESUME -/
  bov : Bool
  deriving DecidableEq, Repr

/-- Barrier-node entries of a team (R193). -/
structure TeamNodes where
  cores : List Nat
  dies : List Nat
  deriving DecidableEq, Repr

structure Team where
  card : Nat
  gen : Nat
  owner : Nat
  phase : Nat
  blocks : List Nat
  nodes : TeamNodes
  /-- device time at which the last arrival at the team's barrier was met, for the bound of R194 -/
  since : Option Nat := none
  deriving DecidableEq, Repr

inductive BlockKind
  | grid | cont | spawn
  deriving DecidableEq, Repr

/-- A block (R180, R192): linear index in the grid, warps, cores and scratchpad. -/
structure Block where
  card : Nat
  gen : Nat
  team : Nat
  kind : BlockKind
  linear : Nat
  coord : Nat × Nat × Nat
  warps : List Nat
  cores : List Nat
  spm : Nat
  mem : Mem
  poison : List Nat
  deriving DecidableEq, Repr

/-- A gather bin (R156). -/
structure Bin where
  die : Nat
  card : Nat
  entry : Nat
  recs : List (List DWord)
  t0 : Nat
  deriving DecidableEq, Repr

/-- A warp of eight quads handed to the distributor (R388): positions, coverages and primitive number. -/
structure Spawn where
  prim : Nat
  quads : List (Int × Int)
  /-- x, y, v of the 32 lanes; none for a vacant lane -/
  px : List (Option (Int × Int × Int))
  deriving DecidableEq, Repr

/-- An entry of a die's launch queue (R156, R390). -/
structure QWarp where
  card : Nat
  gen : Nat
  entry : Nat
  recs : List (List DWord)
  spawn : Option Spawn
  order : Nat
  deriving DecidableEq, Repr

/-- Allocation of a card's continuation pool (R155): free-running tail, and records in order with their state. -/
structure Pool where
  tail : Nat
  /-- reserved and unpublished indices -/
  resv : List Nat
  /-- published and unread, in publication order: die, index, and number of the publication -/
  pub : List (Nat × Nat × Nat)
  /-- indices read, not yet free because an older one is not -/
  head : Nat
  freed : List Nat
  deriving DecidableEq, Repr

/-! ## Vision warps (R180 to R196, R215 to R221) -/

/-- Why a lane of a live path stands still at its word. -/
inductive LWait
  | none
  | conv (mask : Word)
  | bar
  | tbar
  | sleep (until_ : Nat)
  | waitf (mask : Nat)
  | pbwait (spm : Bool) (addr : Nat) (ph : Nat) (scope : Nat) (checked : Nat)
  | ordin
  | fence
  deriving DecidableEq, Repr

/-- An overlay that a warp or a walker waits to have placed (R207): the device time of its first attempt, and the pages, the
number and the image that are to be placed. -/
structure OvWant where
  first : Nat
  npg : Nat
  ovid : Nat
  image : Nat
  deriving DecidableEq, Repr

inductive WState
  | ready | parked | trapped | retired
  deriving DecidableEq, Repr

/-- The clause a warp is inside (R216): header address and bits, index of the next word (1 up), the path's lanes,
and the lanes a queue or CPOST word has already performed (R300). -/
structure Clause where
  at_ : OvAddr
  hdr : DWord
  next : Nat
  lanes : Word
  doneLanes : Word
  deriving DecidableEq, Repr

/-- A path that waits at a FENCE inside a clause (R292, R293): the clause at the FENCE word, its scope, whether it is
.sc, and the number below which requests and operations are earlier. -/
structure Susp where
  clause : Clause
  scope : Nat
  sc : Bool
  id : Nat
  /-- the fence is complete and the rest of the clause may go on -/
  ended : Bool
  deriving DecidableEq, Repr

structure Warp where
  card : Nat
  gen : Nat
  block : Nat
  wnum : Nat
  /-- sequence number of a continuation or spawned warp -/
  seq : Nat
  spawn : Option Spawn
  nreg : Nat
  v : Tbl Word
  s : Tbl Word
  p : List Word
  /-- count and horizon of f0 to f11 (R218) -/
  flags : List (Nat × Nat)
  pc : List OvAddr
  depth : List Nat
  vacant : Word
  helper : Word
  exited : Word
  dead : Word
  wait : List LWait
  fpflags : Nat
  deadsrc : Bool
  ch : Nat
  tf : Nat
  st : WState
  trap : Option Cause
  clause : Option Clause
  susp : List Susp
  /-- operation whose answer the warp waits for before it issues another word (R300) -/
  hold : Option Nat
  /-- lowest lane of the path that executed last (R188) -/
  rot : Nat
  /-- warps that must issue before this warp begins a clause again (YIELD, R187) -/
  yieldTo : List Nat
  /-- the overlay whose placement the warp waits for (R207) -/
  ovFirst : Option OvWant
  /-- base slot of the overlay whose load the warp waits on, until it starts in it -/
  ovWait : Option Nat
  /-- program counters with token 0 are entry virtual addresses still to be looked up (R213) -/
  look : Bool
  /-- resolution takes AUTO as 1: a warp that has not begun a clause since its first placement (R213) -/
  entry : Bool
  /-- a restored warp resolves its saved program counters: the lanes below this one are done (R213) -/
  resolving : Option Nat
  /-- core and partition; none for a saved warp -/
  place : Option (Nat × Nat)
  saved : Bool
  /-- core that saved it and the wait of R107 -/
  savedOn : Option Nat
  /-- performed ORDIN, holds the section, is out (R392) -/
  ordDone : Bool
  held : Bool
  out : Bool
  /-- a handler or its card has killed it: it gives no notice as it retires (R393) -/
  killed : Bool
  /-- uncorrectable errors not yet met: v register and lane as 32 * register + lane (R190) -/
  badV : List Nat
  /-- the same of s registers (their number), predicates (256 + number) and flags (264 + number) -/
  badU : List Nat
  deriving DecidableEq, Repr

/-- One lane's access of a load, atomic or copy: lane, physical (or scratchpad) address, virtual address. -/
structure LaneAcc where
  lane : Nat
  pa : Nat
  va : Nat
  /-- a helper lane whose check failed reads zero -/
  zero : Bool
  deriving DecidableEq, Repr

inductive QOp
  | enq | deq | res | done | ctl (sub : Nat)
  deriving DecidableEq, Repr

/-- The element buffer of a lane of a queue word: physical and virtual address, and the element size. -/
structure QBuf where
  lane : Nat
  pa : Nat
  va : Nat
  es : Nat
  deriving DecidableEq, Repr

/-- What a long-latency operation in flight does at its completion (R219). -/
inductive OpKind
  | load (spm : Bool) (size : Nat) (sx uni : Bool) (acq : Bool)
  | atom (op : RedOp) (spm : Bool) (size : Nat) (sx : Bool) (acq : Bool) (b c : List DWord)
  | copy (toSpm : Bool) (spmOff : List Nat)
  | queue (q : QOp) (uni : Bool) (bufs : List QBuf)
  | cres (n : List Nat) (uni : Bool)
  | ovld (core base : Nat)
  | ovqry
  | overlay
  /-- reads of a tile core's walker -/
  | tile (tc e : Nat)
  deriving DecidableEq, Repr

/-- A long-latency operation of a warp (or reads of a walker) in flight. `got` holds the sectors whose value is fixed (R82),
`answers` the answers of a queue word by lane. -/
structure PendOp where
  wid : Nat
  core : Nat
  ctx : Ctx
  kind : OpKind
  dst : RegRef
  flag : Option Nat
  lanes : List LaneAcc
  got : Tbl Sec
  answers : Tbl LAns
  order : List Nat
  wct : Nat
  issue : Nat
  result : List Word
  /-- the clause at the word, for a precise trap of its answer (R190, R300) -/
  back : Option Clause
  deriving DecidableEq, Repr

/-! ## Overlays (R197 to R214) -/

/-- State of a placed overlay (R204); it is PINNED while an executor is in it, which is read off the executors. -/
inductive OvState
  | loading | resident
  deriving DecidableEq, Repr

/-- An overlay in a core's store, by base slot. -/
structure Ovl where
  base : Nat
  npg : Nat
  st : OvState
  pid : Nat
  card : Nat
  gen : Nat
  ovid : Nat
  image : Nat
  /-- invalidate when unpinned -/
  doomed : Bool
  /-- stamp of the last execution in it -/
  used : Nat
  /-- operations that wait for the load -/
  ops : List Nat
  /-- an OVL_CMD LOAD waits for it -/
  cmd : Bool
  /-- sectors of the image read so far -/
  pos : Nat
  /-- device time at which the load started -/
  since : Nat
  deriving DecidableEq, Repr

/-- A vision or tile core's instruction store. -/
structure IStore where
  bytes : Mem
  ovls : List Ovl
  sgen : Tbl Nat
  /-- slots in which a fetch meets an uncorrectable error (R198) -/
  bad : List Nat
  /-- an OVL_CMD LOAD whose table read waits for a first touch -/
  cmdWait : Option DWord
  /-- entry points that the core has looked up: card, generation, virtual address, and what the table gave (R213) -/
  looked : List (Nat × Nat × Nat × OvAddr)
  /-- fetches that met a single-bit error, which the core corrected (R198) -/
  corrected : Nat
  deriving DecidableEq, Repr

/-! ## Tile cores (R307 to R334) -/

/-- A handle binding: descriptor address and words (R318), the pages' translations and those marked (R77). -/
structure Handle where
  va : Nat
  desc : List DWord
  /-- frame of each page by virtual page number -/
  pages : Tbl Nat
  /-- entries taken in the table of 2048 -/
  entries : Nat
  marked : List Nat
  /-- 4 KiB pages of the translation of an entry, by virtual page number, where it is not of 4 KiB (R72) -/
  span : Tbl Nat := []
  deriving DecidableEq, Repr

inductive WkState
  | off | run | wait | stopping | stopped | ended
  deriving DecidableEq, Repr

/-- A walker (R309, R325). `rep` is the repetition to issue; `retiring` that every repetition has issued. -/
structure Walker where
  st : WkState
  pc : OvAddr
  count : Nat
  rep : Nat
  retiring : Bool
  /-- tokens popped for the word: FIFO and carried horizon (R313, R333) -/
  pops : Tbl Nat
  /-- FIFOs into which the retiring word has still to push -/
  pushes : List Nat
  k : List DWord
  ch : Nat
  tf : Nat
  /-- the largest WCT of the writes returned so far -/
  wct : Nat
  /-- the reads that the repetition waits for -/
  asked : Option Nat
  /-- handle that the word in progress uses (R77) -/
  uses : Option Nat
  /-- a poisoned input was met: ECC after the word has retired (R334) -/
  ecc : Option Nat
  /-- the signal of an SQSIG is at its controller, and its answer (R353) -/
  sent : Bool
  ans : Option LAns
  /-- the overlay whose placement is waited for; base slot of the overlay whose load is waited on (R207) -/
  ovFirst : Option OvWant
  ovWait : Option Nat
  deriving DecidableEq, Repr

/-- A weight file (R307, R342). -/
structure WFile where
  bytes : Mem
  fmt : Nat
  sw0 : Nat
  sw1 : Nat
  /-- indices of poisoned elements; a poisoned scale marks every element that it scales (R56) -/
  poison : List Nat
  deriving DecidableEq, Repr

/-- What the checker has formed at a walk count (R321): the word there, its program counter and its replica, of which the commands of
every engine's repetitions follow. -/
structure Formed where
  count : Nat
  pc : OvAddr
  word : DWord
  k : List DWord
  deriving DecidableEq, Repr

/-- A value of a K word read outside the replicas, held for the walkers that have still to take it (R311). -/
structure Sample where
  count : Nat
  val : DWord
  dest : OvAddr
  left : List Nat
  deriving DecidableEq, Repr

structure TileCore where
  card : Option Ctx
  /-- dispatch time -/
  since : Nat
  acc : Mem
  /-- slots with an uncorrectable error, as 128 * row + slot -/
  bad : List Nat
  wf : List WFile
  handles : Tbl Handle
  /-- the six FIFOs: carried horizons, oldest first (R312, R333) -/
  fifo : List (List Nat)
  walkers : List Walker
  samples : List Sample
  /-- CKSPAN count so far, and the time from which it counts on (R177) -/
  span : Nat
  spanAt : Option Nat
  trapped : Bool
  /-- local time and walker of the fault that stopped the program last (R322) -/
  trapAt : Option (Nat × Nat)
  heldStop : Bool
  /-- walk count of the CKPT occurrence that walkers have reached, with its live masks -/
  live : Option (Nat × Nat)
  /-- engine whose next command the checker will have formed wrongly, by a soft error -/
  soft : Option Nat
  /-- the commands that the checker has formed and some engine has still to issue, by walk count (R321) -/
  formed : List Formed
  /-- the rebind of a restore has met a fault and is still to be done -/
  restoring : Bool
  /-- the program's entry is still to be looked up, and to be resolved with AUTO taken as 1 (R213) -/
  entry : Bool
  /-- first local time at which a restored program issues (R107) -/
  resumeAt : Nat
  deriving DecidableEq, Repr

/-! ## Path coverage engines (R376 to R390) -/

/-- What a path coverage engine does: its header is still to be read; it takes the next command; it performs the units
of a command; it hands warps to the distributor; every unit has been issued; it is trapped; its list is at an end. -/
inductive PceState
  | start | command | running | spawn | wait | trapped | drain
  deriving DecidableEq, Repr

/-- Where a RESUME of a trapped engine continues (R386): the release header, the failing command, the failing
subpath's MOVE, the unit not yet begun, or the next command. -/
inductive PceBack
  | header | command | move | here | next
  deriving DecidableEq, Repr

/-- A path coverage engine's work, resident (key: the die) or saved (key: 2 + card). -/
structure Pce where
  st : PceState
  /-- stopped at a stopping point, its image written (R387) -/
  stop : Bool
  card : Option Ctx
  /-- command index and the command and descriptor in progress -/
  idx : Nat
  cmd : Option Rec64
  surf : List DWord
  /-- next record, cell or row -/
  pos : Nat
  /-- the current point and the start point of the subpath in progress -/
  cur : Int × Int
  startPt : Int × Int
  open_ : Bool
  /-- segments of the checked subpath that are still to be performed, by the points they give; [] for a CLOSE -/
  segs : List (List (Int × Int))
  /-- record of the MOVE of the failing or current subpath -/
  move : Nat
  /-- private buffer: area and cover by cell index -/
  priv : Tbl (Int × Int)
  gathered : Bool
  /-- warps still to hand to the distributor -/
  spawns : List Spawn
  ch : Nat
  /-- where a RESUME continues -/
  back : PceBack
  /-- address of a poisoned cell met by the PRSV in progress (R385) -/
  ecc : Option Nat
  deriving DecidableEq, Repr

/-! ## Service cores (R14, R24, R25, R30, R66, R404) -/

/-- Privilege modes of a service core. -/
inductive PMode
  | user | supervisor | machine
  deriving DecidableEq, Repr

/-- An RV64GC service core: integer and floating-point registers, pc, mode, CSRs by number, the line of its load reservation, and the
lines in its instruction and data caches, the latest first. -/
structure SvcCore where
  x : Tbl DWord
  f : Tbl DWord
  pc : DWord
  mode : PMode
  csr : Tbl DWord
  resv : Option Nat
  ic : List Nat
  dc : List Nat
  deriving DecidableEq, Repr

def SvcCore.reset : SvcCore := { x := [], f := [], pc := 0, mode := .machine, csr := [], resv := none, ic := [], dc := [] }

/-! ## Governor (R405 to R419) -/

/-- What the Governor's two RV32IMC cores hold, the same in both, one clock apart (R405). -/
structure GovCpu where
  x : Tbl Word
  pc : Word
  csr : Tbl Word
  deriving DecidableEq, Repr

inductive GovCmd
  | merge (mask : Nat)
  | split (mask : Nat)
  | restartCtl (die : Nat)
  deriving DecidableEq, Repr

/-- An action of R408 that waits for the snapshot before it. -/
inductive GovAct
  | deviceRestart (cause : Nat)
  | qpFail (die tdet : Nat)
  | distFail (die : Nat)
  | skewErr (copy : Nat)
  | hbMiss (cluster : Nat) (third : Bool)
  deriving DecidableEq, Repr

structure Gov where
  cmd : Option GovCmd
  /-- MERGE or SPLIT stands before the writes of step 7: slices are being emptied and the horizon waited for -/
  emptying : Bool
  /-- warm restart until its done event -/
  warm : Bool
  lastMismatch : Option Nat
  /-- copies of device time whose SKEW_ERR report is on its way -/
  skew : List Nat
  /-- last restart of each PID -/
  pidRestart : Tbl Nat
  ctlRestart : Tbl Nat
  /-- the last heartbeat samples: value and time, of the queue processor of die d, or of cluster c as 100 + c -/
  hb : Tbl (Nat × Nat)
  /-- consecutive misses of each service cluster -/
  svcMiss : List Nat
  snapArmed : Option Nat
  /-- windows that the snapshot in progress has latched (0 M0, 1 M1, 2 host, 3 hub) -/
  snapDies : List Nat
  /-- windows that a snapshot has ever latched -/
  snapWins : List Nat
  lastLatch : Option Nat
  todo : List GovAct
  /-- releases of the service cores, for the bound of BOOT_TMO -/
  released : Option Nat
  minimal : Bool
  /-- engines held in reset -/
  holdReset : Bool
  /-- the Governor runs alone (R417) -/
  alone : Bool
  /-- slices that hold new requests, during MERGE and SPLIT -/
  holdSlices : List Nat
  holdPids : List Nat
  /-- cards whose ACTIVATE the DDX holds -/
  heldActs : List Nat
  /-- requests from this number on are new to the slices that hold -/
  holdFrom : Nat
  /-- the queue processor of the minimal mode stays in reset (R417) -/
  qpHeld : Bool
  /-- QP restart in progress on a die, and whether there was an adoption -/
  qpRestart : Tbl Bool
  /-- the lockstep pair, and its SRAM of 256 KiB (R15) -/
  cpu : GovCpu := { x := [], pc := 0, csr := [] }
  sram : Mem := []
  /-- the accepted copy of the QP firmware, header and bytes, which a restart of a queue processor loads again (R411) -/
  qpImage : Option (List Byte × List Byte) := none
  deriving DecidableEq, Repr

/-- What a start finds: results of its self-tests, training and images (an input of the environment, R414). -/
structure StartIn where
  romOk : Bool
  /-- by quarter -/
  dramOk : List Bool
  selfOk : List Bool
  /-- the directory's images (R434): TYPE, copy, header bytes, image bytes -/
  images : List (Nat × Nat × List Byte × List Byte)
  deriving DecidableEq, Repr

/-! ## Turns of the environment -/

/-- How far each copy of device time has advanced since the last turn. -/
structure Adv where
  hub : Nat
  m0 : Nat
  m1 : Nat
  host : Nat
  deriving DecidableEq, Repr

/-- Errors of the storage arrays and of execution: uncorrectable but where a name says otherwise. -/
inductive Upset
  | dram (sec : Nat)
  | vreg (wid reg lane : Nat)
  | uniform (wid n : Nat)
  | spm (block word : Nat)
  | istore (core slot : Nat)
  /-- a fetch of a core meets a single-bit error of its store, which is corrected (R198) -/
  | istoreCe (core : Nat)
  | acc (tc row slot : Nat)
  | command (tc e : Nat)
  | ecc (slice : Nat)
  deriving DecidableEq, Repr

/-- What a service core does: instructions that touch only itself, a read of a CSR, a load or an instruction fetch of `size` bytes, a
store, and the taking of an interrupt. -/
inductive SvcAct
  | compute (c : SvcCore)
  | csr (rd n : Nat)
  | load (va size rd : Nat) (sx : Bool)
  | fetch (va : Nat)
  | store (va : Nat) (bs : List Byte)
  | interrupt
  deriving DecidableEq, Repr

/-- Who moves in a turn. -/
inductive Who
  | warp (wid : Nat)
  | walker (tc e : Nat)
  | qp (die th : Nat)
  | pce (die : Nat)
  | bus (b : BusWrite)
  | hw (i : Instr) (a : EvArgs)
  | upset (u : Upset)
  /-- a service core's load of a sector by physical address, giving it the line in S -/
  | svcRead (sc pa : Nat)
  /-- a service core performs an instruction (R14) -/
  | svcDo (sc : Nat) (a : SvcAct)
  /-- a read of a device register by an agent that reaches the windows (R25) -/
  | regRead (src : Writer) (pa size rd : Nat)
  /-- the loader on a service core loads a Muhilu module at a physical and a virtual address (R427, R428) -/
  | muLoad (sc pa va : Nat) (m : List Byte)
  /-- the Governor's pair performs instructions that touch only its registers and its SRAM -/
  | gov (c : GovCpu) (bs : List (Nat × Byte))
  /-- a translation cache drops a translation it holds -/
  | forget (n : Nat)
  deriving DecidableEq, Repr

structure Turn where
  adv : Adv
  who : Who
  deriving DecidableEq, Repr

/-- The agent of the turn being run. -/
inductive Focus
  | none
  | warp (wid : Nat)
  | walker (tc e : Nat)
  | qp (die th : Nat)
  | pce (die : Nat)
  deriving DecidableEq, Repr

/-! ## The state -/

/-- Device time: the hub's count and the copies (R28, R29). -/
structure Times where
  hub : Nat
  m0 : Nat
  m1 : Nat
  host : Nat
  /-- copies (0 M0, 1 M1, 2 host) that have not taken a loaded value (R34) -/
  loading : List Nat
  ppsOut : Bool
  ppsAt : Nat
  deriving DecidableEq, Repr

/-- The memory system beside its registers. -/
structure MemSys where
  mem : Mem
  poison : List Nat
  l1 : Tbl (Tbl LLine)
  rdc : Tbl (Tbl LLine)
  hc : Tbl (Tbl HLine)
  dir : Tbl DirEnt
  /-- frames kept from a lost compare-and-swap (R74), by 16 * die + PID -/
  spare : Tbl Nat
  reqs : List Req
  waits : List SluWait
  tlb : List TlbEnt
  touch : List Touch
  shoots : Tbl Shoot
  /-- index of the window in progress, by sluice (73 * controller + requester) -/
  win : Tbl Nat
  /-- overrun windows not yet reported: controller, requester, window, RUN (R174) -/
  overruns : List (Nat × Nat × Nat × Nat)
  /-- sectors that the path coverage engine of a die has read for the unit under way -/
  unitSecs : Tbl (List Nat)
  stamp : Nat
  deriving DecidableEq, Repr

structure Leats where
  reqs : List LReq
  waiters : List Waiter
  offers : List Offer
  /-- blocks whose wake is latched until a dequeue leaves them empty (R127) -/
  latched : List Nat
  /-- removals on their way (R129) -/
  removals : List Nat
  /-- control blocks of which a store to the header address of Slot(HEAD) is to be notified (R120) -/
  notes : List Nat
  /-- control blocks whose parked operations a home or a sluice has held back -/
  owed : List Nat := []
  /-- control blocks that an INIT has given WAKE.EN -/
  wakes : List Nat
  deriving DecidableEq, Repr

/-- A done word that the DDX is still to store, with release at device scope (R140, R151), and whom the store is for: a card's
generation (1024 for the run of a graph), and its launcher. -/
structure DoneStore where
  /-- completion horizon of what ended -/
  horizon : Nat
  pid : Nat
  pa : Nat
  v : DWord
  card : Nat
  gen : Nat
  who : Launcher
  ok : Bool
  deriving DecidableEq, Repr

structure Dispatch where
  cards : Tbl CardSt
  rel : Tbl Release
  graphs : Tbl GraphRun
  /-- accepted identities: die, queue, seq, card, generation (R159) -/
  ids : List (Nat × Nat × Nat × Nat × Nat)
  asks : List Ask
  recs : List TrapRec
  /-- CTX_CMD ports that are BUSY until a card's teardown (R401), by port -/
  ctxWait : Tbl Nat
  /-- the last raise of each die's operating point (R179), and a change under way -/
  therm : Tbl Nat
  opNext : Tbl Nat
  /-- reports for the Governor: kind, card, argument -/
  reports : List (Nat × Nat × Nat)
  teams : Tbl Team
  blocks : Tbl Block
  bins : List Bin
  queue : Tbl (List QWarp)
  pools : Tbl Pool
  /-- steal back-off: time of the last NONE and whether n was 0, by die and card -/
  steals : Tbl (Nat × Bool)
  /-- the rotation of an issue partition (16 * core + partition): the warp that issued last, and how many successive
  instructions of its clause (R187) -/
  rota : Tbl (Nat × Nat)
  /-- the DDX's own completion horizon -/
  ch : Nat := 0
  dones : List DoneStore := []
  /-- records published so far, in any pool: the publication order of a die goes across its cards (R156) -/
  pubs : Nat := 0
  deriving DecidableEq, Repr

structure State where
  time : Times
  regs : Tbl DWord
  snap : Tbl DWord
  ms : MemSys
  lq : Leats
  sp : Tbl SpState
  th : Tbl Thread
  qpch : Tbl Nat
  ddx : Dispatch
  warps : Tbl Warp
  ops : Tbl PendOp
  ist : Tbl IStore
  tiles : Tbl TileCore
  pces : Tbl Pce
  gov : Gov
  starts : List StartIn
  dieOff : List Nat
  debugOpen : Bool
  pcieDone : List (BitVec 16)
  /-- the service cores, and the lines in the L2 of each cluster, the latest first (R14) -/
  svc : Tbl SvcCore := []
  l2 : Tbl (List Nat) := []
  /-- the register that queue processor d (key d) or the debug port (key 2) has read last (R30) -/
  reads : Tbl DWord := []
  agenda : List Turn
  focus : Focus
  ev : EvArgs
  free : Nat
  next : Nat
  deriving DecidableEq, Repr

/-- Why the machine stops with a fault. No rule of the spec stops the device: every trap, refusal and
discarded request of the spec is a next state. -/
inductive Fault
  /-- Raised by nobody: every event of the spec has a next state. Safe: nothing is claimed of it. -/
  | none
  deriving DecidableEq, Repr

/-- Why an instruction has no meaning in the model. -/
inductive Refusal
  /-- Raised by the dispatch arm of an instruction without a meaning. Safe: no state follows. -/
  | notModelled (mnemonic : String)
  deriving DecidableEq, Repr

/-! ## Reset -/

def Times.reset : Times := { hub := 0, m0 := 0, m1 := 0, host := 0, loading := [], ppsOut := false, ppsAt := 0 }

def MemSys.reset : MemSys :=
  { mem := [], poison := [], l1 := [], rdc := [], hc := [], dir := [], spare := [], reqs := [], waits := [], tlb := [], touch := [],
    shoots := [], win := [], overruns := [], unitSecs := [], stamp := 0 }

def Leats.reset : Leats :=
  { reqs := [], waiters := [], offers := [], latched := [], removals := [], notes := [], wakes := [] }

def Dispatch.reset : Dispatch :=
  { cards := [], rel := [], graphs := [], ids := [], asks := [], recs := [], ctxWait := [], therm := [], opNext := [],
    reports := [], teams := [], blocks := [], bins := [], queue := [], pools := [], steals := [], rota := [] }

def Gov.reset : Gov :=
  { cmd := none, emptying := false, warm := false, lastMismatch := none, skew := [], pidRestart := [], ctlRestart := [],
    hb := [], svcMiss := [0, 0, 0, 0], snapArmed := none, snapDies := [], snapWins := [], lastLatch := none, todo := [],
    released := none, minimal := false, holdReset := true, alone := false, holdSlices := [], holdPids := [], heldActs := [], holdFrom := 0,
    qpHeld := false, qpRestart := [] }

/-- The machine right after a power-on reset (R28, R414): every register at its reset value, memory with nothing
listed, every engine but the Governor and the DTU held in reset, and nothing yet to run. -/
def State.reset : State :=
  { time := Times.reset, regs := [], snap := [], ms := MemSys.reset, lq := Leats.reset, sp := [], th := [],
    qpch := [], ddx := Dispatch.reset, warps := [], ops := [], ist := [], tiles := [], pces := [],
    gov := Gov.reset, starts := [], dieOff := [], debugOpen := false, pcieDone := [], agenda := [],
    focus := Focus.none, ev := EvArgs.none, free := 0, next := 1 }

end Sys2Proof.Machine
end

