-- ==== Sys2Proof/Machine/TCheck.lean ====
section
/-! DEFINITION. The ENC checks of a tile word (R309, R314 to R316, R327, R328) as functions of its opcode and
fields. -/

namespace Sys2Proof

def fld (x : BitVec 12) (hi lo : Nat) : Nat := (x.toNat >>> lo) % 2 ^ (hi - lo + 1)

def TWord.t (w : TWord) : Nat := w.tag.toNat
def TWord.n (w : TWord) : Nat := w.rep.toNat + 1
/-- The signed step (R314). -/
def TWord.s (w : TWord) : Int := signExt w.step.toNat 3

/-! Register and immediate fields of K words (R316). -/

def TWord.kd (w : TWord) : Nat := fld w.opa 11 7
def TWord.ka (w : TWord) : Nat := fld w.opa 6 2
def TWord.kb (w : TWord) : Nat := fld w.opb 11 7
def TWord.imm (w : TWord) : Int := signExt w.opb.toNat 12
def TWord.imm19 (w : TWord) : Nat := fld w.opa 6 0 * 4096 + w.opb.toNat

/-- Tags an opcode may stand under (R327). -/
def tTags (opc : Nat) : List Nat :=
  if opc ≤ 0x1C then [0] else if opc ≤ 0x24 then [1] else if opc ≤ 0x35 then [2] else if opc ≤ 0x52 then [3]
  else if opc ≤ 0x63 then [4] else if opc = 0x70 then [1, 2, 4] else if opc = 0x71 ∨ opc = 0x72 then [1, 2, 3, 4]
  else [5]

/-- Words whose step column reads "—" (R327). -/
def tNoPattern (opc : Nat) : Bool :=
  decide (opc ≤ 0x22 ∨ opc = 0x63 ∨ opc = 0x70 ∨ 0x78 ≤ opc)

def tTokenOk (w : TWord) : Bool :=
  let none4 := decide (w.popP = 0 ∧ w.popN = 0 ∧ w.pushP = 0 ∧ w.pushN = 0)
  (decide (w.t ≠ 0 ∧ w.t ≠ 5) || none4) && (decide (w.t ≠ 1) || decide (w.popP = 0 ∧ w.pushP = 0)) &&
    (decide (w.t ≠ 4) || decide (w.popN = 0 ∧ w.pushN = 0))

def tPatternOk (opc : Nat) (w : TWord) : Bool :=
  !(tNoPattern opc) || decide (w.rep = 0 ∧ w.step = 0)

/-- An ACC operand (R316); column slices only where R347 permits them. -/
def accOk (col : Bool) (x : BitVec 12) : Bool := col || decide (fld x 11 11 = 0 ∨ fld x 6 6 = 0)
def hndOk (x : BitVec 12) : Bool := decide (fld x 0 0 = 0)
def low7 (x : BitVec 12) : Bool := decide (fld x 6 0 = 0)
def low2 (x : BitVec 12) : Bool := decide (fld x 1 0 = 0)

def tOperandOk (opc : Nat) (w : TWord) : Bool :=
  let a := w.opa
  let b := w.opb
  let zb := decide (b = 0)
  if opc = 0x00 ∨ opc = 0x79 ∨ opc = 0x7A ∨ opc = 0x71 ∨ opc = 0x72 then decide (a = 0) && zb
  else if opc ≤ 0x0B ∨ opc = 0x0F then low2 a && low7 b
  else if opc = 0x0C ∨ opc = 0x1C then low2 a
  else if opc = 0x0D ∨ opc = 0x0E then true
  else if opc ≤ 0x15 then low2 a
  else if opc = 0x16 then decide (a = 0)
  else if opc = 0x17 then decide (fld a 6 0 = 0)
  else if opc = 0x18 then low2 a && zb
  else if opc = 0x19 then decide (fld a 11 7 = 0 ∧ fld a 1 0 = 0) && zb
  else if opc = 0x1A ∨ opc = 0x1B then decide (fld a 6 0 = 0) && zb
  else if opc = 0x20 then decide (fld a 5 0 = 0) && low7 b
  else if opc = 0x21 then decide (fld a 5 0 = 0) && zb
  else if opc = 0x22 then hndOk a && decide (fld b 11 1 = 0)
  else if opc = 0x23 then hndOk a && accOk false b
  else if opc = 0x24 then hndOk a && zb
  else if opc ≤ 0x33 then hndOk a && decide (fld b 11 5 = 0)
  else if opc ≤ 0x35 then decide (fld a 11 4 = 0 ∧ fld b 11 5 = 0)
  else if opc = 0x40 ∨ opc = 0x52 then accOk true a && zb
  else if opc = 0x47 then accOk true a && low7 b
  else if opc ≤ 0x48 then accOk true a && accOk true b
  else if opc = 0x4B then accOk false a && low7 b
  else if opc ≤ 0x51 then accOk false a && accOk false b
  else if opc ≤ 0x62 then hndOk a && accOk false b
  else if opc = 0x63 then low2 a && low7 b
  else if opc = 0x70 then
    decide (fld a 11 4 = 0 ∧ fld a 2 0 ≤ 5 ∧ (fld a 3 3 = 1 → fld a 2 0 = 4 ∨ fld a 2 0 = 5)) && zb
  else decide (fld b 11 6 = 0)

/-- The first failing check of R328 at a word whose opcode R327 lists. -/
def tEnc (opc : Nat) (w : TWord) : Option Nat :=
  if w.high ≠ 0 then some 1
  else if 5 < w.t then some 2
  else if ¬ w.t ∈ tTags opc then some 3
  else if !tTokenOk w then some 4
  else if !tPatternOk opc w then some 5
  else if !tOperandOk opc w then some 6
  else none

/-- The detail of a word whose opcode R327 does not list. -/
def tEncUnassigned (w : TWord) : Nat := if w.high ≠ 0 then 1 else if 5 < w.t then 2 else 3

end Sys2Proof
end

