-- ==== Sys2Proof/Machine/Ops.lean ====
section
/-! DEFINITION. Operations over the state that every engine shares: registers, device time, free values, partitions
and PIDs, job cards, interrupt vectors, Governor events, and raising a trap. -/

namespace Sys2Proof.Machine

/-! ## Named updates of the state -/

namespace State
def setReg (s : State) (pa : Nat) (v : DWord) : State := { s with regs := s.regs.set pa v }
def withMs (s : State) (m : MemSys) : State := { s with ms := m }
def withLq (s : State) (l : Leats) : State := { s with lq := l }
def withDdx (s : State) (d : Dispatch) : State := { s with ddx := d }
def withGov (s : State) (g : Gov) : State := { s with gov := g }
def withTime (s : State) (t : Times) : State := { s with time := t }
def setWarp (s : State) (w : Nat) (x : Warp) : State := { s with warps := s.warps.set w x }
def setOp (s : State) (i : Nat) (o : PendOp) : State := { s with ops := s.ops.set i o }
def delOp (s : State) (i : Nat) : State := { s with ops := s.ops.del i }
def setTile (s : State) (tc : Nat) (t : TileCore) : State := { s with tiles := s.tiles.set tc t }
def setPce (s : State) (d : Nat) (p : Pce) : State := { s with pces := s.pces.set d p }
def setIst (s : State) (c : Nat) (i : IStore) : State := { s with ist := s.ist.set c i }
def setSp (s : State) (n : Nat) (x : SpState) : State := { s with sp := s.sp.set n x }
def setMem (s : State) (m : Mem) : State := s.withMs { s.ms with mem := m }

/-- The value of a register (R5), as stored. -/
def reg (s : State) (pa : Nat) : DWord := Tbl.get (regReset pa) s.regs pa

/-- Bits [hi:lo] of a register. -/
def regF (s : State) (pa hi lo : Nat) : Nat := bits (s.reg pa) hi lo
def regBit (s : State) (pa n : Nat) : Bool := bit (s.reg pa) n
def setRegF (s : State) (pa hi lo x : Nat) : State := s.setReg pa (setBits (s.reg pa) hi lo x)

/-- Count one into a saturating register of n bits. -/
def regInc (s : State) (pa n : Nat) : State := s.setReg pa (BitVec.ofNat 64 (satInc (s.reg pa).toNat n))

/-- A fresh number for a request, an operation, a warp, a block or a team. -/
def fresh (s : State) : Nat × State := (s.next, { s with next := s.next + 1 })

/-- A value the manual leaves open: fresh, and constrained by nothing (assumption 3). -/
def freeVal (s : State) : DWord × State := (Config.freeValue s.free, { s with free := s.free + 1 })

/-- The local device time of a die: 0 M0, 1 M1, 2 host chiplet, else the hub (R30, R82). -/
def now (s : State) (d : Nat) : Nat :=
  if d = 0 then s.time.m0 else if d = 1 then s.time.m1 else if d = 2 then s.time.host else s.time.hub
end State

/-- Die of a core: 0 to 31 vision, 32 to 55 tile (R11, R19). -/
def coreDie (c : Nat) : Nat := if c < 32 then c / 16 else (c - 32) / 12
def coreQuarter (c : Nat) : Nat := if c < 32 then c / 8 else (c - 32) / 6
/-- Homes (R23): the die and quarter of a DRAM address. -/
def paDie (pa : Nat) : Nat := pa / 2 ^ 37 % 2
def paQuarter (pa : Nat) : Nat := pa / 2 ^ 36 % 4
def lineOf (pa : Nat) : Nat := pa / 512
def secOf (pa : Nat) : Nat := pa / 64

/-! ## Partitions and PIDs (R19 to R21, R406) -/

/-- Partition of a quarter, named by its lowest quarter. -/
def partOfQ (s : State) (q : Nat) : Nat := s.regF Reg.govPart (2 * q + 1) (2 * q)

/-- Partition of a PID, or none when it is unassigned. -/
def pidPart (s : State) (p : Nat) : Option Nat :=
  let x := s.regF Reg.govPidmap (4 * p + 3) (4 * p)
  if x < 4 then some x else none

/-- The quarters of a PID's hard partition. -/
def pidQuarters (s : State) (p : Nat) : List Nat :=
  match pidPart s p with
  | some x => (List.range 4).filter fun q => decide (partOfQ s q = x)
  | none => []

def pidHasDie (s : State) (p d : Nat) : Bool := (pidQuarters s p).any fun q => decide (q / 2 = d)
def pidHasQuarter (s : State) (p q : Nat) : Bool := (pidQuarters s p).contains q

/-- Vision cores and tile cores of a PID's partition, in rising order. -/
def pidCores (s : State) (p : Nat) : List Nat := (List.range 32).filter fun c => pidHasQuarter s p (coreQuarter c)
def pidTiles (s : State) (p : Nat) : List Nat :=
  (List.range 24).filter fun t => pidHasQuarter s p (coreQuarter (t + 32))

/-- Whether an address lies in assigned DRAM (R22, R24, R417). -/
def dramOk (s : State) (pa : Nat) : Bool :=
  decide (pa < 2 ^ 38) && !(s.dieOff.contains (paDie pa)) &&
    (!s.gov.minimal || decide (paQuarter pa = s.regF Reg.govMode 7 6))

/-- The home slice of a line (R64). -/
def homeSlice (s : State) (pa : Nat) : Nat :=
  let h := (pa / 2 ^ 9 % 16) ^^^ (pa / 2 ^ 13 % 16) ^^^ (pa / 2 ^ 17 % 16) ^^^ (pa / 2 ^ 21 % 16)
  let d := paDie pa
  if s.regF (Reg.homeMap d) 0 0 = 0 then 8 * paQuarter pa + h % 8 else 16 * d + h

/-- The memory controller of a line (R64). -/
def homeMc (pa : Nat) : Nat :=
  (8 * paQuarter pa + ((pa / 2 ^ 9 % 8) ^^^ (pa / 2 ^ 21 % 8))) / 2

/-! ## Job cards (R162) -/

def cardWord (s : State) (c k : Nat) : DWord := s.reg (Reg.card c + 8 * k)
def cardF (s : State) (c k hi lo : Nat) : Nat := bits (cardWord s c k) hi lo
def setCardF (s : State) (c k hi lo x : Nat) : State := s.setRegF (Reg.card c + 8 * k) hi lo x

def cardKind (s : State) (c : Nat) : Nat := cardF s c 0 1 0
def cardIsLaunch (s : State) (c : Nat) : Bool := bit (cardWord s c 0) 2
def cardClass (s : State) (c : Nat) : Nat := cardF s c 0 4 3
def cardPid (s : State) (c : Nat) : Nat := cardF s c 0 8 5
def cardOvpol (s : State) (c : Nat) : Nat := cardF s c 0 10 9
def cardDmpol (s : State) (c : Nat) : Nat := cardF s c 0 12 11
def cardGen (s : State) (c : Nat) : Nat := cardF s c 14 31 16
def cardState (s : State) (c : Nat) : Nat := cardF s c 14 2 0
def cardActive (s : State) (c : Nat) : Bool := bit (cardWord s c 14) 7
def cardDeadline (s : State) (c : Nat) : Nat := (cardWord s c 13).toNat
def cardBound (s : State) (c : Nat) : Nat := cardF s c 3 63 32
def cardPwr (s : State) (c : Nat) : Nat := cardF s c 7 63 44
def cardLog2n (s : State) (c : Nat) : Nat := cardF s c 6 4 0
def cardSatp (s : State) (c : Nat) : DWord := cardWord s c 4
def cardAsid (s : State) (c : Nat) : Nat := cardF s c 4 59 44
def setCardState (s : State) (c v : Nat) : State := setCardF s c 14 2 0 v

/-- Card states (R162). -/
def stIdle : Nat := 0
def stReady : Nat := 1
def stRunning : Nat := 2
def stPreempted : Nat := 3
def stHeld : Nat := 4
def stDone : Nat := 5

def cardFree (s : State) (c : Nat) : Bool := decide (cardState s c = stIdle ∨ cardState s c = stDone)

def CardSt.none : CardSt :=
  { preempt := Option.none, toHeld := false, saved := false, savedOn := Option.none, tear := false, ch := 0,
    wins := [], bov := false }

def cardSt (s : State) (c : Nat) : CardSt := Tbl.get CardSt.none s.ddx.cards c
def setCardSt (s : State) (c : Nat) (x : CardSt) : State := s.withDdx { s.ddx with cards := s.ddx.cards.set c x }

/-- Whether a context's generation is still its card's (R80). -/
def ctxLive (s : State) (x : Ctx) : Bool := decide (cardGen s x.card = x.gen)

def cardCtx (s : State) (c : Nat) : Ctx := { card := c, gen := cardGen s c }

/-- The header of a release's warps: the kernel header, or a path program's shading header. -/
def Release.work (r : Release) : List DWord := if r.shade = [] then r.hdr else r.shade

/-! ## Interrupts and Governor events (R404, R406) -/

/-- Set vector v pending in a cluster; clusters above 3 receive nothing. -/
def raiseVec (s : State) (cluster v : Nat) : State :=
  if cluster < 4 ∧ v < 256 then
    let a := Reg.clIpend cluster (v / 64)
    s.setReg a (setBits (s.reg a) (v % 64) (v % 64) 1)
  else s

def pidCluster (s : State) (p : Nat) : Nat := s.regF (Reg.trapq p) 47 46

/-- Post an event to the Governor's ring, or drop and count it. -/
def postEvent (s : State) (kind sub argA argB : Nat) : State :=
  let h := (s.reg Reg.govEvtHead).toNat
  let t := (s.reg Reg.govEvtTail).toNat
  if (h + 2 ^ 32 - t) % 2 ^ 32 < 128 then
    let a := Reg.govEvt (h % 128)
    (((s.setReg a (BitVec.ofNat 64 (kind % 256 + 256 * (sub % 256) + 65536 * (argA % 65536)))).setReg (a + 8)
      (BitVec.ofNat 64 argB)).setReg (a + 16) (BitVec.ofNat 64 (s.now 3))).setReg Reg.govEvtHead
      (BitVec.ofNat 64 ((h + 1) % 2 ^ 32))
  else s.regInc Reg.govEvtDrop 32

/-! ## Traps (R8 Trap, R398 to R400) -/

def tENC : Nat := 0x01
def tPRIV : Nat := 0x02
def tALIGN : Nat := 0x03
def tPAGE : Nat := 0x04
def tPERM : Nat := 0x05
def tSPM : Nat := 0x06
def tTADDR : Nat := 0x07
def tTFMT : Nat := 0x08
def tOVABS : Nat := 0x09
def tOVTOK : Nat := 0x0A
def tBAR : Nat := 0x0B
def tORD : Nat := 0x0C
def tQCORR : Nat := 0x0D
def tQERR : Nat := 0x0E
def tQLEN : Nat := 0x0F
def tECC : Nat := 0x10
def tDEAD : Nat := 0x11
def tBOV : Nat := 0x12
def tDMISS : Nat := 0x13
def tCKPT : Nat := 0x14
def tCHECK : Nat := 0x15
def tTRAPI : Nat := 0x16
def tBKPT : Nat := 0x17
def tPATH : Nat := 0x18
def tSCALE : Nat := 0x19
def tWDOG : Nat := 0x1A

/-- The words of a trap record in memory (R399). -/
def TrapRec.words (r : TrapRec) : List DWord :=
  let w (n : Nat) : DWord := BitVec.ofNat 64 n
  [w (r.code % 256 + (if r.notice then 256 else 0) + 2 ^ 9 * (r.src % 8) + 2 ^ 12 * (r.pid % 16) +
      2 ^ 16 * (r.card % 1024) + 2 ^ 32 * (r.gen % 65536)),
   w r.target, w r.pc, w r.next, w r.addr, w (r.lanes % 2 ^ 32 + 2 ^ 32 * (r.done % 2 ^ 32)),
   w (r.detail % 2 ^ 32 + 2 ^ 32 * (r.lane % 32) + 2 ^ 40 * (r.core % 64)), w r.time]

/-- The bytes of words in memory order (R2). -/
def wordsBytes (ws : List DWord) : List Byte := ws.flatMap fun w => leBytes 8 w.toNat

/-- Queue a record for delivery (R398): records of one context keep the order in which they were raised. -/
def queueRec (s : State) (r : TrapRec) : State := s.withDdx { s.ddx with recs := s.ddx.recs ++ [r] }

/-- An overlay address in 64 bits (R202). -/
def OvAddr.num (a : OvAddr) : Nat := a.tok.toNat * 2 ^ 32 + a.off

def laneGet {α : Type} (d : α) (l : List α) (i : Nat) : α := l.getD i d

/-- Lanes that are live: not vacant, exited or dead (R189). -/
def Warp.liveMask (w : Warp) : Word := ~~~(w.vacant ||| w.exited ||| w.dead)

/-- Where the clause or path of a warp stands: the trapping word or header, and the header after its clause. -/
def Warp.word (w : Warp) : OvAddr :=
  match w.clause with
  | some c => { c.at_ with off := c.at_.off + 8 * c.next }
  | none => laneGet { tok := 0, off := 0 } w.pc w.rot

def Warp.after (w : Warp) : OvAddr :=
  match w.clause with
  | some c => { c.at_ with off := c.at_.off + 8 * (hdrLen c.hdr + 1) }
  | none => w.word

/-- TARGET of a vision record (R399). -/
def warpTarget (s : State) (w : Warp) : Nat :=
  match s.ddx.blocks.find w.block with
  | some b =>
    (match b.kind with
     | .grid => b.linear % 2 ^ 48
     | _ => w.seq % 2 ^ 48) + 2 ^ 48 * (w.wnum % 64)
  | none => w.seq % 2 ^ 48

def warpCore (w : Warp) : Nat :=
  match w.place with
  | some p => p.1
  | none => (w.savedOn.getD 0)

/-- The record of a warp's trap or notice (R399), naming the lanes given. -/
def warpRec (s : State) (w : Warp) (c : Cause) (notice : Bool) (lanes done : Word) : TrapRec :=
  { code := c.code, notice := notice, src := 0, pid := cardPid s w.card, card := w.card, gen := w.gen,
    target := warpTarget s w, pc := w.word.num, next := w.after.num, addr := c.addr, lanes := lanes.toNat,
    done := done.toNat, detail := c.detail, lane := c.lane, core := warpCore w,
    time := s.now (coreDie (warpCore w)), tried := none }

/-- Trap a warp: it goes to TRAPPED, its place in the clause kept, and its record is queued (R220, R398). -/
def trapWarp (s : State) (wid : Nat) (c : Cause) (lanes : Word) : State :=
  match s.warps.find wid with
  | some w =>
    let done := match w.clause with
      | some k => k.doneLanes
      | none => 0
    (queueRec s (warpRec s w c false lanes done)).setWarp wid { w with st := .trapped, trap := some c }
  | none => s

/-- A record of the DDX (R399, R400). -/
def ddxRec (s : State) (card code detail : Nat) (notice : Bool) : State :=
  queueRec s
    { code := code, notice := notice, src := 3, pid := cardPid s card, card := card, gen := cardGen s card,
      target := 0, pc := 0, next := 0, addr := 0, lanes := 0, done := 0, detail := detail, lane := 0, core := 0,
      time := s.now 3, tried := none }

/-- A report of the DDX to the Governor (R408). -/
def ddxReport (s : State) (card code arg : Nat) : State :=
  s.withDdx { s.ddx with reports := s.ddx.reports ++ [(code, card, arg)] }

/-- What a walker has issued is still to retire (R313, R322). A word that waits to push its tokens has retired. -/
def Walker.busy (w : Walker) : Bool := w.asked.isSome || w.sent || (w.retiring && decide (w.st ≠ .wait))

/-- A command of the walker that uses a handle has been issued and has not retired (R77); a walker that has stopped has none. -/
def Walker.inFlight (w : Walker) (h : Nat) : Bool := decide (w.uses = some h) && (w.busy || decide (w.st ≠ .stopped))

/-- The walkers' stop of R322 at a local time: every walker that has not ended stops where it stands, once what it has
issued has retired, and the CKSPAN count stops. -/
def stopWalkers (now : Nat) (t : TileCore) : TileCore :=
  { t with
    walkers := t.walkers.map fun (w : Walker) =>
      match w.st with
      | .run | .wait => { w with st := if w.busy then .stopping else .stopped }
      | _ => w
    span := t.span + (match t.spanAt with
      | some x => now - x
      | none => 0)
    spanAt := none }

/-- The walkers go on, unless the program is still trapped or held, or its restore is not complete (R322, R324, R325). One that
is still STOPPING goes on once it is STOPPED. -/
def startWalkers (now : Nat) (t : TileCore) : TileCore :=
  if t.trapped || t.heldStop || t.restoring then t
  else
    { t with
      walkers := t.walkers.map fun (w : Walker) => if w.st = .stopped then { w with st := .run } else w
      spanAt := if t.walkers = [] then none else some now }

def tileNow (s : State) (tc : Nat) : Nat := s.now (coreDie (tc + 32))

/-- Trap a tile program at a walker (R322, R399): the program stops in TRAPPED and the record names the walker. -/
def trapTile (s : State) (tc e : Nat) (c : Cause) : State :=
  match s.tiles.find tc with
  | some t =>
    match t.card, t.walkers[e]? with
    | some x, some w =>
      let r : TrapRec :=
        { code := c.code, notice := false, src := 1, pid := cardPid s x.card, card := x.card, gen := x.gen,
          target := w.count % 2 ^ 32 + 2 ^ 32 * e, pc := w.pc.num, next := 0, addr := c.addr, lanes := 0, done := 0,
          detail := c.detail, lane := 0, core := tc, time := tileNow s tc, tried := none }
      (queueRec s r).setTile tc (stopWalkers (tileNow s tc) { t with trapped := true, trapAt := some (tileNow s tc, e) })
    | _, _ => s
  | none => s

/-- The record of the fault that stopped a program, still to be delivered (R322). -/
def TrapRec.isStop (r : TrapRec) (x : Ctx) (time e : Nat) : Bool :=
  decide (r.src = 1 ∧ r.notice = false ∧ r.card = x.card ∧ r.gen = x.gen ∧ r.time = time ∧ r.target / 2 ^ 32 = e ∧ r.tried = none)

/-- A fault of a walker with a lower tag than one that has faulted in the same tile clock: its record stands instead (R322). -/
def retrapTile (s : State) (tc e : Nat) (c : Cause) : State :=
  match s.tiles.find tc with
  | some t =>
    match t.card, t.trapAt with
    | some x, some (n, f) =>
      if n = tileNow s tc ∧ e < f ∧ s.ddx.recs.any (fun r => r.isStop x n f) then
        trapTile (s.withDdx { s.ddx with recs := s.ddx.recs.filter fun r => !(r.isStop x n f) }) tc e c
      else s
    | _, _ => s
  | none => s

/-- Trap a path coverage engine (R386, R399). -/
def trapPce (s : State) (d : Nat) (c : Cause) (back : PceBack) : State :=
  match s.pces.find d with
  | some p =>
    match p.card with
    | some x =>
      let tag := match p.cmd with
        | some k => bits k.w0 63 32
        | none => 0
      let r : TrapRec :=
        { code := c.code, notice := false, src := 2, pid := cardPid s x.card, card := x.card, gen := x.gen,
          target := p.idx % 8192 + 2 ^ 32 * tag, pc := 0, next := 0, addr := c.addr, lanes := 0, done := 0,
          detail := c.detail, lane := 0, core := d, time := s.now d, tried := none }
      (queueRec s r).setPce d { p with st := .trapped, back := back }
    | none => s
  | none => s

end Sys2Proof.Machine
end

