-- ==== Sys2Proof/Machine/Operands.lean ====
section
/-! DEFINITION. Operands: the register fields of a vision word (R223 to R228, R280). -/

namespace Sys2Proof

def Fk.isDst : Fk → Bool
  | .dst _ _ _ | .pdst => true
  | _ => false

/-- Registers that a field of the kind names. -/
def Fk.count : Fk → Nat
  | .dst n _ _ | .src n _ => n
  | _ => 0

end Sys2Proof

namespace Sys2Proof.Machine

/-! ## Vision registers -/

def vKey (r lane : Nat) : Nat := 32 * r + lane

def Warp.vGet (w : Warp) (r lane : Nat) : Word := Tbl.get 0 w.v (vKey r lane)

def Warp.vSet (w : Warp) (r lane : Nat) (x : Word) : Warp :=
  { w with v := w.v.set (vKey r lane) x, badV := w.badV.filter fun k => decide (k ≠ vKey r lane) }

def Warp.sGet (w : Warp) (n : Nat) : Word := Tbl.get 0 w.s n

def Warp.sSet (w : Warp) (n : Nat) (x : Word) : Warp :=
  { w with s := w.s.set n x, badU := w.badU.filter fun k => decide (k ≠ n) }

/-- Predicate n as a mask of lanes; p7 is true in every lane (R184). -/
def Warp.pMask (w : Warp) (n : Nat) : Word := if n < 7 then w.p.getD n 0 else BitVec.allOnes 32

def Warp.pGet (w : Warp) (n lane : Nat) : Bool := laneIn (w.pMask n) lane

def Warp.pSetMask (w : Warp) (n : Nat) (m : Word) : Warp :=
  { w with p := setPad 0 w.p n m, badU := w.badU.filter fun k => decide (k ≠ 256 + n) }

/-- Write the bits of the lanes of a mask (R239). -/
def Warp.pSetLanes (w : Warp) (n : Nat) (lanes val : Word) : Warp :=
  { w with p := setPad 0 w.p n ((w.p.getD n 0 &&& ~~~lanes) ||| (val &&& lanes)) }

/-! ## Sources (R225 to R227) -/

/-- The FP32 constants of R226, by field value from 497. -/
def fpConst (f : Nat) : Word :=
  (([0x3E800000, 0x3F000000, 0x3F800000, 0x40000000, 0x40800000, 0xBF000000, 0xBF800000, 0xC0000000, 0x3F317218,
     0x3FB8AA3B, 0x40490FDB, 0x3E22F983] : List Nat).map (BitVec.ofNat 32)).getD (f - 497) 0

/-- The pattern of a field value that names no register. -/
def constSrc (imm : Word) (f : Nat) : Word :=
  if f = 511 then imm
  else if f = 448 then 0
  else if f ≤ 480 then BitVec.ofNat 32 (f - 448)
  else if f ≤ 496 then BitVec.ofNat 32 (2 ^ 32 - (f - 480))
  else fpConst f

/-- A 32-bit source in a lane. -/
def Warp.src (w : Warp) (imm : Word) (f lane : Nat) : Word :=
  if f < 256 then w.vGet f lane
  else if f < 448 then w.sGet (f - 256)
  else constSrc imm f

/-- A 64-bit source in a lane (R227): a pair, a constant or IMM sign-extended, or zero. -/
def Warp.src64 (w : Warp) (imm : Word) (f lane : Nat) : DWord :=
  if f < 448 then (w.src imm (f + 1) lane).zeroExtend 64 <<< 32 ||| (w.src imm f lane).zeroExtend 64
  else if f = 448 then 0
  else (constSrc imm f).signExtend 64

/-- The n 32-bit words of a source group (R280); 448 reads as zeros. -/
def Warp.srcGroup (w : Warp) (imm : Word) (f lane n : Nat) : List Word :=
  if n = 2 ∧ 448 ≤ f then
    let x := w.src64 imm f lane
    [x.extractLsb' 0 32, x.extractLsb' 32 32]
  else (List.range n).map fun i => if f < 448 then w.src imm (f + i) lane else if i = 0 then constSrc imm f else 0

/-- The number that words spell, the low word first. -/
def wordsNat : List Word → Nat
  | [] => 0
  | x :: t => x.toNat + 2 ^ 32 * wordsNat t

/-- The n low words of a number. -/
def natWords : Nat → Nat → List Word
  | 0, _ => []
  | n + 1, v => BitVec.ofNat 32 v :: natWords n (v / 2 ^ 32)

/-! ## Destinations -/

/-- Write words from a destination field up, in one lane; 448 discards. -/
def Warp.dstWrite (w : Warp) (f lane : Nat) : List Word → Warp
  | [] => w
  | x :: t =>
    let w' := if f < 256 then w.vSet f lane x else if f < 448 then w.sSet (f - 256) x else w
    Warp.dstWrite w' (if f < 448 then f + 1 else f) lane t

/-- A destination field as the operand kind that a pending operation keeps. -/
def dstRef (f : Nat) : RegRef := if f < 256 then .v f else if f < 448 then .s (f - 256) else .discard

def RegRef.field : RegRef → Nat
  | .v n => n
  | .s n => 256 + n
  | .discard => 448

/-! ## What a word reads and writes -/

/-- Fields of a word with their kinds (R225): kind and value. -/
def vOperands (opc : Nat) (x : VWord) : List (Fk × Nat) := (vFields opc x).zip x.vals

/-- Register fields (v and s alike) that a word names: first field value and count. -/
def vNamed (opc : Nat) (x : VWord) : List (Nat × Nat) :=
  (vOperands opc x).filterMap fun e => if 0 < e.1.count ∧ e.2 < 448 then some (e.2, e.1.count) else none

/-- v registers that a word reads in each lane. -/
def vReads (opc : Nat) (x : VWord) : List Nat :=
  (vOperands opc x).flatMap fun e =>
    match e.1 with
    | .src n _ => if e.2 < 256 then (List.range n).map fun i => e.2 + i else []
    | _ => []

/-- s registers, and predicates as 256 + n, that a word reads, its guard among them. -/
def uReads (opc : Nat) (x : VWord) : List Nat :=
  (256 + x.guard.toNat % 8) :: (vOperands opc x).flatMap fun e =>
    match e.1 with
    | .src n _ => if 256 ≤ e.2 ∧ e.2 < 448 then (List.range n).map fun i => e.2 - 256 + i else []
    | .psrc => [256 + e.2]
    | _ => []

end Sys2Proof.Machine
end

