-- ==== Sys2Proof/Machine/Flags.lean ====
section
/-! DEFINITION. Flags of a warp: the sticky floating-point flags (R49) and the completion flags f0 to f11
(R218, R219). -/

namespace Sys2Proof.Machine

/-- OR raised flags into sr.fpflags (R49). -/
def Warp.orFp (w : Warp) (fl : Nat) : Warp := { w with fpflags := (w.fpflags ||| fl) % 32 }

/-- The OR of a list of flags. -/
def orAll (l : List Nat) : Nat := l.foldl (fun a b => a ||| b) 0

/-- Count of outstanding operations of flag n. -/
def Warp.flagCount (w : Warp) (n : Nat) : Nat := (w.flags.getD n (0, 0)).1

/-- Every flag of a mask is clear (R218). -/
def Warp.flagsClear (w : Warp) (mask : Nat) : Bool :=
  (List.range 12).all fun n => !(mask.testBit n) || decide (w.flagCount n = 0)

/-- An issued long-latency word counts on its flag. -/
def Warp.flagInc (w : Warp) (n : Nat) : Warp :=
  let f := w.flags.getD n (0, 0)
  { w with flags := setPad (0, 0) w.flags n (f.1 + 1, f.2) }

/-- A completion lowers the count and raises the flag's horizon (R218, R102). -/
def Warp.flagDec (w : Warp) (n wct : Nat) : Warp :=
  let f := w.flags.getD n (0, 0)
  { w with flags := setPad (0, 0) w.flags n (f.1 - 1, max f.2 wct) }

/-- A clause whose WAIT names the flags of a mask begins: their horizons go to the warp's and return to 0. -/
def Warp.takeFlags (w : Warp) (mask : Nat) : Warp :=
  (List.range 12).foldl (fun (a : Warp) n =>
    if mask.testBit n then
      let f := a.flags.getD n (0, 0)
      { a with ch := max a.ch f.2, flags := setPad (0, 0) a.flags n (f.1, 0) }
    else a) w

/-- The flag that a long-latency word selects by FS, or none (R216, R218). -/
def Clause.flag (c : Clause) (fs : Nat) : Option Nat :=
  let n := if fs = 0 then hdrSetA c.hdr else hdrSetB c.hdr
  if n < 12 then some n else none

/-- Whether two runs of register field values meet; neither crosses from the v to the s registers. -/
def fieldsMeet (a na b nb : Nat) : Bool := decide (a < b + nb ∧ b < a + na)

/-- Registers a pending operation will write, as a field value and a count. -/
def PendOp.dstCount (o : PendOp) : Nat :=
  match o.kind with
  | .load _ size _ _ _ => if size = 8 then 2 else if size = 16 then 4 else 1
  | .atom _ _ size _ _ _ _ => if size = 8 then 2 else 1
  | .copy _ _ => 0
  | .queue q _ _ =>
    match q with
    | .enq | .done => 1
    | .res => 2
    | .deq | .ctl _ => 8
  | .cres _ _ | .ovld _ _ | .ovqry => 2
  | .overlay | .tile _ _ => 0

/-- A word may not issue while it reads or writes a destination of an operation in flight (R219). -/
def hazard (s : State) (wid opc : Nat) (x : VWord) : Bool :=
  s.ops.any fun e =>
    decide (e.2.wid = wid ∧ e.2.dst ≠ .discard) &&
      (vNamed opc x).any fun f => fieldsMeet f.1 f.2 e.2.dst.field e.2.dstCount

end Sys2Proof.Machine
end

