-- ==== Sys2Proof/Machine/Service.lean ====
section
/-! DEFINITION. The service cores between their accesses (R14, R24, R25, R30, R404): registers and CSRs, interrupts, and taking an
exception or an interrupt. The spec takes all of it from the RISC-V privileged architecture (assumption 93). -/

namespace Sys2Proof.Machine

def svcCore (s : State) (sc : Nat) : SvcCore := Tbl.get SvcCore.reset s.svc sc
def setSvc (s : State) (sc : Nat) (c : SvcCore) : State := { s with svc := s.svc.set sc c }

/-- Register x0 reads as zero and discards writes. -/
def SvcCore.getX (c : SvcCore) (r : Nat) : DWord := if r = 0 then 0 else Tbl.get 0 c.x r
def SvcCore.setX (c : SvcCore) (r : Nat) (v : DWord) : SvcCore := if r = 0 ∨ 32 ≤ r then c else { c with x := c.x.set r v }

/-! ## CSRs -/

namespace Csr
def sstatus : Nat := 0x100
def sie : Nat := 0x104
def stvec : Nat := 0x105
def sepc : Nat := 0x141
def scause : Nat := 0x142
def stval : Nat := 0x143
def sip : Nat := 0x144
def stimecmp : Nat := 0x14D
def satp : Nat := 0x180
def mstatus : Nat := 0x300
def medeleg : Nat := 0x302
def mideleg : Nat := 0x303
def mie : Nat := 0x304
def mtvec : Nat := 0x305
def mepc : Nat := 0x341
def mcause : Nat := 0x342
def mtval : Nat := 0x343
def mip : Nat := 0x344
def time : Nat := 0xC01
/-- The fields of mstatus that sstatus shows. -/
def sMask : DWord := 0x80000003000DE762
end Csr

/-- What is stored for a CSR; the comparator of the timer starts at its greatest value. -/
def SvcCore.stored (c : SvcCore) (n : Nat) : DWord := Tbl.get (if n = Csr.stimecmp then BitVec.allOnes 64 else 0) c.csr n
def SvcCore.setCsr (c : SvcCore) (n : Nat) (v : DWord) : SvcCore := { c with csr := c.csr.set n v }

/-- The supervisor external interrupt of a core: a vector of its cluster is pending and enabled, and CL_TGT names the core (R404). -/
def svcExternal (s : State) (sc : Nat) : Bool :=
  let c := sc / 4
  decide (s.regF (Reg.clTgt c) 1 0 = sc % 4) && (List.range 4).any fun n => decide (s.reg (Reg.clIpend c n) &&& s.reg (Reg.clIen c n) ≠ 0)

/-- The timer interrupt compares with device time in ns (R30). -/
def svcTimer (s : State) (sc : Nat) : Bool := decide (((svcCore s sc).stored Csr.stimecmp).toNat ≤ s.time.host)

/-- The pending interrupts: those that the program has set, the timer and the external interrupt. -/
def svcMip (s : State) (sc : Nat) : DWord :=
  setBits (setBits ((svcCore s sc).stored Csr.mip) 9 9 (if svcExternal s sc then 1 else 0)) 5 5 (if svcTimer s sc then 1 else 0)

/-- What a read of a CSR returns; `time` is the host chiplet's copy of device time (R30). -/
def csrRead (s : State) (sc n : Nat) : DWord :=
  let c := svcCore s sc
  if n = Csr.time then BitVec.ofNat 64 s.time.host
  else if n = Csr.mip then svcMip s sc
  else if n = Csr.sip then svcMip s sc &&& c.stored Csr.mideleg
  else if n = Csr.sie then c.stored Csr.mie &&& c.stored Csr.mideleg
  else if n = Csr.sstatus then c.stored Csr.mstatus &&& Csr.sMask
  else c.stored n

/-! ## Exceptions and interrupts -/

def PMode.code : PMode → Nat
  | .user => 0
  | .supervisor => 1
  | .machine => 3

/-- The causes of exceptions and of interrupts. -/
def cLoadMisaligned : Nat := 4
def cLoadAccess : Nat := 5
def cStoreMisaligned : Nat := 6
def cStoreAccess : Nat := 7
def cFetchAccess : Nat := 1
def cFetchPage : Nat := 12
def cLoadPage : Nat := 13
def cStorePage : Nat := 15
def cHardware : Nat := 19

/-- Where a trap goes: the base of a trap vector, or for an interrupt under vectored mode its own entry. -/
def tvecPc (tvec : DWord) (int : Bool) (cause : Nat) : DWord :=
  let base := tvec.toNat / 4 * 4
  BitVec.ofNat 64 (if int ∧ tvec.toNat % 4 = 1 then base + 4 * cause else base)

def causeWord (int : Bool) (cause : Nat) : DWord := BitVec.ofNat 64 (cause + if int then 2 ^ 63 else 0)

/-- Take a trap into S mode: SPIE, SPP and SIE of mstatus, and sepc, scause and stval. -/
def SvcCore.trapS (c : SvcCore) (int : Bool) (cause : Nat) (tval : DWord) : SvcCore :=
  let st := c.stored Csr.mstatus
  let st1 := setBits (setBits (setBits st 5 5 (bits st 1 1)) 8 8 (if c.mode = .supervisor then 1 else 0)) 1 1 0
  let c1 := (((c.setCsr Csr.mstatus st1).setCsr Csr.sepc c.pc).setCsr Csr.scause (causeWord int cause)).setCsr Csr.stval tval
  { c1 with mode := .supervisor, pc := tvecPc (c.stored Csr.stvec) int cause, resv := none }

/-- Take a trap into M mode. -/
def SvcCore.trapM (c : SvcCore) (int : Bool) (cause : Nat) (tval : DWord) : SvcCore :=
  let st := c.stored Csr.mstatus
  let st1 := setBits (setBits (setBits st 7 7 (bits st 3 3)) 12 11 c.mode.code) 3 3 0
  let c1 := (((c.setCsr Csr.mstatus st1).setCsr Csr.mepc c.pc).setCsr Csr.mcause (causeWord int cause)).setCsr Csr.mtval tval
  { c1 with mode := .machine, pc := tvecPc (c.stored Csr.mtvec) int cause, resv := none }

/-- An exception of a service core, delegated to S mode where medeleg says so. -/
def svcFault (s : State) (sc cause tval : Nat) : State :=
  let c := svcCore s sc
  let v := BitVec.ofNat 64 tval
  setSvc s sc (if c.mode ≠ .machine ∧ bit (c.stored Csr.medeleg) cause then c.trapS false cause v else c.trapM false cause v)

/-- The interrupt of highest priority among pending ones. -/
def firstInt (m : DWord) : Option Nat := [11, 3, 7, 9, 1, 5].find? fun n => bit m n

/-- Take an interrupt that is pending and enabled. -/
def svcInterrupt (s : State) (sc : Nat) : State :=
  let c := svcCore s sc
  let on := svcMip s sc &&& c.stored Csr.mie
  let st := c.stored Csr.mstatus
  let toM := if c.mode ≠ .machine ∨ bit st 3 then firstInt (on &&& ~~~(c.stored Csr.mideleg)) else none
  let toS := if c.mode = .user ∨ (c.mode = .supervisor ∧ bit st 1) then firstInt (on &&& c.stored Csr.mideleg) else none
  match toM, toS with
  | some n, _ => setSvc s sc (c.trapM true n 0)
  | none, some n => setSvc s sc (c.trapS true n 0)
  | none, none => s

end Sys2Proof.Machine
end

