-- ==== Sys2Proof/Machine/Homes.lean ====
section
/-! DEFINITION. The memory system (R62 to R71, R78 to R90, R438): sluices, home-cache slices, directories, L1 and
remote-data caches, and the performing of fills, stores, reductions and ownership at a line's home. -/

namespace Sys2Proof.Machine

/-! ## Sluices (R173, R174) -/

/-- Width of a window in ns. -/
def sluW (s : State) (m r : Nat) : Nat :=
  let w := s.regF (Reg.sluCfg m r) 25 16
  if w = 0 then 1000000 else 1000 * w

def sluKey (m r : Nat) : Nat := 73 * m + r
def sluWin (s : State) (m r : Nat) : Nat := Tbl.get 0 s.ms.win (sluKey m r)
def setSluWin (s : State) (m r k : Nat) : State := s.withMs { s.ms with win := s.ms.win.set (sluKey m r) k }

/-- Whether a window boundary has been reached and its step not yet made. -/
def sluDue (s : State) (m r : Nat) : Bool := decide (sluWin s m r < s.now (m / 8) / sluW s m r)

def Req.atSluice (m r : Nat) (q : Req) : Bool := q.held && decide (q.rq = r ∧ homeMc (64 * q.sec) = m)
def SluWait.atSluice (m r : Nat) (x : SluWait) : Bool := x.held && decide (x.r = r ∧ homeMc (64 * x.sec) = m)

/-- Something is held at a sluice. -/
def sluHolds (s : State) (m r : Nat) : Bool := s.ms.reqs.any (Req.atSluice m r) || s.ms.waits.any (SluWait.atSluice m r)

/-- A window boundary with nothing to report and nothing held: only the counts return to 0. -/
def sluRoll (s : State) (m r : Nat) : State :=
  if decide (r < 73) && sluDue s m r && !(s.regBit (Reg.sluHold m r) 1) && !(sluHolds s m r) then
    setSluWin (((s.setReg (Reg.sluCnt m r) 0).setReg (Reg.sluRun m r) 0).setReg (Reg.sluHold m r) 0) m r
      (s.now (m / 8) / sluW s m r)
  else s

/-- Admit one sector access (R174): whether it is performed, and the counts. -/
def sluAdmit (s : State) (m r : Nat) (wb : Bool) : Bool × State :=
  let cfg := s.reg (Reg.sluCfg m r)
  let lines := bits cfg 15 0
  let count := s.regInc (Reg.sluCnt m r) 32
  if 73 ≤ r then (true, s)
  else if bit cfg 31 = false ∨ lines = 0 then (true, count)
  else if (s.reg (Reg.sluCnt m r)).toNat < 8 * lines then (true, count)
  else if wb then (true, count.setRegF (Reg.sluHold m r) 1 1 1)
  else (false, s.setReg (Reg.sluHold m r) 3)

/-- Admit n accesses one after another; how many were admitted. -/
def sluAdmitN (s : State) (m r : Nat) : Nat → Nat × State
  | 0 => (0, s)
  | n + 1 =>
    match sluAdmit s m r false with
    | (true, s') => let x := sluAdmitN s' m r n; (x.1 + 1, x.2)
    | (false, s') => (0, s')

def setReq (s : State) (q : Req) : State :=
  s.withMs { s.ms with reqs := s.ms.reqs.map fun (x : Req) => if x.id = q.id then q else x }

def delReq (s : State) (id : Nat) : State :=
  s.withMs { s.ms with reqs := s.ms.reqs.filter fun (x : Req) => decide (x.id ≠ id) }

def findReq (s : State) (id : Nat) : Option Req := s.ms.reqs.find? fun (x : Req) => decide (x.id = id)

/-- Admit the DRAM accesses a request needs: whether all are admitted now. A request that its sluice holds, or whose
sluice owes a window step, waits. -/
def admitReq (s : State) (q : Req) (need : Nat) : Bool × State :=
  if need ≤ q.adm then (true, s)
  else
    let m := homeMc (64 * q.sec)
    let s := sluRoll s m q.rq
    if q.held || sluDue s m q.rq then (false, s)
    else
      let x := sluAdmitN s m q.rq (need - q.adm)
      if x.1 = need - q.adm then (true, x.2)
      else (false, setReq x.2 { q with adm := q.adm + x.1, held := true })

def setSluWait (s : State) (x : SluWait) : State :=
  s.withMs { s.ms with waits := s.ms.waits.map fun (y : SluWait) => if y.id = x.id then x else y }

def delSluWait (s : State) (id : Nat) : State :=
  s.withMs { s.ms with waits := s.ms.waits.filter fun (x : SluWait) => decide (x.id ≠ id) }

/-- What a sluice holds, in arrival order. -/
def heldIds (s : State) (m r : Nat) : List Nat :=
  (((s.ms.reqs.filter (Req.atSluice m r)).map fun (q : Req) => q.id) ++
    (s.ms.waits.filter (SluWait.atSluice m r)).map fun (x : SluWait) => x.id).foldl (fun (a : List Nat) i => insertNat i a) []

/-- A held access is admitted: it goes on, and the bound of R80 counts from now. -/
def releaseHeld (s : State) (i : Nat) : State :=
  match findReq s i with
  | some q => setReq s { q with adm := q.adm + 1, held := false, extra := s.now q.die - q.issue }
  | none =>
    match s.ms.waits.find? fun (x : SluWait) => decide (x.id = i) with
    | some x => setSluWait s { x with adm := x.adm + 1, held := false }
    | none => s

/-- Held accesses are admitted again, in arrival order (R174). -/
def readmit (s : State) (m r : Nat) : State :=
  (heldIds s m r).foldl (fun (a : State) i =>
    match sluAdmit a m r false with
    | (true, b) => releaseHeld b i
    | (false, b) => b) s

/-- The step at the start of a window (R174), and the new admission of the held requests in arrival order. -/
def sluBegin (s : State) (m r k : Nat) : State :=
  let ovr := s.regBit (Reg.sluHold m r) 1
  let s1 :=
    if ovr then
      let s2 := (s.regInc (Reg.sluRun m r) 32).regInc (Reg.sluOvw m r) 32
      s2.withMs { s2.ms with overruns := s2.ms.overruns ++ [(m, r, k, (s2.reg (Reg.sluRun m r)).toNat)] }
    else s.setReg (Reg.sluRun m r) 0
  let s3 := setSluWin ((s1.setReg (Reg.sluCnt m r) 0).setReg (Reg.sluHold m r) 0) m r k
  readmit s3 m r

/-- A write of SLU_CFG that changes WINDOW or LINES or sets EN (R174): the window in progress ends without its step,
and held requests are admitted again under the new configuration. -/
def sluReconfigure (s : State) (m r : Nat) (v : DWord) : State :=
  let old := s.reg (Reg.sluCfg m r)
  let w := bits v 25 16
  let new := setBits (setBits (setBits 0 31 31 (bits v 31 31)) 25 16 (if 1000 < w then 1000 else w)) 15 0 (bits v 15 0)
  let set := !(bit old 31) && bit new 31
  let s1 := s.setReg (Reg.sluCfg m r) new
  if set ∨ bits old 25 0 ≠ bits new 25 0 then
    let s2 := if set then s1.setReg (Reg.sluRun m r) 0 else s1
    let s3 := setSluWin ((s2.setReg (Reg.sluCnt m r) 0).setReg (Reg.sluHold m r) 0) m r
      (s2.now (m / 8) / sluW s2 m r)
    readmit s3 m r
  else s1

/-- Charge one write-back to its requester (R174), in the window now in progress: a step that is owed is made first. -/
def chargeBack (s : State) (pa r : Nat) : State :=
  let m := homeMc pa
  let s1 := sluRoll s m r
  let s2 := if decide (r < 73) && sluDue s1 m r then sluRoll (sluBegin s1 m r (sluWin s1 m r + 1)) m r else s1
  (sluAdmit s2 m r true).2

/-! ## Home-cache slices (R62, R70, R438) -/

def stamp (s : State) : Nat × State := (s.ms.stamp, s.withMs { s.ms with stamp := s.ms.stamp + 1 })

def hcSlice (s : State) (h : Nat) : Tbl HLine := Tbl.get [] s.ms.hc h
def setHc (s : State) (h : Nat) (t : Tbl HLine) : State := s.withMs { s.ms with hc := s.ms.hc.set h t }

/-- Ways of a slice that a PID's fills may take (R70). -/
def hcWays (s : State) (h p : Nat) : Nat :=
  if pidPart s p = some (partOfQ s (h / 8)) then s.regF (Reg.waymask h p) 15 0 else 0

/-- The first free permitted way of a set, else its least recently used line in a permitted way. -/
def pickWay (used : List (Nat × Nat × Nat)) (mask : Nat) (ways : Nat := 16) : Option (Nat × Option Nat) :=
  let allowed := (List.range ways).filter fun w => mask.testBit w
  match allowed.find? fun w => !(used.any fun (u : Nat × Nat × Nat) => decide (u.2.1 = w)) with
  | some w => some (w, none)
  | none =>
    let cand := used.filter fun (u : Nat × Nat × Nat) => mask.testBit u.2.1
    let best := cand.foldl (fun (a : Option (Nat × Nat × Nat)) (u : Nat × Nat × Nat) =>
      match a with
      | none => some u
      | some x => if u.2.2 < x.2.2 then some u else a) none
    best.map fun u => (u.2.1, some u.1)

/-- Write a line's dirty sectors back and drop the line. -/
def hcEvict (s : State) (h line : Nat) : State :=
  match (hcSlice s h).find line with
  | some x => setHc (x.dirty.foldl (fun a _ => chargeBack a (512 * line) x.by_) s) h ((hcSlice s h).del line)
  | none => s

/-- The line in the slice's ways (its set is the line number modulo 256, assumption 24), allocated for PID p where R70 permits; whether it is there. -/
def hcAlloc (s : State) (h line p : Nat) : Bool × State :=
  match (hcSlice s h).find line with
  | some _ => (true, s)
  | none =>
    let used := ((hcSlice s h).filter fun e => decide (e.1 % 256 = line % 256)).map fun e => (e.1, e.2.way, e.2.used)
    match pickWay used (hcWays s h p) with
    | some (w, v) =>
      let s1 := match v with
        | some l => hcEvict s h l
        | none => s
      let x := stamp s1
      (true, setHc x.2 h ((hcSlice x.2 h).set line { way := w, valid := [], dirty := [], by_ := 0, used := x.1 }))
    | none => (false, s)

def hcValid (s : State) (h sec : Nat) : Bool :=
  match (hcSlice s h).find (sec / 8) with
  | some x => x.valid.contains (sec % 8)
  | none => false

/-- Whether a fill of the line may stand in the slice: it is there already, or R70 permits it. -/
def hcPermits (s : State) (h line p : Nat) : Bool :=
  ((hcSlice s h).find line).isSome || decide (hcWays s h p ≠ 0)

/-- Mark a sector of a line that is in the ways valid, and dirty by a requester. -/
def hcMark (s : State) (h sec : Nat) (by_ : Option Nat) : State :=
  match (hcSlice s h).find (sec / 8) with
  | some x =>
    let k := stamp s
    let y := { x with valid := insertNat (sec % 8) x.valid, used := k.1 }
    let z := match by_ with
      | some r => { y with dirty := insertNat (sec % 8) x.dirty, by_ := r }
      | none => y
    setHc k.2 h ((hcSlice k.2 h).set (sec / 8) z)
  | none => s

/-- A read of a sector at its home: the DRAM accesses it takes. -/
def readNeed (s : State) (sec : Nat) : Nat := if hcValid s (homeSlice s (64 * sec)) sec then 0 else 1

def readApply (s : State) (sec p : Nat) : State :=
  let h := homeSlice s (64 * sec)
  let x := hcAlloc s h (sec / 8) p
  if x.1 then hcMark x.2 h sec none else x.2

/-- A write of a sector at its home (R438): the DRAM accesses it takes. -/
def writeNeed (s : State) (sec p : Nat) (whole : Bool) : Nat :=
  let h := homeSlice s (64 * sec)
  if hcValid s h sec then 0
  else if hcPermits s h (sec / 8) p then (if whole then 0 else 1)
  else if whole then 1 else 2

def writeApply (s : State) (sec p r : Nat) : State :=
  let h := homeSlice s (64 * sec)
  let x := hcAlloc s h (sec / 8) p
  if x.1 then hcMark x.2 h sec (some r) else x.2

/-! ## The directory (R66, R83, R86, R87) -/

def DirEnt.empty : DirEnt := { hor := 0, holders := [], svc := [], owners := [], excl := [] }
def dirEnt (s : State) (line : Nat) : DirEnt := Tbl.get DirEnt.empty s.ms.dir line
def setDir (s : State) (line : Nat) (e : DirEnt) : State := s.withMs { s.ms with dir := s.ms.dir.set line e }
def delDir (s : State) (line : Nat) : State := s.withMs { s.ms with dir := s.ms.dir.del line }

/-- The horizon of a line: that of its entry, or EVH of its slice (R66). -/
def horizonOf (s : State) (line : Nat) : Nat :=
  match s.ms.dir.find line with
  | some e => e.hor
  | none => (s.reg (Reg.evh (homeSlice s (512 * line)))).toNat

def Owner.isEngine : Owner → Bool
  | .engine _ => true
  | .l1 _ _ => false

def engineOwned (s : State) (line : Nat) : Bool := (dirEnt s line).owners.any Owner.isEngine

def l1Owner (s : State) (line : Nat) : Option Nat :=
  (dirEnt s line).owners.findSome? fun (o : Owner) =>
    match o with
    | .l1 c _ => some c
    | .engine _ => none

/-- Lease length of a PID at a die, in ns (R83). -/
def leaseLen (s : State) (d p : Nat) : Nat := 64 * s.regF (Reg.leaseCfg d p) 9 0

/-! ## L1 caches and remote-data caches (R65, R67, R84, R85) -/

def l1Of (s : State) (c : Nat) : Tbl LLine := Tbl.get [] s.ms.l1 c
def setL1 (s : State) (c : Nat) (t : Tbl LLine) : State := s.withMs { s.ms with l1 := s.ms.l1.set c t }
def rdcOf (s : State) (d : Nat) : Tbl LLine := Tbl.get [] s.ms.rdc d
def setRdc (s : State) (d : Nat) (t : Tbl LLine) : State := s.withMs { s.ms with rdc := s.ms.rdc.set d t }

/-- The sector of a cache that may be used at local time t by an agent of fresh time tf (R84, R85, R100). -/
def leaseHit (tb : Tbl LLine) (sec t tf : Nat) : Option (Sec × Nat) :=
  match tb.find (sec / 8) with
  | some l =>
    if t + 8 < l.exp then
      match l.secs.find (sec % 8) with
      | some x => if tf ≤ x.req then some (x, l.exp) else none
      | none => none
    else none
  | none => none

/-- Put a sector into a leased line (R67): a live line keeps the earlier expiry, an expired one is emptied first. -/
def leaseFill (tb : Tbl LLine) (sec : Nat) (x : Sec) (e t k : Nat) (way : Nat := 0) : Tbl LLine :=
  match tb.find (sec / 8) with
  | some l =>
    if t + 8 < l.exp then
      tb.set (sec / 8) { l with exp := min l.exp e, secs := l.secs.set (sec % 8) x, used := k }
    else tb.set (sec / 8) { l with exp := e, secs := [(sec % 8, x)], used := k }
  | none => tb.set (sec / 8) { exp := e, secs := [(sec % 8, x)], used := k, way := way }

def dropSec (tb : Tbl LLine) (sec : Nat) : Tbl LLine :=
  match tb.find (sec / 8) with
  | some l => tb.set (sec / 8) { l with secs := l.secs.del (sec % 8) }
  | none => tb

def l1DropSec (s : State) (c sec : Nat) : State := setL1 s c (dropSec (l1Of s c) sec)
def l1DropLine (s : State) (c line : Nat) : State := setL1 s c ((l1Of s c).del line)
def rdcDropSec (s : State) (d sec : Nat) : State := setRdc s d (dropSec (rdcOf s d) sec)

/-- Bytes written over a sector image. -/
def overlay (sec : Nat) (data : List Byte) (bs : List (Nat × Byte)) : List Byte :=
  bs.foldl (fun (a : List Byte) (e : Nat × Byte) => if e.1 / 64 = sec then setAt a (e.1 % 64) e.2 else a) data

/-- Whether the bytes written cover the whole sector. -/
def coversSec (sec : Nat) (bs : List (Nat × Byte)) : Bool :=
  (List.range 64).all fun i => bs.any fun (e : Nat × Byte) => decide (e.1 = 64 * sec + i)

/-- A store updates a valid L1 sector that it writes, and clears its poison where it covers the sector (R67, R81). -/
def l1Update (s : State) (c sec : Nat) (bs : List (Nat × Byte)) : State :=
  match (l1Of s c).find (sec / 8) with
  | some l =>
    match l.secs.find (sec % 8) with
    | some x =>
      setL1 s c ((l1Of s c).set (sec / 8)
        { l with secs := l.secs.set (sec % 8) { x with data := overlay sec x.data bs, poison := x.poison && !(coversSec sec bs) } })
    | none => s
  | none => s

/-! ## Memory and poison (R81) -/

def poisoned (s : State) (sec : Nat) : Bool := s.ms.poison.contains sec
def setPoison (s : State) (sec : Nat) : State := s.withMs { s.ms with poison := insertNat sec s.ms.poison }
def clearPoison (s : State) (sec : Nat) : State :=
  s.withMs { s.ms with poison := s.ms.poison.filter fun x => decide (x ≠ sec) }

def writeBytes (s : State) (bs : List (Nat × Byte)) : State :=
  s.setMem (bs.foldl (fun (m : Mem) (e : Nat × Byte) => m.write e.1 e.2) s.ms.mem)

/-- Address of the header of Slot(HEAD) of a packet-mode control block (R111). -/
def headSlotPa (s : State) (cb : Nat) : Nat :=
  let cfg := s.ms.mem.read64 (cb + 8)
  bits (s.ms.mem.read64 (cb + 0x28)) 43 0 +
    (s.ms.mem.read32 (cb + 0x10)).toNat % 2 ^ bits cfg 36 32 * (16 * (bits cfg 8 4 + 1))

/-- Notifications of a performed store: to WAITs on the sector (R144), and to controllers whose head slot's header it
wrote while a consumer is parked or WAKE.EN is 1 (R120). -/
def noteStore (s : State) (sec : Nat) (bs : List (Nat × Byte)) : State :=
  let cbs := ((s.lq.waiters.map fun (w : Waiter) => w.q.cb) ++ s.lq.wakes).filter fun cb =>
    bs.any fun e => decide (e.1 = headSlotPa s cb)
  let s1 := if cbs = [] then s else s.withLq { s.lq with notes := cbs.foldl (fun a c => insertNat c a) s.lq.notes }
  if s1.th = [] then s1
  else
    { s1 with th := s1.th.mapVals fun (t : Thread) =>
        match t.blk with
        | some (.cond n x _) => if x = sec then { t with blk := some (.cond n x true) } else t
        | _ => t }

/-- What a store performed at the home does beside its bytes: the service-core copies invalidated (R82), the poison cleared where all
64 bytes are written (R81), the notifications. -/
def storeNotes (s1 : State) (sec : Nat) (bs : List (Nat × Byte)) : State :=
  let s2 := if coversSec sec bs then clearPoison s1 sec else s1
  let s3 := match s2.ms.dir.find (sec / 8) with
    | some e => setDir s2 (sec / 8) { e with svc := [] }
    | none => s2
  noteStore s3 sec bs

def storeBytes (s : State) (sec : Nat) (bs : List (Nat × Byte)) : State := storeNotes (writeBytes s bs) sec bs

/-- The WCT of a write performed now at the line's home (R86). -/
def wctNow (s : State) (line : Nat) : Nat := max (s.now (paDie (512 * line))) (horizonOf s line)

/-- The bytes of a value at an address. -/
def bytesAt (pa : Nat) (bs : List Byte) : List (Nat × Byte) := (List.range bs.length).zip bs |>.map fun e => (pa + e.1, e.2)

/-- The sectors of a range of physical addresses. -/
def spanSecs (pa n : Nat) : List Nat :=
  if n = 0 then [] else (List.range ((pa + n - 1) / 64 - pa / 64 + 1)).map fun i => pa / 64 + i

def mem64 (s : State) (pa : Nat) : DWord := s.ms.mem.read64 pa
def mem32 (s : State) (pa : Nat) : Word := s.ms.mem.read32 pa

/-- The sector as it stands at its home. -/
def homeSec (s : State) (sec t : Nat) : Sec := { data := s.ms.mem.readN (64 * sec) 64, poison := poisoned s sec, req := t }

/-! ## Ownership by an L1, and room in the caches (R62, R66, R70, R78) -/

/-- The DRAM accesses of a whole-sector write-back of an L1, charged to its core and never held (R174, R438). -/
def backSector (s : State) (core pid sec : Nat) : State :=
  writeApply ((List.range (writeNeed s sec pid true)).foldl (fun (a : State) _ => chargeBack a (64 * sec) core) s) sec pid core

/-- An owning L1 writes back the sectors that its atomics have written, its way is free, and it gives up ownership (R78). -/
def giveUp (s : State) (line : Nat) : State :=
  let s0 := match l1Owner s line with
    | some c =>
      let s1 := match ((l1Of s c).find line).bind fun (x : LLine) => x.own with
        | some o => o.dirty.foldl (fun (a : State) i => backSector a c o.pid (8 * line + i)) s
        | none => s
      l1DropLine s1 c line
    | none => s
  let e := dirEnt s0 line
  (List.range 8).foldl (fun (a : State) i => noteStore a (8 * line + i) (bytesAt (64 * (8 * line + i)) (List.replicate 64 0)))
    (setDir s0 line { e with owners := e.owners.filter Owner.isEngine })

/-- Directory eviction (R66): recall, raise EVH, free. -/
def dirEvict (s : State) (line : Nat) : State :=
  let s := if (l1Owner s line).isSome then giveUp s line else s
  let a := Reg.evh (homeSlice s (512 * line))
  let h := (dirEnt s line).hor
  delDir (if (s.reg a).toNat < h then s.setReg a (BitVec.ofNat 64 h) else s) line

/-- A directory entry for the line, evicting another of a full set (16 ways by 2048 sets): the one the environment
names, else the first that no engine owns. None while every one is owned by an engine. -/
def dirEnsure (s : State) (line : Nat) : Option State :=
  match s.ms.dir.find line with
  | some _ => some s
  | none =>
    let h := homeSlice s (512 * line)
    let set := s.ms.dir.filter fun e => decide (e.1 % 2048 = line % 2048 ∧ homeSlice s (512 * e.1) = h)
    let new := fun (x : State) => setDir x line { DirEnt.empty with hor := (x.reg (Reg.evh h)).toNat }
    if set.length < 16 then some (new s)
    else
      let cand := set.filter fun e => !(e.2.owners.any Owner.isEngine) && decide (e.2.excl = [])
      match cand.find? (fun e => decide (some e.1 = s.ev.opt)), cand.head? with
      | some e, _ => some (new (dirEvict s e.1))
      | none, some e => some (new (dirEvict s e.1))
      | none, none => none

/-- The lines of a cache in the set of a line, with their ways and use stamps. -/
def setLines (tb : Tbl LLine) (sets line : Nat) : List (Nat × Nat × Nat) :=
  (tb.filter fun e => decide (e.1 % sets = line % sets)).map fun e => (e.1, e.2.way, e.2.used)

/-- A way of a core's L1 for a new line: the first free one of the set, or that of its least recently used line, which leaves; an
owned line is written back first. -/
def l1Room (s : State) (c line : Nat) : Nat × State :=
  match pickWay (setLines (l1Of s c) 32 line) (2 ^ 20 - 1) 20 with
  | some (w, some v) =>
    (w, if ((l1Of s c).find v).any fun (x : LLine) => x.own.isSome then giveUp s v else l1DropLine s c v)
  | some (w, none) => (w, s)
  | none => (0, s)

def l1Fill (s : State) (c sec : Nat) (x : Sec) (e : Nat) : State :=
  match (l1Of s c).find (sec / 8) with
  | some l =>
    if l.own.isSome then s
    else
      let k := stamp s
      setL1 k.2 c (leaseFill (l1Of k.2 c) sec x e (k.2.now (coreDie c)) k.1)
  | none =>
    let r := l1Room s c (sec / 8)
    let k := stamp r.2
    setL1 k.2 c (leaseFill (l1Of k.2 c) sec x e (k.2.now (coreDie c)) k.1 r.1)

/-- A use of an L1 line makes it the most recently used. -/
def l1Touch (s : State) (c line : Nat) : State :=
  match (l1Of s c).find line with
  | some l => let k := stamp s; setL1 k.2 c ((l1Of k.2 c).set line { l with used := k.1 })
  | none => s

/-- A fill of an RDC for PID p, which takes a way of p's mask alone (R70); with none it allocates nothing. -/
def rdcFill (s : State) (d sec p : Nat) (x : Sec) (e : Nat) : State :=
  let k := stamp s
  match (rdcOf k.2 d).find (sec / 8) with
  | some _ => setRdc k.2 d (leaseFill (rdcOf k.2 d) sec x e (k.2.now d) k.1)
  | none =>
    match pickWay (setLines (rdcOf k.2 d) 1024 (sec / 8)) (k.2.regF (Reg.rdcWaymask d p) 15 0) with
    | some (w, v) =>
      let t := match v with
        | some y => (rdcOf k.2 d).del y
        | none => rdcOf k.2 d
      setRdc k.2 d (leaseFill t sec x e (k.2.now d) k.1 w)
    | none => k.2

/-- A use of an RDC's line makes it the most recently used. -/
def rdcTouch (s : State) (d line : Nat) : State :=
  match (rdcOf s d).find line with
  | some l => let k := stamp s; setRdc k.2 d ((rdcOf k.2 d).set line { l with used := k.1 })
  | none => s

/-- Recall from a service-core cache for a device fill (R87): M goes to O, E to S. -/
def svcShare (e : DirEnt) : DirEnt :=
  { e with svc := e.svc.mapVals fun (x : Moesi) =>
      match x with
      | .m => .o
      | .e => .s
      | y => y }

/-- A home grants a lease on a line to an L1 or to an RDC (R83): the expiry. -/
def grantLease (s : State) (line who p : Nat) : Nat × State :=
  let d := paDie (512 * line)
  let exp := s.now d + leaseLen s d p
  let e := svcShare (dirEnt s line)
  (exp, setDir s line { e with hor := max e.hor exp, holders := insertNat who e.holders })

/-! ## Accesses outside the queue of requests -/

/-- An access that was held once and is made now leaves the list of held ones. -/
def dropWaits (s : State) (r sec : Nat) : State :=
  if s.ms.waits = [] then s
  else s.withMs { s.ms with waits := s.ms.waits.filter fun (x : SluWait) => !(decide (x.r = r ∧ x.sec = sec)) }

/-- The DRAM accesses of one sector that a requester makes outside the queue of requests, and then `act`; false while
its sluice holds it (R174). What is admitted stays admitted, and what is held keeps its place. -/
def atSluice (s : State) (r sec need : Nat) (act : State → State) : Bool × State :=
  if need = 0 ∨ 73 ≤ r then (true, act (dropWaits s r sec))
  else
    let m := homeMc (64 * sec)
    let s1 := sluRoll s m r
    let old := s1.ms.waits.find? fun (x : SluWait) => decide (x.r = r ∧ x.sec = sec)
    let had := (old.map fun (x : SluWait) => x.adm).getD 0
    if sluDue s1 m r || old.any fun (x : SluWait) => x.held then (false, s1)
    else
      let x := sluAdmitN s1 m r (need - had)
      if x.1 = need - had then (true, act (dropWaits x.2 r sec))
      else
        let i := (dropWaits x.2 r sec).fresh
        let id := (old.map fun (x : SluWait) => x.id).getD i.1
        (false, i.2.withMs { i.2.ms with waits := i.2.ms.waits ++ [{ id := id, r := r, sec := sec, adm := had + x.1, held := true }] })

/-- A home takes an access to a line: its slice holds no new request (R412), no engine owns the line (R79) and no service core waits
for E or M (R87). An L1 that owns it is recalled first (R78). -/
def homeTakes (s : State) (line : Nat) : Option State :=
  if s.gov.holdSlices.contains (homeSlice s (512 * line)) || engineOwned s line || decide ((dirEnt s line).excl ≠ []) then none
  else some (if (l1Owner s line).isSome then giveUp s line else s)

/-- Read one sector at its home for PID p; false while the home or the sluice holds the access. -/
def homeRead (s : State) (r p sec : Nat) : Bool × State :=
  match homeTakes s (sec / 8) with
  | some s1 => atSluice s1 r sec (readNeed s1 sec) fun a => readApply a sec p
  | none => (false, s)

/-- The mill die whose RDC a requester's reads of remote lines go through (R65). -/
def reqDie (r : Nat) : Option Nat :=
  if r < 56 then some (coreDie r) else if r = 69 ∨ r = 71 then some 0 else if r = 70 ∨ r = 72 then some 1 else none

/-- The RDC through which a requester reads a sector; none for one that reads it at its home. -/
def readRdc (r sec : Nat) : Option Nat :=
  match reqDie r with
  | some d => if paDie (64 * sec) = d then none else some d
  | none => none

/-- A live copy of a sector in the RDC that a requester reads it through. -/
def rdcCopy (s : State) (r sec : Nat) : Option Sec :=
  (readRdc r sec).bind fun d => (leaseHit (rdcOf s d) sec (s.now d) 0).map fun x => x.1

/-- Read one sector for PID p: from the RDC of the requester's die, which fills from the remote home, or at its home (R65). -/
def readSector (s : State) (r p sec : Nat) : Bool × State :=
  match readRdc r sec with
  | none => homeRead s r p sec
  | some d =>
    if (rdcCopy s r sec).isSome then (true, rdcTouch s d (sec / 8))
    else
      match homeRead s r p sec with
      | (true, s1) =>
        match dirEnsure s1 (sec / 8) with
        | some s2 =>
          let g := grantLease s2 (sec / 8) (100 + d) p
          (true, rdcFill g.2 d sec p (homeSec g.2 sec (s1.now d)) g.1)
        | none => (false, s1)
      | x => x

/-- A byte as a requester reads it: of the RDC's copy, or at its home. -/
def viewByte (s : State) (r pa : Nat) : Byte :=
  match rdcCopy s r (secOf pa) with
  | some x => x.data.getD (pa % 64) 0
  | none => s.ms.mem.read pa

def viewBytes (s : State) (r pa n : Nat) : List Byte := (List.range n).map fun i => viewByte s r (pa + i)

/-- A word of a sector as a requester reads it. -/
def view64 (s : State) (r pa : Nat) : DWord :=
  if (rdcCopy s r (secOf pa)).isNone then mem64 s pa else BitVec.ofNat 64 (leNat (viewBytes s r pa 8))
def view32 (s : State) (r pa : Nat) : Word :=
  if (rdcCopy s r (secOf pa)).isNone then mem32 s pa else BitVec.ofNat 32 (leNat (viewBytes s r pa 4))

/-- The poison with which a requester reads a sector (R81). -/
def viewPoison (s : State) (r sec : Nat) : Bool :=
  match rdcCopy s r sec with
  | some x => x.poison
  | none => poisoned s sec

/-- Make one sector at its home ready to be written for PID p (R438), whatever holds the line. -/
def writeSectorNow (s : State) (r p sec : Nat) (whole : Bool) : Bool × State :=
  atSluice s r sec (writeNeed s sec p whole) fun a => writeApply a sec p r

/-- The RDC of the requester's die drops its copy of a sector that it forwards a write to (R65). -/
def forwardDrop (s : State) (r sec : Nat) : State :=
  match readRdc r sec with
  | some d => if ((rdcOf s d).find (sec / 8)).isSome then rdcDropSec s d sec else s
  | none => s

/-- The same by a requester for which the home takes the access. -/
def writeSector (s : State) (r p sec : Nat) (whole : Bool) : Bool × State :=
  match homeTakes s (sec / 8) with
  | some s1 => writeSectorNow (forwardDrop s1 r sec) r p sec whole
  | none => (false, s)

/-- The same of several sectors, of which only a part is written. -/
def writeSectors (s : State) (r p : Nat) : List Nat → Bool × State
  | [] => (true, s)
  | n :: t =>
    match writeSector s r p n false with
    | (true, s1) => writeSectors s1 r p t
    | x => x

/-- The same of several sectors that have been read for the write already. -/
def rewriteSectors (s : State) (r p : Nat) : List Nat → Bool × State
  | [] => (true, s)
  | n :: t =>
    match writeSector s r p n true with
    | (true, s1) => rewriteSectors s1 r p t
    | x => x

/-- Bytes written at their homes for requester r and PID p, sector by sector (its own ordering is the caller's): each slice allocates
the sector and marks it dirty where R70 permits (R438); the largest WCT. -/
def homeWrite (s : State) (r p pa : Nat) (bs : List Byte) : State × Nat :=
  let l := bytesAt pa bs
  let secs := (l.map fun e => e.1 / 64).foldl (fun (a : List Nat) x => insertNat x a) []
  let s' := secs.foldl (fun (a : State) x => storeBytes (writeApply a x p r) x (l.filter fun e => decide (e.1 / 64 = x))) s
  (s', secs.foldl (fun (w : Nat) x => max w (wctNow s' (x / 8))) 0)

def homeWrite64 (s : State) (r p pa : Nat) (v : DWord) : State × Nat := homeWrite s r p pa (leBytes 8 v.toNat)

/-- Words of free values: what a dropped read delivers, and what the spec gives no layout for. -/
def freeSector (s : State) : Nat → List Byte × State
  | 0 => ([], s)
  | n + 1 =>
    let x := s.freeVal
    let r := freeSector x.2 n
    (leBytes 8 x.1.toNat ++ r.1, r.2)

/-- The homes of a save area take the accesses of a save port: no engine owns a line of it, no service core waits for one and no slice
holds one; an L1 that owns one is recalled (R78, R79, R412). -/
def regionTakes (s : State) (pa n : Nat) : Option State :=
  let here := (s.ms.dir.filter fun e => decide (pa / 512 ≤ e.1 ∧ 512 * e.1 < pa + n)).map (·.1)
  let held := decide (s.gov.holdSlices ≠ []) &&
    (List.range ((pa + n - 1) / 512 - pa / 512 + 1)).any fun i => s.gov.holdSlices.contains (homeSlice s (512 * (pa / 512 + i)))
  if held then none
  else here.foldl (fun (a : Option State) l => a.bind fun b => homeTakes b l) (some s)

/-- Sectors of a save image of which the spec gives the size and no layout: each byte is a free value. A save is counted by no sluice
(R169). -/
def writeImage (s : State) (p pa : Nat) : Nat → State
  | 0 => s
  | n + 1 =>
    let f := freeSector s 8
    writeImage (homeWrite f.2 73 p pa f.1).1 p (pa + 64) n

/-- A sector that the engine of a die reads for the unit under way, at its home where `cell` says that it is one of a cell (R382); false
while the home or its sluice holds it. -/
def unitSector (s : State) (d p : Nat) (cell : Bool) (sec : Nat) : Bool × State :=
  let had := Tbl.get [] s.ms.unitSecs d
  if had.contains sec then (true, s)
  else
    match if cell then homeRead s (69 + d) p sec else readSector s (69 + d) p sec with
    | (true, s1) => (true, s1.withMs { s1.ms with unitSecs := s1.ms.unitSecs.set d (insertNat sec had) })
    | x => x

/-- The sectors of cells. -/
def cellSectors (s : State) (d p : Nat) : List Nat → Bool × State
  | [] => (true, s)
  | n :: t =>
    match unitSector s d p true n with
    | (true, s1) => cellSectors s1 d p t
    | x => x

/-- The unit under way ends. -/
def endUnit (s : State) (d : Nat) : State := s.withMs { s.ms with unitSecs := s.ms.unitSecs.del d }

/-! ## Horizons of agents (R82, R86) -/

/-- Completions discarded for retired generations are counted on the die where they arrive (R80). -/
def lateDiscard (s : State) (d n : Nat) : State :=
  s.setReg (Reg.lateDiscard d) (BitVec.ofNat 64 (min ((s.reg (Reg.lateDiscard d)).toNat + n) (2 ^ 64 - 1)))

def setWalkerAt (s : State) (tc e : Nat) (f : Walker → Walker) : State :=
  match s.tiles.find tc with
  | some t =>
    match t.walkers[e]? with
    | some w => s.setTile tc { t with walkers := setAt t.walkers e (f w) }
    | none => s
  | none => s

/-- The WCT of a tile core's write or reduction raises the engine's horizon (R86); for a saved program it raises the HORIZON of the
image (R324). -/
def tileWct (s : State) (ctx : Option Ctx) (tc e wct : Nat) : State :=
  match ctx with
  | none => s
  | some x =>
    let here := (s.tiles.find? fun z => decide (z.2.card = some x ∧ z.2.walkers ≠ [])).map (·.1)
    match here with
    | some n => setWalkerAt s n e fun w => { w with ch := max w.ch wct, wct := max w.wct wct }
    | none =>
      if (cardSt s x.card).savedOn = some tc ∧ ctxLive s x then
        let pa := cardF s x.card 7 43 16 * 65536 + 0x28
        if (mem64 s pa).toNat < wct then (homeWrite64 s 73 (cardPid s x.card) pa (BitVec.ofNat 64 wct)).1 else s
      else if ctxLive s x then s
      else lateDiscard s (coreDie (tc + 32)) 1

/-- Raise an agent's completion horizon to a WCT. -/
def raiseCh (s : State) (a : Agent) (wct : Nat) : State :=
  match a with
  | .warp w =>
    match s.warps.find w with
    | some x => s.setWarp w { x with ch := max x.ch wct }
    | none => s
  | .teng tc e => setWalkerAt s tc e fun w => { w with ch := max w.ch wct }
  | .pce d =>
    match s.pces.find d with
    | some x => s.setPce d { x with ch := max x.ch wct }
    | none => s
  | .qp d => { s with qpch := s.qpch.set d (max (Tbl.get 0 s.qpch d) wct) }
  | .sp n =>
    match s.sp.find n with
    | some x => s.setSp n { x with wct := max x.wct wct }
    | none => s
  | .ddx => s.withDdx { s.ddx with ch := max s.ddx.ch wct }
  | .dist _ | .svc _ => s

/-! ## Requests -/

def ReqKind.isWrite : ReqKind → Bool
  | .store _ | .red _ _ _ _ _ | .redAcross _ _ _ _ => true
  | _ => false

/-- The RDC drops its copy of each sector that it forwards a store or a reduction to (R65). -/
def rdcForward (s : State) (d : Nat) (k : ReqKind) (sec : Nat) : State :=
  match k with
  | .redAcross _ _ pas _ => pas.foldl (fun (a : State) x => rdcDropSec a d (secOf x)) s
  | _ => rdcDropSec s d sec

/-- Issue a request at the end of the arrival order. -/
def issueReq (s : State) (a : Agent) (rq pid : Nat) (ctx : Option Ctx) (die core : Nat) (k : ReqKind) (sec tf : Nat)
    (op : Option Nat) : State :=
  let x := (if k.isWrite && decide (die < 2 ∧ paDie (64 * sec) ≠ die) then rdcForward s die k sec else s).fresh
  x.2.withMs { x.2.ms with reqs := x.2.ms.reqs ++
    [{ id := x.1, agent := a, rq := rq, pid := pid, ctx := ctx, issue := x.2.now die, die := die, core := core, kind := k,
       sec := sec, fresh := tf, op := op, adm := 0, held := false }] }

def ReqKind.isEngine : ReqKind → Bool
  | .engine _ _ => true
  | _ => false

/-- An operation of an atomic of the sector, pending at a warp. -/
def PendOp.atomOn (o : PendOp) (sec : Nat) : Bool :=
  match o.kind with
  | .atom _ false _ _ _ _ _ => o.lanes.any fun (l : LaneAcc) => decide (secOf l.pa = sec)
  | _ => false

/-- Whether an operation in flight is an asynchronous copy, whose accesses are unordered against every other (R102). -/
def copyOp (s : State) (op : Option Nat) : Bool :=
  match op.bind s.ops.find with
  | some o =>
    (match o.kind with
     | .copy _ _ => true
     | _ => false)
  | none => false

def ReqKind.isFill : ReqKind → Bool
  | .fill | .rdcFill => true
  | _ => false

/-- Whether an earlier load of the same agent of the sector has not been performed: loads of one agent never go backward (R90). -/
def earlierLoad (s : State) (id : Nat) (a : Agent) (sec : Nat) : Bool :=
  s.ms.reqs.any fun (x : Req) => decide (x.id < id ∧ x.agent = a ∧ x.sec = sec) && x.kind.isFill && !(copyOp s x.op)

/-- Whether an earlier store or reduction of the same core, or an earlier atomic of the same warp, to the sector has
not been performed (R90). -/
def ownEarlier (s : State) (id core : Nat) (a : Agent) (sec : Nat) : Bool :=
  (s.ms.reqs.any fun (x : Req) => decide (x.id < id ∧ x.core = core ∧ x.sec = sec) && x.kind.isWrite) ||
    s.ops.any fun e => decide (e.1 < id ∧ a = .warp e.2.wid) && e.2.atomOn sec

/-- Give a fill's sector to the operation that waits for it. -/
def giveSec (s : State) (op : Option Nat) (sec : Nat) (x : Sec) : State :=
  match op with
  | some i =>
    match s.ops.find i with
    | some o => s.setOp i { o with got := if (o.got.find sec).isSome then o.got else o.got.set sec x }
    | none => s
  | none => s

/-- A sector as it enters a core's L1: stores of the core that wait to be performed are already in it (R67). -/
def withOwnStores (s : State) (core sec : Nat) (x : Sec) : Sec :=
  { x with data := s.ms.reqs.foldl (fun (d : List Byte) (q : Req) =>
      match q.kind with
      | .store bs => if q.core = core then overlay sec d bs else d
      | _ => d) x.data }

/-- No earlier access of its own keeps a fill from being served (R90); that of an asynchronous copy is unordered (R102). -/
def fillInOrder (s : State) (q : Req) : Bool :=
  copyOp s q.op || (!(ownEarlier s q.id q.core q.agent q.sec) && !(q.kind.isFill && earlierLoad s q.id q.agent q.sec))

/-- A fill can be served now: no earlier access of its own, no waiting E or M request (R87), no engine owner (R79),
and no owner L1 but the requester's own (R78). -/
def fillReady (s : State) (q : Req) : Bool :=
  let e := dirEnt s (q.sec / 8)
  fillInOrder s q && decide (e.excl = []) && !(engineOwned s (q.sec / 8)) &&
    (match l1Owner s (q.sec / 8) with
     | some c => decide (c = q.core)
     | none => true)

/-- A fill of an L1 is served with the sector that its die's RDC holds, or has just been given, under a lease to t (R85). -/
def rdcGive (s : State) (q : Req) (x : Sec) (t : Nat) : State :=
  let exp := min t (s.now q.die + leaseLen s q.die q.pid)
  let y := { x with req := min x.req q.issue }
  delReq (giveSec (l1Fill s q.core q.sec (withOwnStores s q.core q.sec y) exp) q.op q.sec x) q.id

/-- Where the RDC has allocated nothing for a sector that it has fetched (R70), the fills that wait for the sector are served as it
passes. -/
def rdcPass (s : State) (q : Req) (x : Sec) (t : Nat) : State :=
  if ((rdcOf s q.die).find (q.sec / 8)).isSome then s
  else
    (s.ms.reqs.filter fun (r : Req) => decide (r.kind = .rdcFill ∧ r.die = q.die ∧ r.sec = q.sec ∧ r.fresh ≤ q.issue)).foldl
      (fun (a : State) r => if fillInOrder a r then rdcGive a r x t else a) s

/-- A sector of a line that a core's L1 owns has moved into it, and is dirty where an atomic has written it (R62, R78). -/
def ownTake (s : State) (core sec : Nat) (dirty : Bool) : State :=
  match (l1Of s core).find (sec / 8) with
  | some l =>
    match l.own with
    | some o =>
      setL1 s core ((l1Of s core).set (sec / 8) { l with
        own := some { o with valid := insertNat (sec % 8) o.valid, dirty := if dirty then insertNat (sec % 8) o.dirty else o.dirty } })
    | none => s
  | none => s

/-- HOME_READ_FILL (R83, R87): serve a fill at the home, with its lease. -/
def homeFill (s : State) (q : Req) : State :=
  let line := q.sec / 8
  if !(fillReady s q) then s
  else
    match admitReq s q (readNeed s q.sec) with
    | (false, s1) => s1
    | (true, s1) =>
      match dirEnsure s1 line with
      | none => s1
      | some s2 =>
        let own := (l1Owner s2 line).isSome
        let s3 := readApply s2 q.sec q.pid
        let x := homeSec s3 q.sec q.issue
        if own then delReq (giveSec (ownTake s3 q.core q.sec false) q.op q.sec x) q.id
        else
          let g := grantLease s3 line (match q.kind with
            | .homeForRdc => 100 + q.die
            | _ => q.core) q.pid
          match q.kind with
          | .homeForRdc => rdcPass (delReq (rdcFill g.2 q.die q.sec q.pid x g.1) q.id) q x g.1
          | _ => delReq (giveSec (l1Fill g.2 q.core q.sec (withOwnStores g.2 q.core q.sec x) g.1) q.op q.sec x) q.id

/-- RDC_FILL (R65, R85): serve a remote fill from the die's RDC, or send it to the remote home. -/
def rdcServe (s : State) (q : Req) : State :=
  if !(fillInOrder s q) then s
  else
    match leaseHit (rdcOf s q.die) q.sec (s.now q.die) q.fresh with
    | some (x, t) => rdcGive (rdcTouch s q.die (q.sec / 8)) q x t
    | none =>
      if s.ms.reqs.any (fun (r : Req) => decide (r.kind = .homeForRdc ∧ r.die = q.die ∧ r.sec = q.sec ∧ q.fresh ≤ r.issue))
      then s
      else issueReq s q.agent q.rq q.pid q.ctx q.die q.core .homeForRdc q.sec q.fresh none

/-- Fill requests of an L1 miss: at the home, or through the RDC where the home is on the other die (R65). -/
def issueFill (s : State) (a : Agent) (pid : Nat) (ctx : Option Ctx) (core sec tf : Nat) (op : Option Nat) : State :=
  let d := coreDie core
  issueReq s a core pid ctx d core (if paDie (64 * sec) = d then .fill else .rdcFill) sec tf op

/-- A write can be performed now at the home: its own earlier writes are, and no L1 owns the line (R78, R90). A
reduction also waits for an engine owner (R79). -/
def writeReady (s : State) (q : Req) : Bool :=
  !(ownEarlier s q.id q.core q.agent q.sec) && (l1Owner s (q.sec / 8)).isNone &&
    (match q.kind with
     | .red _ _ _ _ _ | .redAcross _ _ _ _ => !(engineOwned s (q.sec / 8))
     | _ => true)

/-- A WCT arrives at the agent of a request; one that carries a retired generation is discarded (R80, R86). -/
def wctTo (s : State) (q : Req) (w : Nat) : State :=
  let retired := match q.ctx with
    | some x => !(ctxLive s x)
    | none => false
  match q.agent with
  | .teng tc e => tileWct s q.ctx tc e w
  | .pce d =>
    match s.pces.find? fun e => e.2.card.isSome && decide (e.2.card = q.ctx) with
    | some e => s.setPce e.1 { e.2 with ch := max e.2.ch w }
    | none => if retired then lateDiscard s d 1 else s
  | .warp i => if retired && (s.warps.find i).isNone then lateDiscard s q.die 1 else raiseCh s q.agent w
  | a => raiseCh s a w

/-- A write has been performed at a home for a requester: the WCT goes to its agent. -/
def noteWct (s : State) (q : Req) : State := wctTo s q (wctNow s (q.sec / 8))

/-- What follows every write performed for a requester, and the request ends. -/
def finishWrite (s : State) (q : Req) : State := delReq (noteWct s q) q.id

/-- HOME_STORE (R82, R86, R438): perform a plain store at its home. -/
def homeStore (s : State) (q : Req) (bs : List (Nat × Byte)) : State :=
  if !(writeReady s q) then s
  else
    match admitReq s q (writeNeed s q.sec q.pid (coversSec q.sec bs)) with
    | (false, s1) => s1
    | (true, s1) => finishWrite (storeBytes (writeApply s1 q.sec q.pid q.rq) q.sec bs) q

/-- The new value of a reduction or atomic (R290, R291) and the flags of a floating addition. -/
def redValue (op : RedOp) (sg : Bool) (size : Nat) (old b c : DWord) : DWord × Nat :=
  let n := 8 * size
  let x := old.toNat % 2 ^ n
  let y := b.toNat % 2 ^ n
  let less := if sg then decide (signExt x n < signExt y n) else decide (x < y)
  match op with
  | .add => (BitVec.ofNat 64 ((x + y) % 2 ^ n), 0)
  | .min => (BitVec.ofNat 64 (if less then x else y), 0)
  | .max => (BitVec.ofNat 64 (if less then y else x), 0)
  | .and => (BitVec.ofNat 64 (x &&& y), 0)
  | .or => (BitVec.ofNat 64 (x ||| y), 0)
  | .xor => (BitVec.ofNat 64 (x ^^^ y), 0)
  | .fadd => let r := Fmt.fp32.add .rne (x % 2 ^ 32) (y % 2 ^ 32); (BitVec.ofNat 64 r.1, r.2)
  | .exch => (BitVec.ofNat 64 y, 0)
  | .cas => (BitVec.ofNat 64 (if x = y then c.toNat % 2 ^ n else x), 0)

/-- The value of `size` bytes at an address. -/
def memVal (m : Mem) (pa size : Nat) : DWord := BitVec.ofNat 64 (leNat (m.readN pa size))

/-- HOME_REDUCTION (R78, R291): perform a non-returning reduction at the home; into a poisoned sector nothing. -/
def homeRed (s : State) (q : Req) (op : RedOp) (sg : Bool) (size pa : Nat) (v : DWord) : State :=
  if !(writeReady s q) then s
  else
    match admitReq s q (writeNeed s q.sec q.pid false) with
    | (false, s1) => s1
    | (true, s1) =>
      let s2 := writeApply s1 q.sec q.pid q.rq
      let r := redValue op sg size (memVal s2.ms.mem pa size) v 0
      let s3 := if poisoned s2 q.sec then s2 else storeBytes s2 q.sec (bytesAt pa (leBytes size r.1.toNat))
      finishWrite s3 q

/-- A reduction into an element across two sectors (R352): one operation on its bytes, at the homes of both. -/
def homeRedAcross (s : State) (q : Req) (op : RedOp) (sg : Bool) (pas : List Nat) (v : DWord) : State :=
  let secs := pas.foldl (fun (a : List Nat) x => insertNat (secOf x) a) []
  let rest := secs.filter fun n => decide (n ≠ q.sec)
  if !(secs.all fun n => writeReady s { q with sec := n }) then s
  else
    match admitReq s q (writeNeed s q.sec q.pid false) with
    | (false, s1) => s1
    | (true, s1) =>
      match writeSectors s1 q.rq q.pid rest with
      | (false, s2) => s2
      | (true, s2) =>
        let s3 := writeApply s2 q.sec q.pid q.rq
        let r := redValue op sg pas.length (BitVec.ofNat 64 (leNat (pas.map fun x => s3.ms.mem.read x))) v 0
        let bs := pas.zip (leBytes pas.length r.1.toNat)
        let s4 := if secs.any (poisoned s3) then s3
          else secs.foldl (fun (a : State) n => storeBytes a n (bs.filter fun e => decide (secOf e.1 = n))) s3
        finishWrite (rest.foldl (fun (a : State) n => noteWct a { q with sec := n }) s4) q

/-! ## Ownership (R78, R79) -/

/-- Nobody but the engine itself owns the line. -/
def engineMay (s : State) (line : Nat) (a : Agent) : Bool :=
  (dirEnt s line).owners.all fun (o : Owner) =>
    match o with
    | .l1 _ _ => false
    | .engine r => (findReq s r).any fun (q : Req) => decide (q.agent = a)

/-- An engine takes ownership of a line from the issue of its write, and the RDC of its die holds no copy while that lasts (R65). It
waits for it while another owns the line, or while every way of the directory's set is owned (assumption 24). -/
def takeLine (s : State) (line id : Nat) : State :=
  match findReq s id with
  | some q =>
    if !(engineMay s line q.agent) || s.gov.holdSlices.contains (homeSlice s (512 * line)) then s
    else
      match dirEnsure s line with
      | some s1 =>
        let s2 := if q.die < 2 ∧ paDie (512 * line) ≠ q.die then setRdc s1 q.die ((rdcOf s1 q.die).del line) else s1
        let e := dirEnt s2 line
        setDir s2 line { e with owners := e.owners ++ [.engine id] }
      | none => s
  | none => s

/-- Issue an engine write of bytes of one sector: it owns the line until it is returned at release. -/
def issueEngine (s : State) (a : Agent) (rq pid : Nat) (ctx : Option Ctx) (die core sec : Nat)
    (bs : List (Nat × Byte)) (bad : Bool) (op : Option Nat) : State :=
  let id := s.next
  takeLine (issueReq s a rq pid ctx die core (.engine bs bad) sec 0 op) (sec / 8) id

/-- The request of an engine owns its line. -/
def ownsLine (s : State) (q : Req) : Bool := (dirEnt s (q.sec / 8)).owners.contains (.engine q.id)

/-- An engine write may be returned when its engine owns the line and it is the oldest engine write of the sector. -/
def engineReady (s : State) (q : Req) : Bool :=
  ownsLine s q &&
    !(s.ms.reqs.any fun (x : Req) => decide (x.id < q.id ∧ x.sec = q.sec) && x.kind.isEngine)

/-- ENGINE_LINE_RELEASE (R79): the written sector is returned to the home and performed as a store. -/
def engineRelease (s : State) (q : Req) (bs : List (Nat × Byte)) (bad : Bool) : State × Option Nat :=
  let s := if ownsLine s q then s else takeLine s (q.sec / 8) q.id
  if !(engineReady s q) then (s, none)
  else
    match admitReq s q (writeNeed s q.sec q.pid (coversSec q.sec bs)) with
    | (false, s1) => (s1, none)
    | (true, s1) =>
      let s2 := storeBytes (writeApply s1 q.sec q.pid q.rq) q.sec bs
      let s3 := if bad then setPoison s2 q.sec else s2
      let e := dirEnt s3 (q.sec / 8)
      let s4 := setDir s3 (q.sec / 8) { e with owners := e.owners.filter fun o => decide (o ≠ .engine q.id) }
      (delReq s4 q.id, some (wctNow s4 (q.sec / 8)))

/-- The lines that a request needs at their homes. -/
def Req.lines (q : Req) : List Nat :=
  match q.kind with
  | .redAcross _ _ pas _ => pas.map lineOf
  | _ => [q.sec / 8]

/-- Whether anything waits for an L1's ownership of a line to end. -/
def recallWanted (s : State) (line core : Nat) : Bool :=
  (s.ms.reqs.any fun (q : Req) => q.lines.contains line && (q.kind.isWrite || q.kind.isEngine || decide (q.core ≠ core))) ||
    decide ((dirEnt s line).excl ≠ []) ||
    s.ops.any fun e => decide (e.2.core ≠ core) && e.2.lanes.any fun (l : LaneAcc) => decide (lineOf l.pa = line)

/-- A sector of a line that the core's L1 owns, for an access of its own: moved in from the home where it is not there yet (R62, R78);
false while the core's sluice holds the read. -/
def ownSector (s : State) (core pid sec : Nat) : Bool × State :=
  match ((l1Of s core).find (sec / 8)).bind fun (x : LLine) => x.own with
  | some o =>
    if o.valid.contains (sec % 8) then (true, s)
    else atSluice s core sec (readNeed s sec) fun a => ownTake (readApply a sec pid) core sec false
  | none => (true, s)

def ownSectors (s : State) (core pid : Nat) : List Nat → Bool × State
  | [] => (true, s)
  | n :: t =>
    match ownSector s core pid n with
    | (true, s1) => ownSectors s1 core pid t
    | x => x

/-- OWNER_RECALL_COMPLETE (R78): the owning L1 writes the line back and gives up ownership. -/
def recallL1 (s : State) (line : Nat) : State :=
  match l1Owner s line with
  | some c =>
    if recallWanted s line c then giveUp s line else s
  | none => s

/-- A value-returning atomic's line: the L1 owns it, or takes ownership now when nobody else holds it so (R78, R86).
The line has a way in the L1 from then on (R62). The WCT of the grant. -/
def l1Own (s : State) (core pid line : Nat) : Option (State × Nat) :=
  let e := dirEnt s line
  match e.owners.findSome? (fun (o : Owner) => match o with
    | .l1 c w => if c = core then some w else none
    | .engine _ => none) with
  | some w => if e.owners.any Owner.isEngine then none else some (s, w)
  | none =>
    if e.owners ≠ [] ∨ e.excl ≠ [] ∨ s.gov.holdSlices.contains (homeSlice s (512 * line)) then none
    else
      match dirEnsure s line with
      | none => none
      | some s1 =>
        let e1 := dirEnt s1 line
        let w := wctNow s1 line
        let s2 := setDir s1 line { e1 with svc := [], owners := [.l1 core w], holders := insertNat core e1.holders }
        let r := l1Room (l1DropLine s2 core line) core line
        let k := stamp r.2
        let s3 := setL1 k.2 core ((l1Of k.2 core).set line
          { exp := 0, secs := [], used := k.1, way := r.1, own := some { pid := pid, valid := [], dirty := [] } })
        some (setRdc s3 (coreDie core) ((rdcOf s3 (coreDie core)).del line), w)

/-! ## Service cores (R66, R87, R105) -/

/-- A line is the latest used of a cache of `cap` lines. -/
def cacheIn (cap line : Nat) (l : List Nat) : List Nat := (line :: l.filter fun x => decide (x ≠ line)).take cap

/-- The line of a cluster's L2 that a new one replaces leaves its caches: the cluster's cores hold it no more (assumption 93). -/
def svcLeave (s : State) (cl : Nat) (lines : List Nat) : State :=
  lines.foldl (fun (a : State) l => setDir a l { dirEnt a l with svc := (dirEnt a l).svc.filter fun e => decide (e.1 / 4 ≠ cl) }) s

/-- A line that a service core holds is in its instruction or data cache of 64 lines and in its cluster's L2 of 4096 (R14); what has
been invalidated since leaves them. -/
def svcKeep (s : State) (sc line : Nat) (instr : Bool) : State :=
  let cl := sc / 4
  let l2 := (Tbl.get [] s.l2 cl).filter fun x => decide (x ≠ line) && (dirEnt s x).svc.any fun e => decide (e.1 / 4 = cl)
  let s1 := svcLeave { s with l2 := s.l2.set cl (cacheIn 4096 line l2) } cl (l2.drop 4095)
  let mine := fun (l : List Nat) => l.filter fun x => ((dirEnt s1 x).svc.find sc).isSome
  let c := svcCore s1 sc
  setSvc s1 sc (if instr then { c with ic := cacheIn 64 line (mine c.ic), dc := mine c.dc }
    else { c with dc := cacheIn 64 line (mine c.dc), ic := mine c.ic })

/-- A service core asks for E or M, with the store it is for. -/
def exclRequest (s : State) (sc pa : Nat) (data : List Byte) : State :=
  match dirEnsure s (lineOf pa) with
  | some s1 =>
    let e := dirEnt s1 (lineOf pa)
    setDir s1 (lineOf pa) { e with excl := e.excl ++ [{ sc := sc, pa := pa, data := data }] }
  | none => s

/-- The accesses of a service core's store to the sectors it writes, for the PID of its cluster's fills (R69). -/
def svcSectors (s : State) (sc : Nat) (bs : List (Nat × Byte)) : List Nat → Bool × State
  | [] => (true, s)
  | n :: t =>
    match writeSectorNow s (65 + sc / 4) (s.regF (Reg.clPid (sc / 4)) 3 0) n (coversSec n bs) with
    | (true, s1) => svcSectors s1 sc bs t
    | x => x

/-- The grant of the oldest waiting request at Reached(H): the service core holds M and its store is performed. -/
def exclGrant (s : State) (line : Nat) : State :=
  let e := dirEnt s line
  match e.excl with
  | x :: rest =>
    if e.hor ≤ s.now (paDie (512 * line)) ∧ e.owners = [] then
      let bs := (bytesAt x.pa x.data).filter fun b => decide (b.1 / 512 = line)
      let secs := (bs.map fun b => b.1 / 64).foldl (fun (a : List Nat) n => insertNat n a) []
      match svcSectors s x.sc bs secs with
      | (false, s0) => s0
      | (true, s0) =>
      let s1 := setDir s0 line { e with excl := rest, svc := [] }
      let s2 := secs.foldl (fun (a : State) n =>
        let w := bs.filter fun b => decide (b.1 / 64 = n)
        let a1 := writeBytes a w
        if coversSec n w then clearPoison a1 n else a1) s1
      let e2 := dirEnt s2 line
      svcKeep (setDir s2 line { e2 with svc := [(x.sc, if x.data = [] then .e else .m)] }) x.sc line false
    else s
  | [] => s

end Sys2Proof.Machine
end

