-- ==== Sys2Proof/Machine/Walk.lean ====
section
/-! DEFINITION. Translation of the device engines (R72 to R76): Sv48 walks, first touch, translation caches and
shoot-downs. -/

namespace Sys2Proof.Machine

/-- What an access does with a page; `look` needs only U = 1 (a handle with neither RD nor WR, R77). -/
inductive Acc
  | read | write | rw | exec | look
  deriving DecidableEq, Repr

def Acc.reads : Acc → Bool
  | .read | .rw => true
  | _ => false

def Acc.writes : Acc → Bool
  | .write | .rw => true
  | _ => false

/-- A translation: a physical address, a trap code and reason, or a wait for a first-touch frame. -/
inductive Tr
  | ok (pa : Nat)
  | trap (code reason : Nat)
  | wait
  deriving DecidableEq, Repr

/-- An address space in use (R72, R75): die, translation cache, ASID, root PPN and PID. -/
structure Space where
  die : Nat
  unit : Nat
  asid : Nat
  root : Nat
  pid : Nat
  deriving DecidableEq, Repr

def spaceOf (satp : DWord) (die unit pid : Nat) : Space :=
  { die := die, unit := unit, asid := bits satp 59 44, root := bits satp 43 0, pid := pid }

/-- The sluice requester (R173) of a translation cache's unit: a core, a path coverage engine, a queue processor or a die
distributor; 73 for the DDX and the home controllers, which have none. -/
def unitRequester (u : Nat) : Nat :=
  if u < 56 then u
  else if u = 140 ∨ u = 141 then u - 71
  else if u = 100 ∨ u = 101 then u - 29
  else if u = 130 ∨ u = 131 then u - 59
  else 73

def Space.requester (x : Space) : Nat := unitRequester x.unit

/-- A valid address-space root (R72). -/
def satpOk (satp : DWord) : Bool := decide (bits satp 63 60 = 9 ∧ bits satp 43 26 = 0)

def canonical (va : Nat) : Bool := decide (va / 2 ^ 47 = 0 ∨ va / 2 ^ 47 = 2 ^ 17 - 1)

/-- Reserved fields, N and PBMT of a valid PTE (R72). -/
def pteFmtOk (p : DWord) (level : Nat) (leaf : Bool) : Bool :=
  decide (bits p 60 54 = 0 ∧ bits p 62 61 = 0) &&
    (!(bit p 63) || (leaf && decide (level = 0 ∧ bits p 13 10 = 8))) &&
    (!(leaf && decide (level = 1)) || decide (bits p 18 10 = 0)) &&
    (leaf || decide (bits p 7 6 = 0 ∧ bits p 4 4 = 0))

/-- Physical address of a leaf's page at a virtual address. -/
def leafPa (p : DWord) (level va : Nat) : Nat :=
  let ppn := bits p 53 10
  if level = 1 then ppn / 512 * 2 ^ 21 + va % 2 ^ 21
  else if bit p 63 then ppn / 16 * 2 ^ 16 + va % 2 ^ 16
  else ppn * 4096 + va % 4096

/-- Permissions of a leaf, in the order of R73; `phys` whether the frame is known. -/
def leafCheck (s : State) (p : DWord) (level va : Nat) (a : Acc) (phys : Bool) : Option (Nat × Nat) :=
  if !(bit p 4) then some (tPERM, 1)
  else if a.reads && !(bit p 1) then some (tPERM, 2)
  else if a.writes && !(bit p 2) then some (tPERM, 3)
  else if decide (a = .exec) && !(bit p 3) then some (tPERM, 4)
  else if phys && !(dramOk s (leafPa p level va)) then some (tPERM, 5)
  else none

/-! ## First touch (R74) -/

/-- LOW of POOL_STAT follows the counts; vector 1 when it becomes 1 (R404). -/
def poolLow (s : State) (d p : Nat) : State :=
  let n := ((s.reg (Reg.poolTail d p)).toNat + 2 ^ 32 - (s.reg (Reg.poolHead d p)).toNat) % 2 ^ 32
  let low := decide (n < s.regF (Reg.poolCfg d p) 19 0)
  let was := s.regBit (Reg.poolStat d p) 0
  let s1 := s.setRegF (Reg.poolStat d p) 0 0 (if low then 1 else 0)
  if low && !was then raiseVec s1 (pidCluster s1 p) 1 else s1

/-- What a walker gets from the pool: a frame, nothing, or a wait for the read of the ring. -/
inductive Draw
  | frame (f : Nat)
  | empty
  | wait
  deriving DecidableEq, Repr

/-- Draw a frame from the ring; n entries are left. An entry outside DRAM reads as 0 (assumption 32). -/
def drawFrame (s : State) (sp : Space) (size : Nat) : Nat → Draw × State
  | 0 => (.empty, s)
  | n + 1 =>
    let d := sp.die
    let p := sp.pid
    let head := (s.reg (Reg.poolHead d p)).toNat
    let at_ := (s.reg (Reg.poolBase d p)).toNat + 8 * (head % size)
    match if dramOk s at_ then readSector s sp.requester p (secOf at_) else (true, s) with
    | (false, s0) => (.wait, s0)
    | (true, s0) =>
      let ent := if dramOk s0 at_ then (view64 s0 sp.requester at_).toNat else 0
      let s1 := poolLow (s0.setReg (Reg.poolHead d p) (BitVec.ofNat 64 ((head + 1) % 2 ^ 32))) d p
      if ent % 4096 = 0 ∧ dramOk s1 ent ∧ paDie ent = d then (.frame ent, s1)
      else drawFrame (s1.setRegF (Reg.poolStat d p) 1 1 1) sp size n

/-- A frame for a first touch: the spare one, which is zeroed already, or one of the ring; with the sectors that are zeroed. -/
def takeFrame (s : State) (sp : Space) : Draw × Nat × State :=
  let d := sp.die
  let p := sp.pid
  match s.ms.spare.find (16 * d + p) with
  | some f => (.frame f, 64, s.withMs { s.ms with spare := s.ms.spare.del (16 * d + p) })
  | none =>
    let cfg := s.reg (Reg.poolCfg d p)
    let lg := bits cfg 24 20
    let n := ((s.reg (Reg.poolTail d p)).toNat + 2 ^ 32 - (s.reg (Reg.poolHead d p)).toNat) % 2 ^ 32
    let badLg := decide (lg < 4 ∨ 20 < lg)
    if !(bit cfg 31) || badLg || decide (n = 0 ∨ 2 ^ lg < n) then
      (.empty, 0, if bit cfg 31 && (badLg || decide (2 ^ lg < n)) then s.setRegF (Reg.poolStat d p) 1 1 1 else s)
    else
      let r := drawFrame s sp (2 ^ lg) n
      (r.1, 0, r.2)

/-- Zero one sector at its home. -/
def zeroSector (s : State) (sec : Nat) : State :=
  storeNotes (s.setMem (s.ms.mem.filter fun e => decide (e.1 / 64 ≠ sec))) sec (bytesAt (64 * sec) (List.replicate 64 0))

/-- Zero the sectors of a touch's frame that are not yet zeroed, as far as their homes and the walker's sluice let it. -/
def zeroSectors (s : State) (r : Nat) (t : Touch) : Nat → Touch × State
  | 0 => (t, s)
  | n + 1 =>
    let sec := t.frame / 64 + t.zeroed
    match writeSector s r t.pid sec true with
    | (false, s1) => (t, s1)
    | (true, s1) =>
      let s2 := zeroSector s1 sec
      zeroSectors s2 r { t with zeroed := t.zeroed + 1, ready := max t.ready (wctNow s2 (sec / 8)) } n

/-- The PTE that first touch installs. -/
def touchPte (e : DWord) (frame : Nat) (a : Acc) : DWord :=
  BitVec.ofNat 64 (frame / 4096 * 1024 + 64 + 2 * bits e 5 1 + 1 + (if a.writes then 128 else 0))

/-! ## The walk (R72, R73) -/

def tlbAdd (s : State) (x : TlbEnt) : State := s.withMs { s.ms with tlb := s.ms.tlb ++ [x] }

def finishWalk (s : State) (sp : Space) (va : Nat) (p : DWord) (level : Nat) : Tr × State :=
  (.ok (leafPa p level va),
   tlbAdd s { die := sp.die, unit := sp.unit, asid := sp.asid, vpn := va / 4096, level := level, pte := p })

/-- The end of a walk at a valid leaf: its permissions, then A and D by an atomic update of the PTE at its home; the walk restarts
where the PTE has changed since it was read (R73). -/
def leafEnd (s : State) (sp : Space) (va ptePa : Nat) (p : DWord) (level : Nat) (a : Acc) : Tr × State :=
  match leafCheck s p level va a true with
  | some (c, r) => (.trap c r, s)
  | none =>
    let new := setBits (if a.writes then setBits p 7 7 1 else p) 6 6 1
    if new = p then finishWalk s sp va new level
    else
      match writeSector s sp.requester sp.pid (secOf ptePa) false with
      | (false, s1) => (.wait, s1)
      | (true, s1) =>
        if mem64 s1 ptePa ≠ p then (.wait, s1)
        else finishWalk (homeWrite64 s1 sp.requester sp.pid ptePa new).1 sp va new level

/-! ### The steps of a first touch -/

/-- The first touch of a PTE by a walker. -/
def touchOf (s : State) (sp : Space) (ptePa : Nat) : Option Touch :=
  s.ms.touch.find? fun (t : Touch) => decide (t.die = sp.die ∧ t.unit = sp.unit ∧ t.pte = ptePa)

def Touch.same (t u : Touch) : Bool := decide (t.die = u.die ∧ t.unit = u.unit ∧ t.pte = u.pte)

def setTouch (s : State) (t : Touch) : State :=
  s.withMs { s.ms with touch := t :: s.ms.touch.filter fun (x : Touch) => !(x.same t) }
def dropTouch (s : State) (t : Touch) : State := s.withMs { s.ms with touch := s.ms.touch.filter fun (x : Touch) => !(x.same t) }

/-- A walker's first touch goes on: the rest of the zero writes, then the compare-and-swap, then the completion of the new PTE. A lost
compare-and-swap leaves the frame in SPARE. -/
def touchStep (s : State) (t : Touch) : State :=
  let r := unitRequester t.unit
  let z := zeroSectors s r t (64 - t.zeroed)
  let s1 := if z.1 = t then z.2 else setTouch z.2 z.1
  if z.1.zeroed < 64 ∨ s1.now t.die < z.1.ready then s1
  else if t.installed then dropTouch s1 t
  else
    match writeSector s1 r t.pid (secOf t.pte) false with
    | (false, s2) => s2
    | (true, s3) =>
      if mem64 s3 t.pte ≠ t.old then
        dropTouch (s3.withMs { s3.ms with spare := s3.ms.spare.set (16 * t.die + t.pid) t.frame }) t
      else
        let x := homeWrite64 s3 r t.pid t.pte t.new
        if x.2 ≤ s3.now t.die then dropTouch x.1 t else setTouch x.1 { z.1 with installed := true, ready := x.2 }

/-- A walk whose first touch is under way, or has just ended. -/
def touchGo (s : State) (sp : Space) (va ptePa : Nat) (a : Acc) (t : Touch) : Tr × State :=
  let s1 := touchStep s t
  let p := mem64 s1 ptePa
  if (touchOf s1 sp ptePa).isSome || !(bit p 0) then (.wait, s1) else leafEnd s1 sp va ptePa p 0 a

/-- A walk that meets a first-touch PTE. -/
def firstTouch (s : State) (sp : Space) (va ptePa : Nat) (e : DWord) (a : Acc) : Tr × State :=
  match leafCheck s (touchPte e 0 a) 0 va a false with
  | some (c, r) => (.trap c r, s)
  | none =>
    match takeFrame s sp with
    | (.empty, _, s1) => (.trap tPAGE 2, s1)
    | (.wait, _, s1) => (.wait, s1)
    | (.frame f, n, s1) =>
      let t : Touch :=
        { die := sp.die, unit := sp.unit, pid := sp.pid, pte := ptePa, frame := f, old := e, new := touchPte e f a, zeroed := n,
          installed := false, ready := 0 }
      touchGo (setTouch s1 t) sp va ptePa a t

/-- Walk the levels given, from the table at a physical address. -/
def walkFrom (s : State) (sp : Space) (va : Nat) (a : Acc) : List Nat → Nat → Tr × State
  | [], _ => (.trap tPAGE 1, s)
  | level :: rest, table =>
    if !(dramOk s table) then (.trap tPERM 5, s)
    else
      let ptePa := table + 8 * (va / 2 ^ (12 + 9 * level) % 512)
      match readSector s sp.requester sp.pid (secOf ptePa) with
      | (false, s0) => (.wait, s0)
      | (true, s0) =>
        let p := view64 s0 sp.requester ptePa
        match if level = 0 then touchOf s0 sp ptePa else none with
        | some t => touchGo s0 sp va ptePa a t
        | none =>
        if !(bit p 0) then
          if level = 0 ∧ bits p 9 8 = 1 then firstTouch s0 sp va ptePa p a else (.trap tPAGE 1, s0)
        else if bit p 2 && !(bit p 1) then (.trap tPAGE 1, s0)
        else if bit p 1 || bit p 3 then
          if 1 < level then (.trap tPAGE 3, s0)
          else if !(pteFmtOk p level true) then (.trap tPAGE 4, s0)
          else leafEnd s0 sp va ptePa p level a
        else if level = 0 then (.trap tPAGE 1, s0)
        else if !(pteFmtOk p level false) then (.trap tPAGE 4, s0)
        else walkFrom s0 sp va a rest (bits p 53 10 * 4096)

def tlbPages (x : TlbEnt) : Nat := if x.level = 1 then 512 else if bit x.pte 63 then 16 else 1

def TlbEnt.covers (x : TlbEnt) (va : Nat) : Bool := decide (va / 4096 / tlbPages x = x.vpn / tlbPages x)

/-- Translate one address for an access. -/
def translate (s : State) (sp : Space) (va : Nat) (a : Acc) : Tr × State :=
  if !(canonical va) then (.trap tPAGE 1, s)
  else
    match s.ms.tlb.find? fun (x : TlbEnt) =>
        decide (x.die = sp.die ∧ x.unit = sp.unit ∧ x.asid = sp.asid) && x.covers va && (!a.writes || bit x.pte 7) with
    | some x =>
      match leafCheck s x.pte x.level va a true with
      | some (c, r) => (.trap c r, s)
      | none => (.ok (leafPa x.pte x.level va), s)
    | none => walkFrom s sp va a [3, 2, 1, 0] (sp.root * 4096)

/-- The address space of a card's work on a unit of a die. -/
def cardSpace (s : State) (c die unit : Nat) : Space := spaceOf (cardSatp s c) die unit (cardPid s c)

/-- Translate an address to be read and read its sector: the physical address, a trap, or a wait for a first touch or for
the sluice. -/
def readAt (s : State) (sp : Space) (va : Nat) : Tr × State :=
  match translate s sp va .read with
  | (.ok pa, s1) =>
    match readSector s1 sp.requester sp.pid (secOf pa) with
    | (true, s2) => (.ok pa, s2)
    | (false, s2) => (.wait, s2)
  | x => x

/-- Read 64-bit words at a virtual address. -/
def loadWords (s : State) (sp : Space) (va : Nat) : Nat → (Except (Nat × Nat × Nat) (List DWord)) × State
  | 0 => (.ok [], s)
  | n + 1 =>
    match readAt s sp va with
    | (.ok pa, s1) =>
      match loadWords s1 sp (va + 8) n with
      | (.ok l, s2) => (.ok (view64 s1 sp.requester pa :: l), s2)
      | (.error e, s2) => (.error e, s2)
    | (.trap c r, s1) => (.error (c, r, va), s1)
    | (.wait, s1) => (.error (0, 0, va), s1)

/-! ## Shoot-downs (R76) -/

def TlbEnt.named (x : TlbEnt) (scope asid va : Nat) : Bool :=
  decide (scope = 2) || (decide (x.asid = asid) && (decide (scope = 1) || x.covers va))

/-- Whether a physical address lies in a page that a translation maps. -/
def TlbEnt.maps (x : TlbEnt) (pa : Nat) : Bool :=
  decide (pa / 4096 / tlbPages x = leafPa x.pte x.level (x.vpn * 4096) / 4096 / tlbPages x)

/-- The die whose translations a leat operation's requester uses. -/
def whoDie (s : State) (w : LWho) : Option Nat :=
  match w with
  | .warp i _ _ => (s.warps.find i).bind fun (x : Warp) => x.place.map fun q => coreDie q.1
  | .tile tc => some (coreDie (tc + 32))
  | .port d _ => some d
  | .qp d _ => some d
  | .sp _ | .graph _ _ => none

/-- Operations in flight, requests and leat operations of a die that use an address of some frames. -/
def usersOf (s : State) (d : Nat) (uses : Nat → Bool) : List Nat × List Nat × List Nat :=
  let leat := fun (q : LReq) => decide (whoDie s q.who = some d) && (uses q.cb || uses q.buf)
  ((s.ms.reqs.filter fun (q : Req) => decide (q.die = d) && uses (64 * q.sec)).map fun (q : Req) => q.id,
   (s.ops.filter fun e => decide (coreDie e.2.core = d) && ((e.2.lanes.any fun (l : LaneAcc) => uses l.pa) ||
     (match e.2.kind with
      | .queue _ _ bufs => bufs.any fun (b : QBuf) => uses b.pa
      | _ => false))).map fun e => e.1,
   ((s.lq.reqs.filter leat) ++ (s.lq.waiters.map fun (w : Waiter) => w.q).filter leat).map fun (q : LReq) => q.id)

/-- An accepted GO: the translations leave every cache of the die, and what used them is waited for. -/
def shootStart (s : State) (d scope : Nat) : State :=
  let va := (s.reg (Reg.shootVa d)).toNat
  let asid := s.regF (Reg.shootCtl d) 15 0
  let gone := s.ms.tlb.filter fun (x : TlbEnt) => decide (x.die = d) && x.named scope asid va
  let u := usersOf s d fun pa => gone.any fun (x : TlbEnt) => x.maps pa
  let s1 := s.withMs { s.ms with
    tlb := s.ms.tlb.filter fun (x : TlbEnt) => !(decide (x.die = d) && x.named scope asid va),
    shoots := s.ms.shoots.set d { scope := scope, asid := asid, va := va, waitReqs := u.1, waitOps := u.2.1, waitLeats := u.2.2 } }
  s1.setRegF (Reg.shootStat d) 0 0 1

/-- How many 4 KiB pages the translation in use for an address maps. -/
def spanOf (s : State) (sp : Space) (va : Nat) : Nat :=
  match s.ms.tlb.find? fun (x : TlbEnt) => decide (x.die = sp.die ∧ x.unit = sp.unit ∧ x.asid = sp.asid) && x.covers va with
  | some x => tlbPages x
  | none => 1

end Sys2Proof.Machine
end

