-- ==== Sys2Proof/Machine/Overlay.lean ====
section
/-! DEFINITION. Instruction stores and overlays (R197 to R214): tokens, the overlay table, resolution, placement,
loads and invalidation. -/

namespace Sys2Proof.Machine

/-! ## Tokens (R201) -/

def tokOvid (t : Word) : Nat := t.toNat / 2 ^ 20
def tokSlot (t : Word) : Nat := t.toNat / 2 ^ 14 % 64
def tokGen (t : Word) : Nat := t.toNat % 2 ^ 14
def mkTok (ovid slot gen : Nat) : Word := BitVec.ofNat 32 (ovid % 4096 * 2 ^ 20 + slot % 64 * 2 ^ 14 + gen % 2 ^ 14)
def coldTok (ovid : Nat) : Word := mkTok ovid 63 0

/-- An overlay address from its 64 bits; a malformed offset keeps its 32 bits. -/
def ovAddr (x : DWord) : OvAddr := { tok := BitVec.ofNat 32 (bits x 63 32), off := bits x 31 0 }

/-! ## Stores -/

def IStore.empty : IStore := { bytes := [], ovls := [], sgen := [], bad := [], cmdWait := none, looked := [], corrected := 0 }
def istore (s : State) (c : Nat) : IStore := Tbl.get IStore.empty s.ist c
def storeSlots (c : Nat) : Nat := if c < 32 then 48 else 16

def Ovl.inSlot (o : Ovl) (n : Nat) : Bool := decide (o.base ≤ n ∧ n < o.base + o.npg)
def ovlOf (s : State) (c slot : Nat) : Option Ovl := (istore s c).ovls.find? fun (o : Ovl) => o.inSlot slot
def ovlAtBase (s : State) (c base : Nat) : Option Ovl := (istore s c).ovls.find? fun (o : Ovl) => decide (o.base = base)
def sgenOf (s : State) (c base : Nat) : Nat := Tbl.get 0 (istore s c).sgen base
def ovlTok (s : State) (c : Nat) (o : Ovl) : Word := mkTok o.ovid o.base (sgenOf s c o.base)

def setOvl (s : State) (c : Nat) (o : Ovl) : State :=
  let i := istore s c
  s.setIst c { i with ovls := i.ovls.map fun (x : Ovl) => if x.base = o.base then o else x }

def delOvl (s : State) (c base : Nat) : State :=
  let i := istore s c
  s.setIst c { i with ovls := i.ovls.filter fun (x : Ovl) => decide (x.base ≠ base) }

/-- A token is current (R201). -/
def tokCurrent (s : State) (c card gen : Nat) (t : Word) : Option Ovl :=
  match ovlAtBase s c (tokSlot t) with
  | some o =>
    if tokSlot t < storeSlots c ∧ o.st = .resident ∧ o.card = card ∧ o.gen = gen ∧ o.ovid = tokOvid t ∧
        sgenOf s c o.base = tokGen t then some o else none
  | none => none

/-! ## Executors and pins (R205) -/

def Warp.isLive (w : Warp) (l : Nat) : Bool := laneIn w.liveMask l

/-- Tokens where a warp stands. -/
def Warp.toks (w : Warp) : List Word :=
  (match w.clause with
   | some c => [c.at_.tok]
   | none => []) ++ (w.susp.map fun (x : Susp) => x.clause.at_.tok) ++
    (lanes32.filter w.isLive).map fun l => (laneGet { tok := 0, off := 0 } w.pc l).tok

def Walker.standing (w : Walker) : Bool := decide (w.st ≠ .off ∧ w.st ≠ .ended)

/-- An overlay is PINNED while an executor of its core is in it, or one that waited on its load is to start in it. -/
def ovlPinned (s : State) (c : Nat) (o : Ovl) : Bool :=
  let t := ovlTok s c o
  decide (o.st = .resident) &&
    (if c < 32 then
       s.warps.any fun e => (match e.2.place with
         | some p => decide (p.1 = c)
         | none => false) && (e.2.toks.contains t || decide (e.2.ovWait = some o.base))
     else
       match s.tiles.find (c - 32) with
       | some x => x.card.isSome && x.walkers.any fun (w : Walker) =>
           w.standing && (decide (w.pc.tok = t) || decide (w.ovWait = some o.base))
       | none => false)

def allCores : List Nat := List.range 56

/-- The overlays of a card at the normal end of a release: the RESIDENT ones are retagged with the new generation (R204). -/
def retagCard (s : State) (card old new : Nat) : State :=
  allCores.foldl (fun (a : State) c =>
    if (istore a c).ovls = [] then a
    else
      let i := istore a c
      a.setIst c { i with ovls := i.ovls.map fun (o : Ovl) =>
        if o.card = card ∧ o.gen = old ∧ o.st = .resident then { o with gen := new } else o }) s

/-! ## The overlay table (R199, R200) -/

/-- What a read of the overlay table gives. -/
inductive OvE
  | ok (image npg : Nat) (auto : Bool)
  | bad
  | trap (code reason addr : Nat)
  | wait
  deriving DecidableEq, Repr

/-- The kernel header of a card's release. -/
def relHdr (s : State) (card k : Nat) : DWord :=
  match s.ddx.rel.find card with
  | some r => r.work.getD k 0
  | none => 0

def unitOf (core : Nat) : Nat := core

/-- Read the table header: NENT and AUTO. -/
def ovHeader (s : State) (core card : Nat) : (Except OvE (Nat × Bool)) × State :=
  match loadWords s (cardSpace s card (coreDie core) (unitOf core)) (relHdr s card 4).toNat 4 with
  | (.ok [a, b, c, d], s1) =>
    if bits a 31 0 = 0x4F564C54 ∧ bits a 35 32 = 1 ∧ bits a 63 37 = 0 ∧ bits b 63 12 = 0 ∧ bits b 11 0 ≠ 0 ∧ c = 0 ∧ d = 0
    then (.ok (bits b 11 0, bit a 36), s1) else (.error .bad, s1)
  | (.ok _, s1) => (.error .bad, s1)
  | (.error (0, _, _), s1) => (.error .wait, s1)
  | (.error (c, r, a), s1) => (.error (.trap c r a), s1)

/-- Read an entry's words. -/
def ovWords (s : State) (core card n : Nat) : (Except OvE (List DWord)) × State :=
  match loadWords s (cardSpace s card (coreDie core) (unitOf core)) ((relHdr s card 4).toNat + 32 * n) 4 with
  | (.ok l, s1) => (.ok l, s1)
  | (.error (0, _, _), s1) => (.error .wait, s1)
  | (.error (c, r, a), s1) => (.error (.trap c r a), s1)

/-- Whether entry words are usable on a core (R199), and the pages. -/
def entryOk (core : Nat) (l : List DWord) : Option (Nat × Nat) :=
  match l with
  | [a, b, c, d] =>
    if bit b 5 ∧ bits b 4 4 = (if core < 32 then 0 else 1) ∧ bits a 11 0 = 0 ∧ bits b 63 6 = 0 ∧ c = 0 ∧
        d = 0
    then some (a.toNat, bits b 3 0 + 1) else none
  | _ => none

def ovEntry (s : State) (core card ovid : Nat) : OvE × State :=
  match ovHeader s core card with
  | (.ok (nent, auto), s1) =>
    if ovid = 0 ∨ nent < ovid then (.bad, s1)
    else
      match ovWords s1 core card ovid with
      | (.ok l, s2) =>
        match entryOk core l with
        | some (im, n) => (.ok im n auto, s2)
        | none => (.bad, s2)
      | (.error e, s2) => (e, s2)
  | (.error e, s1) => (e, s1)

/-- The search of R200 over entries lo to hi. -/
def lookupFrom (s : State) (core card va : Nat) : Nat → Nat → Nat → (Except OvE (Nat × Nat)) × State
  | 0, _, _ => (.error .bad, s)
  | fuel + 1, lo, hi =>
    if hi < lo then (.error .bad, s)
    else
      let mid := (lo + hi) / 2
      match ovWords s core card mid with
      | (.error e, s1) => (.error e, s1)
      | (.ok l, s1) =>
        let im := (l.getD 0 0).toNat
        let n := bits (l.getD 1 0) 3 0 + 1
        if va < im then lookupFrom s1 core card va fuel lo (mid - 1)
        else if im + 4096 * n ≤ va then lookupFrom s1 core card va fuel (mid + 1) hi
        else if (entryOk core l).isSome then (.ok (mid, va - im), s1) else (.error .bad, s1)

/-- Lookup (R200): the overlay and offset of an entry virtual address. -/
def lookup (s : State) (core card va : Nat) : (Except OvE (Nat × Nat)) × State :=
  match ovHeader s core card with
  | (.ok (nent, _), s1) => lookupFrom s1 core card va 13 1 nent
  | (.error e, s1) => (.error e, s1)

/-- The trap of a failed table read (R208). -/
def OvE.cause (e : OvE) : Cause :=
  match e with
  | .trap c r a => { code := c, detail := r, addr := a }
  | _ => { code := tOVABS, detail := 2 }

/-! ## Placement (R211) -/

inductive Place
  | at_ (b : Nat)
  | nofit
  | busy
  deriving DecidableEq, Repr

def ovMask (s : State) (c p : Nat) : Nat := s.regF (Reg.ovlMask c p) (storeSlots c - 1) 0

/-- A slot of a candidate run. -/
def slotFree (s : State) (c p n : Nat) : Bool :=
  match ovlOf s c n with
  | none => true
  | some o =>
    decide (o.pid = p ∧ o.st = .resident) && !(ovlPinned s c o) &&
      (List.range o.npg).all fun i => (ovMask s c p).testBit (o.base + i)

def runMask (s : State) (c p n b : Nat) : Bool := (List.range n).all fun i => (ovMask s c p).testBit (b + i)
def runOk (s : State) (c p n b : Nat) : Bool :=
  runMask s c p n b && (List.range n).all fun i => slotFree s c p (b + i)
def runEmpty (s : State) (c n b : Nat) : Bool := (List.range n).all fun i => (ovlOf s c (b + i)).isNone

/-- The latest execution of an overlay that meets a run. -/
def runUsed (s : State) (c n b : Nat) : Nat :=
  (istore s c).ovls.foldl (fun (a : Nat) (o : Ovl) => if o.base < b + n ∧ b < o.base + o.npg then max a o.used else a) 0

def place (s : State) (c p n : Nat) : Place :=
  let starts := (List.range (storeSlots c)).filter fun b => decide (b + n ≤ storeSlots c)
  let runs := starts.filter (runMask s c p n)
  let cand := runs.filter (runOk s c p n)
  if runs = [] then .nofit
  else
    match cand.find? (runEmpty s c n) with
    | some b => .at_ b
    | none =>
      match cand.foldl (fun (a : Option Nat) b =>
          match a with
          | none => some b
          | some x => if runUsed s c n b < runUsed s c n x then some b else a) none with
      | some b => .at_ b
      | none => .busy

/-- Start a load (R204, R211): evict what meets the run, count, and mark the slots LOADING. -/
def startLoad (s : State) (c card ovid image npg base : Nat) (op : Option Nat) (cmd : Bool) : State :=
  let gone := (istore s c).ovls.filter fun (o : Ovl) => decide (o.base < base + npg ∧ base < o.base + o.npg)
  let s1 := gone.foldl (fun (a : State) (o : Ovl) =>
    (delOvl a c o.base).setRegF (Reg.ovlCnt c) 31 0 (satInc (a.regF (Reg.ovlCnt c) 31 0) 32)) s
  let s2 := s1.setRegF (Reg.ovlCnt c) 63 32 (satInc (s1.regF (Reg.ovlCnt c) 63 32) 32)
  let k := stamp s2
  let i := istore k.2 c
  let o : Ovl :=
    { base := base, npg := npg, st := .loading, pid := cardPid k.2 card, card := card, gen := cardGen k.2 card,
      ovid := ovid, image := image, doomed := false, used := k.1, ops := op.toList, cmd := cmd, pos := 0,
      since := k.2.now (coreDie c) }
  let bad := i.bad.filter fun n => !(decide (base ≤ n ∧ n < base + npg))
  k.2.setIst c { i with sgen := i.sgen.set base ((Tbl.get 0 i.sgen base + 1) % 2 ^ 14), ovls := i.ovls ++ [o], bad := bad }

/-! ## Resolution (R206) -/

inductive RRes
  | ok (a : OvAddr)
  | trap (c : Cause)
  /-- waits for the overlay at a base slot to leave LOADING -/
  | loading (base : Nat)
  /-- waits for the placement of an overlay: its number, image and pages -/
  | place (ovid image npg : Nat)
  /-- waits for a translation -/
  | again
  deriving DecidableEq, Repr

/-! ## Waits for a placement (R207) -/

/-- A warp or a walker of a core that waits for a placement, with its card and generation. -/
structure OvWaiter where
  walker : Bool
  id : Nat
  card : Nat
  gen : Nat
  want : OvWant

/-- The waiters of a core. -/
def ovWaiters (s : State) (c : Nat) : List OvWaiter :=
  if c < 32 then
    s.warps.filterMap fun e =>
      match e.2.place, e.2.ovFirst with
      | some q, some x => if q.1 = c then some { walker := false, id := e.1, card := e.2.card, gen := e.2.gen, want := x } else none
      | _, _ => none
  else
    match s.tiles.find (c - 32) with
    | some t =>
      match t.card with
      | some y => (t.walkers.zip (List.range t.walkers.length)).filterMap fun (e : Walker × Nat) =>
          e.1.ovFirst.map fun (x : OvWant) => { walker := true, id := e.2, card := y.card, gen := y.gen, want := x }
      | none => []
    | none => []

/-- Put a waiter before those that first tried later. -/
def insertWaiter (x : OvWaiter) : List OvWaiter → List OvWaiter
  | [] => [x]
  | y :: t => if x.want.first < y.want.first then x :: y :: t else y :: insertWaiter x t

/-- The waiters in the order of their first attempts. -/
def waitersInOrder (s : State) (c : Nat) : List OvWaiter :=
  (ovWaiters s c).foldl (fun (a : List OvWaiter) x => insertWaiter x a) []

/-- A waiter's wait for a placement ends: it waits on the load at a base slot, or resolves again at its next turn. -/
def endWait (s : State) (c : Nat) (x : OvWaiter) (b : Option Nat) : State :=
  if x.walker then setWalkerAt s (c - 32) x.id fun w => { w with ovFirst := none, ovWait := b }
  else
    match s.warps.find x.id with
    | some w => s.setWarp x.id { w with ovFirst := none, ovWait := b }
    | none => s

/-- Place is tried again for the first of the waiters for which it succeeds, or which another's load now serves. -/
def retryFirst (s : State) (c : Nat) : List OvWaiter → Option State
  | [] => none
  | x :: t =>
    match (istore s c).ovls.find? fun (o : Ovl) => decide (o.card = x.card ∧ o.gen = x.gen ∧ o.ovid = x.want.ovid) with
    | some o => some (endWait s c x (some o.base))
    | none =>
      match place s c (cardPid s x.card) x.want.npg with
      | .at_ b => some (endWait (startLoad s c x.card x.want.ovid x.want.image x.want.npg b none false) c x (some b))
      | .nofit => some (endWait s c x none)
      | .busy => retryFirst s c t

/-- The retry of R207 at a transition of an overlay of the core, before the core places any other overlay. -/
def retryWaiters (s : State) (c : Nat) : Nat → State
  | 0 => s
  | n + 1 =>
    match retryFirst s c (waitersInOrder s c) with
    | some s1 => retryWaiters s1 c n
    | none => s

def retryPlaces (s : State) (c : Nat) : State := retryWaiters s c (ovWaiters s c).length

/-- An older waiter of the core whose placement would succeed comes first. -/
def olderWaiter (s : State) (c : Nat) (mine : Option Nat) : Bool :=
  (ovWaiters s c).any fun (x : OvWaiter) =>
    (match mine with
     | some m => decide (x.want.first < m)
     | none => true) && decide (place s c (cardPid s x.card) x.want.npg ≠ .busy)

/-! ## Invalidation (R204) -/

/-- Invalidate an overlay now, or once it is unpinned. A LOADING one is left as it is, but where its card is torn down or
restarted: then it is invalidated once it has loaded. -/
def invalOvl (s : State) (c : Nat) (o : Ovl) (tear : Bool) : State :=
  if o.st = .loading then (if tear then setOvl s c { o with doomed := true } else s)
  else if ovlPinned s c o then setOvl s c { o with doomed := true }
  else delOvl s c o.base

/-- An executor has left an overlay of the core, or an overlay has become RESIDENT or INVALID: invalidations that waited for the
last executor are made, and placements are tried again (R204, R207). -/
def sweepOvls (s : State) (c : Nat) : State :=
  retryPlaces ((istore s c).ovls.foldl (fun (a : State) (o : Ovl) =>
    if o.doomed && decide (o.st = .resident) && !(ovlPinned a c o) then delOvl a c o.base else a) s) c

/-- Every overlay of a core that satisfies p. -/
def invalWhere (s : State) (c : Nat) (tear : Bool) (p : Ovl → Bool) : State :=
  if (istore s c).ovls.any p then
    retryPlaces ((istore s c).ovls.foldl (fun (a : State) (o : Ovl) => if p o then invalOvl a c o tear else a) s) c
  else s

/-- The overlays of a card at its teardown or restart. -/
def invalCardAll (s : State) (card : Nat) : State :=
  allCores.foldl (fun (a : State) c => invalWhere a c true fun o => decide (o.card = card)) s

/-- What a warp or walker waits for after a resolution without a placement: the time of its first attempt stands. -/
def wantOf (old : Option OvWant) (now ovid image npg : Nat) : OvWant :=
  { first := match old with
      | some x => x.first
      | none => now,
    npg := npg, ovid := ovid, image := image }

/-- A warp's wait after a resolution that gave no address and no trap. -/
def Warp.await (w : Warp) (now : Nat) (r : RRes) : Warp :=
  match r with
  | .loading b => { w with ovWait := some b, ovFirst := none }
  | .place o im n => { w with ovFirst := some (wantOf w.ovFirst now o im n) }
  | _ => w

def resolve (s : State) (c card gen : Nat) (a : OvAddr) (auto : Bool) (first : Option Nat) : RRes × State :=
  if 2 ^ 16 ≤ a.off ∨ a.off % 8 ≠ 0 ∨ tokOvid a.tok = 0 then (.trap { code := tOVTOK, detail := 1 }, s)
  else
    let found := match tokCurrent s c card gen a.tok with
      | some o => some o
      | none => (istore s c).ovls.find? fun (o : Ovl) =>
          decide (o.card = card ∧ o.gen = gen ∧ o.ovid = tokOvid a.tok)
    match found with
    | some o =>
      if o.st = .loading then (.loading o.base, s)
      else if 4096 * o.npg ≤ a.off then (.trap { code := tOVTOK, detail := 2 }, s)
      else (.ok { tok := ovlTok s c o, off := a.off }, s)
    | none =>
      match ovEntry s c card (tokOvid a.tok) with
      | (.ok im n tauto, s1) =>
        if !(auto || tauto) then (.trap { code := tOVABS, detail := 1 }, s1)
        else
          let p := cardPid s1 card
          match place s1 c p n with
          | .nofit => (.trap { code := tOVABS, detail := 3 }, s1)
          | .busy => (.place (tokOvid a.tok) im n, s1)
          | .at_ b =>
            if olderWaiter s1 c first then (.place (tokOvid a.tok) im n, s1)
            else (.loading b, retryPlaces (startLoad s1 c card (tokOvid a.tok) im n b none false) c)
      | (.wait, s1) => (.again, s1)
      | (e, s1) => (.trap e.cause, s1)

/-! ## Loads (R212) -/

/-- Statuses of an explicit load. -/
def ovOK : Nat := 0
def ovPINNED : Nat := 1
def ovMASK : Nat := 2
def ovOWNED : Nat := 3
def ovBADENTRY : Nat := 4
def ovNOTCARD : Nat := 5
def ovFAULT : Nat := 6
def ovBADARG : Nat := 7

inductive Explicit
  /-- complete now with a status and token -/
  | now (status : Nat) (tok : Word)
  /-- complete with the load at a base slot -/
  | later (base : Nat)
  /-- waits for a translation -/
  | again
  deriving DecidableEq, Repr

/-- An explicit load of a card's overlay at BASE (R212); one that names a LOADING overlay completes with that load. -/
def explicitLoad (s : State) (c card ovid base : Nat) (op : Option Nat) (cmd : Bool) : Explicit × State :=
  match (istore s c).ovls.find? fun (o : Ovl) =>
      decide (o.card = card ∧ o.gen = cardGen s card ∧ o.ovid = ovid ∧ o.st = .loading) with
  | some o => (.later o.base, setOvl s c { o with ops := o.ops ++ op.toList, cmd := o.cmd || cmd })
  | none =>
  match ovEntry s c card ovid with
  | (.ok im n _, s1) =>
    match (istore s1 c).ovls.find? fun (o : Ovl) =>
        decide (o.card = card ∧ o.gen = cardGen s1 card ∧ o.ovid = ovid) with
    | some o =>
      if o.st = .resident then (.now ovOK (ovlTok s1 c o), s1)
      else (.later o.base, setOvl s1 c { o with ops := o.ops ++ op.toList, cmd := o.cmd || cmd })
    | none =>
      let p := cardPid s1 card
      let slots := (List.range n).map fun i => base + i
      let os := slots.filterMap (ovlOf s1 c)
      if storeSlots c < base + n ∨ !(runMask s1 c p n base) then (.now ovMASK 0, s1)
      else if os.any (fun (o : Ovl) => decide (o.pid ≠ p ∨ o.st = .loading)) then (.now ovOWNED 0, s1)
      else if os.any (fun o => ovlPinned s1 c o) then (.now ovPINNED 0, s1)
      else if os.any (fun (o : Ovl) => !((List.range o.npg).all fun i => (ovMask s1 c p).testBit (o.base + i))) then
        (.now ovMASK 0, s1)
      else (.later base, retryPlaces (startLoad s1 c card ovid im n base op cmd) c)
  | (.wait, s1) => (.again, s1)
  | (_, s1) => (.now ovBADENTRY 0, s1)

/-- How far the load of an overlay can go: done, failed with a cause, or not yet. -/
inductive LoadTo
  | done
  | fail (c : Cause)
  | wait
  deriving DecidableEq, Repr

/-- Read sectors of the image in page order into the store; a poisoned one leaves its page uncorrectable there (R81, R198). -/
def loadSectors (s : State) (c : Nat) (o : Ovl) : Nat → LoadTo × State
  | 0 => (.done, s)
  | n + 1 =>
    let k := 64 * o.npg - (n + 1)
    if k < o.pos then loadSectors s c o n
    else
      let va := o.image + 64 * k
      match translate s (cardSpace s o.card (coreDie c) (unitOf c)) va .exec with
      | (.trap a b, s1) => (.fail { code := a, detail := b, addr := va }, s1)
      | (.wait, s1) => (.wait, s1)
      | (.ok pa, s1) =>
        match readSector s1 c o.pid (pa / 64) with
        | (false, s2) => (.wait, setOvl s2 c { o with pos := k })
        | (true, s2) =>
          let i := istore s2 c
          let s3 := s2.setIst c { i with
            bytes := i.bytes.writeN (4096 * o.base + 64 * k) (viewBytes s2 c (pa / 64 * 64) 64)
            bad := if viewPoison s2 c (pa / 64) then insertNat (o.base + k / 64) i.bad else i.bad }
          loadSectors s3 c o n

/-- Give the completion of an explicit load to its operations: token and status. -/
def finishOps (s : State) (ops : List Nat) (tok : Word) (status : Nat) : State :=
  ops.foldl (fun (a : State) i =>
    match a.ops.find i with
    | some p => a.setOp i { p with result := [if status = 0 then tok else 0, BitVec.ofNat 32 status] }
    | none => a) s

/-- The LOAD of OVL_CMD (R212) for the card whose work the core holds, if any. -/
def cmdLoad (s : State) (c : Nat) (v : DWord) (held : Option Nat) : State :=
  let card := bits v 53 44
  let put := fun (a : State) (n : Nat) => a.setReg (Reg.ovlCmdStat c) (BitVec.ofNat 64 n)
  let rest := fun (a : State) (w : Option DWord) => a.setIst c { istore a c with cmdWait := w }
  if held ≠ some card then put (rest s none) ovNOTCARD
  else
    match explicitLoad s c card (bits v 43 32) (bits v 59 54) none true with
    | (.now st tok, s1) => put (rest s1 none) ((if st = ovOK then tok.toNat else 0) * 2 ^ 32 + st)
    | (.later _, s1) => put (rest s1 none) (2 ^ 31)
    | (.again, s1) => put (rest s1 (some v)) (2 ^ 31)

def finishCmd (s : State) (c : Nat) (yes : Bool) (tok : Word) (status : Nat) : State :=
  if yes then s.setReg (Reg.ovlCmdStat c) (BitVec.ofNat 64 ((if status = 0 then tok.toNat else 0) * 2 ^ 32 + status))
  else s

end Sys2Proof.Machine
end

