-- ==== Sys2Proof/Machine/Warps.lean ====
section
/-! DEFINITION. Warps: kernel-header fields (R142), drains and fences (R94, R95), deaths and retirement (R189 to R191,
R273), barriers (R193, R294, R297), the choice of a path (R188), and how a vision word starts and ends. -/

namespace Sys2Proof.Machine

/-! ## The kernel header of a release (R142) -/

def kBX (h : DWord) : Nat := bits h 11 0
def kBY (h : DWord) : Nat := bits h 23 12
def kBZ (h : DWord) : Nat := bits h 35 24
def kTX (h : DWord) : Nat := bits h 43 36
def kTY (h : DWord) : Nat := bits h 51 44
def kTZ (h : DWord) : Nat := bits h 59 52
def kNreg (h : DWord) : Nat := bits h 4 0
def kPair (h : DWord) : Bool := bit h 13
def kSpm (h : DWord) : Nat := bits h 25 14
def kNarg (h : DWord) : Nat := bits h 39 32

def allot (w : Warp) : Nat := 8 * (w.nreg + 1)

def relPair (s : State) (card : Nat) : Bool := kPair (relHdr s card 1)

def warpOnPair (s : State) (w : Warp) : Bool :=
  match s.ddx.blocks.find w.block with
  | some b => decide (b.cores.length = 2)
  | none => false

/-! ## Drains and fences (R94 to R96) -/

/-- No access of a warp numbered below n is still to be performed: its requests but those of asynchronous copies, and its atomics. -/
def warpDrained (s : State) (wid n : Nat) : Bool :=
  !(s.ms.reqs.any fun (q : Req) => decide (q.agent = .warp wid ∧ q.id < n) && !q.kind.isEngine && !(copyOp s q.op)) &&
    !(s.ops.any fun e => decide (e.2.wid = wid ∧ e.1 < n) &&
      (match e.2.kind with
       | .atom _ _ _ _ _ _ _ => true
       | _ => false))

/-- Scope as performed: block scope on a core pair is die scope (R96). -/
def effScope (s : State) (w : Warp) (scope : Nat) : Nat := if scope = 1 && warpOnPair s w then 3 else scope

/-- A fence of a warp at a scope is complete now (R95): drained, and the horizon reached. -/
def fenceDone (s : State) (wid : Nat) (w : Warp) (scope n : Nat) : Bool :=
  let t := s.now (coreDie (warpCore w))
  let sc := effScope s w scope
  warpDrained s wid n &&
    (if sc ≤ 2 then true else if sc = 3 then decide (w.ch ≤ t + 8) else decide (w.ch ≤ t))

/-! ## Deaths and retirement -/

def Warp.nonHelper (w : Warp) : Word := w.liveMask &&& ~~~w.helper

/-- A record of a warp that is a notice (R398). -/
def warpNotice (s : State) (wid : Nat) (c : Cause) (lanes : Word) : State :=
  match s.warps.find wid with
  | some w => queueRec s (warpRec s w c true lanes 0)
  | none => s

def ordLower (s : State) (card prim : Nat) (quads : List (Int × Int)) : Bool :=
  s.warps.any fun e =>
    decide (e.2.card = card) && !e.2.out &&
      (match e.2.spawn with
       | some p => decide (p.prim < prim) && p.quads.any fun q => quads.contains q
       | none => false)

/-- When no warp of a core is left, its sluices stop metering (R173), and the entry points it has looked up are forgotten (R213). -/
def sweepCore (s : State) (core : Nat) : State :=
  if s.warps.any fun e => decide (e.2.place.map (·.1) = some core) then s
  else
    let s := if (istore s core).looked = [] then s else s.setIst core { istore s core with looked := [] }
    (List.range 16).foldl (fun (a : State) m =>
      if a.regBit (Reg.sluCfg m core) 31 then sluReconfigure a m core (setBits (a.reg (Reg.sluCfg m core)) 31 31 0) else a) s

/-- The horizon of ended work goes to its card, for the release at the end of the work (R98). -/
def cardHorizon (s : State) (card ch : Nat) : State :=
  let x := cardSt s card
  if x.ch < ch then setCardSt s card { x with ch := ch } else s

/-- Take a warp out of its block, and end what is then empty (R191). -/
def dropWarp (s : State) (wid : Nat) : State :=
  match s.warps.find wid with
  | none => s
  | some w =>
    let core := warpCore w
    let s0 := cardHorizon s w.card w.ch
    let s1 := { s0 with warps := s0.warps.del wid, ops := s0.ops.filter fun e => decide (e.2.wid ≠ wid) }
    let s2 :=
      match s1.ddx.blocks.find w.block with
      | none => s1
      | some b =>
        let b1 := { b with warps := b.warps.filter fun x => decide (x ≠ wid) }
        if b1.warps ≠ [] then s1.withDdx { s1.ddx with blocks := s1.ddx.blocks.set w.block b1 }
        else
          let d := { s1.ddx with blocks := s1.ddx.blocks.del w.block }
          match d.teams.find b.team with
          | none => s1.withDdx d
          | some t =>
            let t1 := { t with blocks := t.blocks.filter fun x => decide (x ≠ w.block) }
            s1.withDdx { d with teams := if t1.blocks = [] then d.teams.del b.team else d.teams.set b.team t1 }
    sweepCore (sweepOvls s2 core) core

/-- Whether every condition of R273 for retiring holds: no live lane that keeps the warp, drained, flags clear; one that holds its
section also completes the fence of its implicit or forced ORDOUT (R392, R393). -/
def mayRetire (s : State) (wid : Nat) (w : Warp) : Bool :=
  decide (w.nonHelper = 0) && warpDrained s wid s.next && w.flagsClear 0xFFF && (!w.held || fenceDone s wid w 4 s.next) &&
    !(s.ops.any fun e => decide (e.2.wid = wid))

/-- Retire a warp that has no live lane left, with the implicit ORDOUT of R393 when it holds its section; the forced one of a kill,
in which no lane has a program counter left, gives no notice. -/
def tryRetire (s : State) (wid : Nat) : State :=
  match s.warps.find wid with
  | some w =>
    if w.st ≠ .trapped ∧ w.place.isSome ∧ mayRetire s wid w then
      let s1 := if w.held && !w.killed then warpNotice s wid { code := tORD, detail := 0 } 0 else s
      dropWarp s1 wid
    else s
  | none => s

/-- One lane dies (R190): its DEAD_LANE notice names the word that acted; that of the last live non-helper lane has ALL_DEAD, and
the warp then performs no further word of its clause. -/
def killLane (a : State) (wid : Nat) (det : Nat → Nat) (addr : Nat → Nat) (acted : Word) (back : Option Clause) (l : Nat) : State :=
  match a.warps.find wid with
  | some w =>
    let w1 := { w with dead := w.dead ||| maskOf fun k => decide (k = l) }
    let last := decide (w1.nonHelper = 0 ∧ w.nonHelper ≠ 0)
    let at_ := match back with
      | some c => { w with clause := some c }
      | none => w
    (queueRec a (warpRec a at_ { code := tDEAD, detail := det l + (if last then 2 ^ 31 else 0), addr := addr l, lane := l } true
      acted 0)).setWarp wid (if w1.nonHelper = 0 then { w1 with clause := none, susp := [], ovFirst := none, ovWait := none } else w1)
  | none => a

/-- Lanes die, and the overlays that nothing executes in any more are unpinned. `back` is the clause at the word that acted. -/
def killLanes (s : State) (wid : Nat) (lanes : List Nat) (det : Nat → Nat) (addr : Nat → Nat) (acted : Word)
    (back : Option Clause) : State :=
  if lanes = [] then s
  else
    let s1 := lanes.foldl (fun (a : State) l => killLane a wid det addr acted back l) s
    match s1.warps.find wid with
    | some w => if w.place.isSome then sweepOvls s1 (warpCore w) else s1
    | none => s1

/-! ## Barriers -/

def barStands (w : Warp) (l : Nat) (k : LWait) : Bool := decide (laneGet .none w.wait l = k)

/-- A warp has arrived at BAR or TBAR: every live non-helper lane stands there (R193, R294). One with no such lane counts only
once it has retired (R273). -/
def arrivedAt (w : Warp) (k : LWait) : Bool :=
  decide (w.st ≠ .trapped ∧ w.nonHelper ≠ 0) && lanes32.all fun l => !(laneIn w.nonHelper l) || barStands w l k

/-- The release half that an arrival performs first (R98). -/
def arrivalDone (s : State) (wid : Nat) (k : LWait) (scope : Nat) : Bool :=
  match s.warps.find wid with
  | some w => arrivedAt w k && fenceDone s wid w scope s.next
  | none => true

/-- Lanes that stand at a wait continue at their next header. -/
def Warp.release (w : Warp) (p : Nat → LWait → Bool) : Warp :=
  { w with
    pc := lanes32.map fun l =>
      let a := laneGet { tok := 0, off := 0 } w.pc l
      if w.isLive l && p l (laneGet .none w.wait l) then { a with off := a.off + 8 } else a
    wait := lanes32.map fun l =>
      let k := laneGet .none w.wait l
      if w.isLive l && p l k then .none else k }

def releaseWarps (s : State) (ws : List Nat) (k : LWait) : State :=
  ws.foldl (fun (a : State) i =>
    match a.warps.find i with
    | some w => a.setWarp i (w.release fun _ x => decide (x = k))
    | none => a) s

/-! ## Waits of a path -/

/-- CONV (R272): every live lane of the mask stands at the same word with the same depth. -/
def convDone (w : Warp) (l : Nat) (m : Word) : Bool :=
  lanes32.all fun k => !(laneIn m k) || !(w.isLive k) ||
    (decide (laneGet { tok := 0, off := 0 } w.pc k = laneGet { tok := 0, off := 0 } w.pc l ∧ w.depth.getD k 0 = w.depth.getD l 0) &&
      (match laneGet .none w.wait k with
       | .conv _ => true
       | _ => false))

/-- Whether the lane's wait is over, for the waits that a clause boundary itself settles. -/
def waitOver (s : State) (w : Warp) (l : Nat) : Bool :=
  match laneGet .none w.wait l with
  | .conv m => convDone w l m
  | .waitf m => w.flagsClear m
  | .ordin =>
    match w.spawn with
    | some p => !(ordLower s w.card p.prim p.quads)
    | none => true
  | _ => false

/-- Settle the waits of a clause boundary (R272, R274, R392): lanes whose wait is over go to their next header. -/
def settle (s : State) (w : Warp) : Warp :=
  let freed := lanes32.filter fun l => w.isLive l && waitOver s w l
  if freed = [] then w
  else
    let masks := freed.foldl (fun (a : Nat) l =>
      match laneGet .none w.wait l with
      | .waitf m => a ||| m
      | _ => a) 0
    let ord := freed.any fun l => decide (laneGet .none w.wait l = .ordin)
    let w1 := w.release fun l _ => freed.contains l
    let w2 := w1.takeFlags masks
    if ord then { w2 with ordDone := true, held := true } else w2

/-! ## Paths (R188) -/

/-- The lanes that share pc, depth and readiness with a lane. -/
def Warp.pathOf (w : Warp) (l : Nat) : Word :=
  maskOf fun k => w.isLive k &&
    decide (laneGet { tok := 0, off := 0 } w.pc k = laneGet { tok := 0, off := 0 } w.pc l ∧ w.depth.getD k 0 = w.depth.getD l 0 ∧
      laneGet LWait.none w.wait k = laneGet .none w.wait l)

/-- Paths by their lowest lane, ascending. -/
def Warp.paths (w : Warp) : List Nat :=
  lanes32.filter fun l => w.isLive l && decide ((lanesOf (w.pathOf l)).head? = some l)

/-- Rotation by ascending lowest lane, from the path after the one that executed last. -/
def rotate (last : Nat) (l : List Nat) : List Nat :=
  (l.filter fun x => decide (last < x)) ++ l.filter fun x => decide (x ≤ last)

/-- The 64-bit word at an overlay address of a core, where the token's overlay stands. -/
def storeWord (s : State) (core : Nat) (a : OvAddr) : DWord :=
  (istore s core).bytes.read64 (4096 * tokSlot a.tok + a.off)

/-! ## The start of a vision word -/

/-- A vision word about to act: its warp, clause, and the masks of R8 and R239. -/
structure VCtx where
  wid : Nat
  w : Warp
  core : Nat
  part : Nat
  c : Clause
  opc : Nat
  x : VWord
  /-- lanes of the path -/
  path : Word
  /-- Exec -/
  exec : Word
  /-- Active -/
  act : Word
  deriving Repr

/-- The guard's mask of lanes (R223). -/
def guardMask (w : Warp) (x : VWord) : Word :=
  let m := w.pMask (x.guard.toNat % 8)
  if 8 ≤ x.guard.toNat then ~~~m else m

def vCtx (wid : Nat) (w : Warp) (p : Nat × Nat) (c : Clause) (opc : Nat) (x : VWord) : VCtx :=
  let path := c.lanes &&& w.liveMask
  let exec := path &&& guardMask w x
  { wid := wid, w := w, core := p.1, part := p.2, c := c, opc := opc, x := x, path := path, exec := exec,
    act := exec &&& ~~~w.helper }

/-- The lowest lane of a mask. -/
def lowLane (m : Word) : Option Nat := (lanesOf m).head?

/-- A uniform word performs when the guard holds in the lowest lane of the path (R224). -/
def VCtx.performs (k : VCtx) : Bool :=
  match lowLane k.path with
  | some l => laneIn k.exec l
  | none => false

def VCtx.imm (k : VCtx) : Word := hdrImm k.c.hdr
def VCtx.last (k : VCtx) : Bool := decide (k.c.next = hdrLen k.c.hdr)
/-- The header after the clause. -/
def VCtx.nextHeader (k : VCtx) : OvAddr := { k.c.at_ with off := k.c.at_.off + 8 * (hdrLen k.c.hdr + 1) }

/-- How a word starts: it cannot issue or has trapped, or it acts. -/
inductive VStart
  | stay (s : State)
  | go (k : VCtx) (s : State)

/-- The warp of the turn, inside a clause and free to issue. -/
def issuing (s : State) : Option (Nat × Warp × (Nat × Nat) × Clause) :=
  match s.focus with
  | .warp wid =>
    match s.warps.find wid with
    | some w =>
      match w.place, w.clause with
      | some p, some c => if w.st = .ready ∧ w.hold = none then some (wid, w, p, c) else none
      | _, _ => none
    | none => none
  | _ => none

/-- A long-latency word waits while its flag's count is 63 (R218). -/
def flagFull (w : Warp) (c : Clause) (opc : Nat) (x : VWord) : Bool :=
  vLong opc &&
    (match c.flag x.fs with
     | some n => decide (63 ≤ w.flagCount n)
     | none => false)

/-- Completion flag n has met an uncorrectable error (R190). -/
def Warp.badFlag (w : Warp) (n : Nat) : Bool := w.badU.contains (264 + n)

/-- A flag of a mask has. -/
def Warp.badFlags (w : Warp) (mask : Nat) : Bool := (List.range 12).any fun n => mask.testBit n && w.badFlag n

/-- The flag that a long-latency word counts on has. -/
def flagBad (w : Warp) (c : Clause) (opc : Nat) (x : VWord) : Bool :=
  vLong opc &&
    (match c.flag x.fs with
     | some n => w.badFlag n
     | none => false)

/-- The checks at issue, in order: ENC (R233), hazards (R219), errors in uniform state, errors in v registers (R190). -/
def vStart (s : State) (opc : Nat) (x : VWord) : VStart :=
  match issuing s with
  | none => .stay s
  | some (wid, w, p, c) =>
    let k := vCtx wid w p c opc x
    match vEnc opc x (allot w) k.last with
    | some d => .stay (trapWarp s wid { code := tENC, detail := d } k.exec)
    | none =>
      if hazard s wid opc x || flagFull w c opc x then .stay s
      else if ((uReads opc x).any fun n => w.badU.contains n) || flagBad w c opc x then
        .stay (trapWarp s wid { code := tECC, detail := 0 } k.exec)
      else
        let bad := fun l => (vReads opc x).any fun r => w.badV.contains (vKey r l)
        let dying := (lanesOf k.exec).filter bad
        if dying = [] then .go k s
        else
          let det := fun l => 512 + ((vReads opc x).find? fun r => w.badV.contains (vKey r l)).getD 0
          let s1 := killLanes s wid dying det (fun _ => 0) k.exec (some c)
          match s1.warps.find wid with
          | some w1 => if w1.nonHelper = 0 then .stay s1 else .go (vCtx wid w1 p c opc x) s1
          | none => .stay s1

/-! ## The end of a vision word -/

/-- Advance past a word (R216, R220): to the next word of the clause, or to the next header. -/
def advance (k : VCtx) (w : Warp) : Warp :=
  if k.last then
    { w with
      clause := none
      pc := lanes32.map fun l => if laneIn k.path l then k.nextHeader else laneGet { tok := 0, off := 0 } w.pc l }
  else { w with clause := some { k.c with next := k.c.next + 1, doneLanes := 0 } }

/-- Other warps of the partition no longer wait for this one to issue (R187). -/
def noteIssue (s : State) (k : VCtx) : State :=
  if s.warps.any (fun e => decide (e.2.yieldTo ≠ [])) then
    { s with warps := s.warps.mapVals fun (w : Warp) => { w with yieldTo := w.yieldTo.filter fun i => decide (i ≠ k.wid) } }
  else s

/-- Bytes left in the overlay from an offset (R215). -/
def clauseFits (s : State) (core : Nat) (w : Warp) (a : OvAddr) (len : Nat) : Bool :=
  match tokCurrent s core w.card w.gen a.tok with
  | some o => decide (a.off + 8 * (len + 1) ≤ 4096 * o.npg)
  | none => false

/-- The saved form of a program counter: one that R206 refuses with detail 1. The end of an overlay of 16 pages, where sequential
fetch may stand, is not one. -/
def badForm (a : OvAddr) (npg : Nat) : Bool := decide (a.off % 8 ≠ 0 ∨ (2 ^ 16 ≤ a.off ∧ ¬(a.off = 2 ^ 16 ∧ npg = 16)))

/-- The fetch of the header at a program counter takes its turn: the wait mask is clear, or the fetch traps, resolves or stalls on the
error of its page. -/
def headerStarts (s : State) (w : Warp) (core : Nat) (a : OvAddr) : Bool :=
  match tokCurrent s core w.card w.gen a.tok with
  | some o =>
    let h := storeWord s core a
    decide (4096 * o.npg ≤ a.off) || badForm a o.npg || (istore s core).bad.contains (o.base + a.off / 4096) ||
      w.flagsClear (hdrWait h) || w.badFlags (hdrWait h) || !(hdrOk h) || !(clauseFits s core w a (hdrLen h))
  | none => true

/-- The fetch of the header at a program counter stalls the warp on an uncorrectable error of its page (R198). -/
def headerStalls (s : State) (w : Warp) (core : Nat) (a : OvAddr) : Bool :=
  match tokCurrent s core w.card w.gen a.tok with
  | some o => decide (a.off < 4096 * o.npg) && !(badForm a o.npg) && (istore s core).bad.contains (o.base + a.off / 4096)
  | none => false

/-- A path whose next clause can start (R188). -/
def pathCanStart (s : State) (w : Warp) (core l : Nat) : Bool :=
  match laneGet .none w.wait l with
  | .none => headerStarts s w core (laneGet { tok := 0, off := 0 } w.pc l)
  | .fence => w.susp.any fun (x : Susp) => laneIn x.clause.lanes l && x.ended
  | _ => false

/-- The path whose clause comes next (R188). -/
def nextPath (s : State) (w : Warp) (core : Nat) : Option Nat :=
  (rotate w.rot w.paths).find? fun l => pathCanStart s w core l

/-- At a clause boundary: some path can start its next clause, and the fetch of the one that comes next does not stall. -/
def boundaryReady (s : State) (w : Warp) (core : Nat) : Bool :=
  match nextPath s w core with
  | some l => decide (laneGet .none w.wait l ≠ .none) || !(headerStalls s w core (laneGet { tok := 0, off := 0 } w.pc l))
  | none => false

/-- The next word of the clause that a warp is in has no hazard (R187, R218, R219). -/
def wordReady (s : State) (wid : Nat) (w : Warp) (core : Nat) (c : Clause) : Bool :=
  match tokCurrent s core w.card w.gen c.at_.tok with
  | some o =>
    let a : OvAddr := { c.at_ with off := c.at_.off + 8 * c.next }
    let x := storeWord s core a
    !((istore s core).bad.contains (o.base + a.off / 4096)) && !(hazard s wid (vOpcode x) (vFieldsOf x)) &&
      !(flagFull w c (vOpcode x) (vFieldsOf x))
  | none => true

/-- The next word of the clause that a warp is in is held by a register hazard on an access in flight (R169, R171). -/
def wordHeld (s : State) (wid : Nat) (w : Warp) (c : Clause) : Bool :=
  let x := storeWord s (warpCore w) { c.at_ with off := c.at_.off + 8 * c.next }
  (tokCurrent s (warpCore w) w.card w.gen c.at_.tok).isSome && hazard s wid (vOpcode x) (vFieldsOf x)

/-- The card of the warp is being stopped for a save. -/
def stopping (s : State) (w : Warp) : Bool := (cardSt s w.card).preempt.isSome

/-- A warp restored on another core than saved it issues first at Reached(max(CH - 8, tf + 6)) (R107). -/
def resumeDue (s : State) (w : Warp) (core : Nat) : Bool :=
  match w.savedOn with
  | some c => decide (c = core) || decide (max (w.ch - 8) (w.tf + 6) ≤ s.now (coreDie core))
  | none => true

/-- The warp waits for a placement, or for a load that is not over (R207). -/
def overlayWaits (s : State) (w : Warp) (core : Nat) : Bool :=
  w.ovFirst.isSome ||
    (match w.ovWait with
     | some b => (ovlAtBase s core b).any fun (o : Ovl) => decide (o.st = .loading)
     | none => false)

/-- Whether a warp may take its turn: placed, ready, not held, waiting for no overlay, not torn down, and at no save point of a
stop; a teardown that a save precedes lets the save complete (R177). -/
def warpGoes (s : State) (w : Warp) (core : Nat) : Bool :=
  decide (w.st = .ready ∧ w.hold = none) && !((cardSt s w.card).tear && !(stopping s w)) && resumeDue s w core &&
    !(overlayWaits s w core) && (!(stopping s w) || w.held || w.clause.isSome)

/-- A warp is ready to issue (R187). -/
def canIssue (s : State) (wid : Nat) : Bool :=
  match s.warps.find wid with
  | some w =>
    match w.place with
    | some p =>
      warpGoes s w p.1 && decide (w.nonHelper ≠ 0 ∧ w.yieldTo = []) &&
        (match w.clause with
         | some c => wordReady s wid w p.1 c
         | none => boundaryReady s (settle s w) p.1)
    | none => false
  | none => false

/-- Warps of the same partition that are ready now (R187). -/
def readyMates (s : State) (wid : Nat) (p : Nat × Nat) : List Nat :=
  (s.warps.filter fun e => decide (e.1 ≠ wid ∧ e.2.place = some p) && canIssue s e.1).map (·.1)

/-! ## The rotation of an issue partition (R187) -/

def partKey (p : Nat × Nat) : Nat := 16 * p.1 + p.2

/-- Warp a comes before warp b in the rotation after the warp that issued last. -/
def rotaBefore (last a b : Nat) : Bool :=
  if decide (last < a) = decide (last < b) then decide (a < b) else decide (last < a)

/-- Whether a ready warp has the turn of its partition: it follows the last one issued with no other ready warp between them, or
issues a second successive instruction of its clause. -/
def hasTurn (s : State) (wid : Nat) (w : Warp) (p : Nat × Nat) : Bool :=
  match s.ddx.rota.find (partKey p) with
  | none => true
  | some (last, n) =>
    let mates := readyMates s wid p
    if wid = last then
      decide (mates = []) || (decide (n < 2) && w.clause.any fun (c : Clause) => decide (1 < c.next))
    else mates.all fun m => !(rotaBefore last m wid)

/-- The warp takes the turn of its partition with its next word. -/
def takeTurn (s : State) (wid : Nat) (p : Nat × Nat) (c : Clause) : State :=
  let n := match s.ddx.rota.find (partKey p) with
    | some (last, n) => if last = wid ∧ 1 < c.next then n + 1 else 1
    | none => 1
  s.withDdx { s.ddx with rota := s.ddx.rota.set (partKey p) (wid, n) }

/-- Put back the warp of a word that has ended; a clause with YIELD gives the turn up at its end (R187). -/
def putWarp (s : State) (k : VCtx) (w : Warp) : State :=
  let s1 := noteIssue s k
  s1.setWarp k.wid
    (if k.last && hdrYield k.c.hdr then { w with yieldTo := readyMates s1 k.wid (k.core, k.part) } else w)

/-- End a word with the warp's new contents. -/
def vDone (s : State) (k : VCtx) (w : Warp) : State := putWarp s k (advance k w)

/-- A trap of the word (R220). -/
def vTrap (s : State) (k : VCtx) (c : Cause) : State := trapWarp s k.wid c k.exec

end Sys2Proof.Machine
end

