-- ==== Sys2Proof/Machine/Arith.lean ====
section
/-! DEFINITION. The arithmetic words of the vision array (R238 to R261). -/

namespace Sys2Proof.Machine

/-! ## Writing results (R239, R240) -/

/-- The register result of a word: the words written and the flags raised, by lane. -/
abbrev LaneFn := Nat → List Word × Nat

/-- Flags of the lanes that record them (R49, R239). -/
def laneFlags (act : Word) (f : Nat → Nat) : Nat := orAll ((lanesOf act).map f)

/-- Write each Exec lane's result to DST; only Active lanes record flags. -/
def writeLanes (k : VCtx) (f : LaneFn) : Warp :=
  let w := (lanesOf k.exec).foldl (fun (a : Warp) l => a.dstWrite k.x.dst.toNat l (f l).1) k.w
  w.orFp (laneFlags k.act fun l => (f l).2)

/-- The register result of a word, per lane or once for the warp. -/
def regResult (k : VCtx) (f : LaneFn) : Warp :=
  if k.x.uni then
    match k.performs, lowLane k.path with
    | true, some l => (k.w.dstWrite k.x.dst.toNat l (f l).1).orFp (f l).2
    | _, _ => k.w
  else writeLanes k f

/-- The predicate result of a word: a bit per Exec lane, or one bit in all 32 lanes. -/
def predResult (k : VCtx) (f : Nat → Bool × Nat) : Warp :=
  if k.x.uni then
    match k.performs, lowLane k.path with
    | true, some l => (k.w.pSetMask k.x.dst.toNat (if (f l).1 then BitVec.allOnes 32 else 0)).orFp (f l).2
    | _, _ => k.w
  else
    (k.w.pSetLanes k.x.dst.toNat k.exec (maskOf fun l => (f l).1)).orFp (laneFlags k.act fun l => (f l).2)

/-- Run a word that writes registers. -/
def runReg (s : State) (opc : Nat) (x : VWord) (f : VCtx → LaneFn) : Host.Outcome State Fault Refusal :=
  match vStart s opc x with
  | .stay s' => .next s'
  | .go k s' => .next (vDone s' k (regResult k (f k)))

/-- Run a word that writes a predicate. -/
def runPred (s : State) (opc : Nat) (x : VWord) (f : VCtx → Nat → Bool × Nat) : Host.Outcome State Fault Refusal :=
  match vStart s opc x with
  | .stay s' => .next s'
  | .go k s' => .next (vDone s' k (predResult k (f k)))

def VCtx.a (k : VCtx) (l : Nat) : Word := k.w.src k.imm k.x.srcA.toNat l
def VCtx.b (k : VCtx) (l : Nat) : Word := k.w.src k.imm k.x.srcB.toNat l
def VCtx.cc (k : VCtx) (l : Nat) : Word := k.w.src k.imm k.x.srcC.toNat l
def VCtx.a64 (k : VCtx) (l : Nat) : DWord := k.w.src64 k.imm k.x.srcA.toNat l
def VCtx.b64 (k : VCtx) (l : Nat) : DWord := k.w.src64 k.imm k.x.srcB.toNat l

/-! ## Elements (R38, R241) -/

def elemBits (typ : Nat) : Nat := if typ ≤ 2 then 32 else if typ ≤ 5 then 16 else if typ = 6 then 8 else 4
def elemCount (typ : Nat) : Nat := 32 / elemBits typ

/-- Element i of a pattern. -/
def elem (typ : Nat) (x : Word) (i : Nat) : Nat := x.toNat / 2 ^ (elemBits typ * i) % 2 ^ elemBits typ

/-- An element read as an integer: U32 unsigned, the others two's complement. -/
def elemInt (typ : Nat) (x : Word) (i : Nat) : Int :=
  if typ = 1 then (elem typ x i : Int) else signExt (elem typ x i) (elemBits typ)

/-- Pack elements, element 0 lowest. -/
def packElems (n : Nat) : List Nat → Nat
  | [] => 0
  | x :: t => x % 2 ^ n + 2 ^ n * packElems n t

/-- Apply an operation to every element. -/
def mapElems (typ : Nat) (f : Nat → Nat × Nat) : Word × Nat :=
  let r := (List.range (elemCount typ)).map f
  (BitVec.ofNat 32 (packElems (elemBits typ) (r.map (·.1))), orAll (r.map (·.2)))

/-! ## Integers (R244) -/

/-- The narrowing of R244: clamped under SAT, which raises SAT, else the low bits. -/
def narrowElem (typ : Nat) (sat : Bool) (v : Int) : Nat × Nat :=
  let n := elemBits typ
  if sat then
    let c := satN (decide (typ ≠ 1)) v n
    (narrow c.1 n, if c.2 then 16 else 0)
  else (narrow v n, 0)

/-- An integer operation of up to three sources, element by element. -/
def intOp (x : VWord) (g : Int → Int → Int → Int) (a b c : Word) : List Word × Nat :=
  let r := mapElems x.typ fun i => narrowElem x.typ x.sat (g (elemInt x.typ a i) (elemInt x.typ b i) (elemInt x.typ c i))
  ([r.1], r.2)

def runInt (s : State) (opc : Nat) (x : VWord) (g : Int → Int → Int → Int) : Host.Outcome State Fault Refusal :=
  runReg s opc x fun k l => intOp x g (k.a l) (k.b l) (k.cc l)

def execIadd (x : VWord) (s : State) := runInt s 0x000 x fun a b _ => a + b
def execIsub (x : VWord) (s : State) := runInt s 0x001 x fun a b _ => a - b
def execImul (x : VWord) (s : State) := runInt s 0x002 x fun a b _ => a * b
def execImulhi (x : VWord) (s : State) := runInt s 0x003 x fun a b _ => a * b / 2 ^ 32
def execImad (x : VWord) (s : State) := runInt s 0x004 x fun a b c => a * b + c
def execImin (x : VWord) (s : State) := runInt s 0x005 x fun a b _ => if a ≤ b then a else b
def execImax (x : VWord) (s : State) := runInt s 0x006 x fun a b _ => if a ≤ b then b else a
def execIabs (x : VWord) (s : State) := runInt s 0x007 x fun a _ _ => if a < 0 then -a else a
def execIneg (x : VWord) (s : State) := runInt s 0x008 x fun a _ _ => -a

/-- LEA (R245). -/
def leaRes (x : VWord) (a : DWord) (b : Word) : DWord :=
  a + ((if x.sub / 8 % 2 = 1 then b.signExtend 64 else b.zeroExtend 64) <<< (x.sub % 8))

def words64 (v : DWord) : List Word := [v.extractLsb' 0 32, v.extractLsb' 32 32]

def execLea (x : VWord) (s : State) : Host.Outcome State Fault Refusal :=
  runReg s 0x009 x fun k l => (words64 (leaRes x (k.a64 l) (k.b l)), 0)

/-- The conditions of ICMP (R246). -/
def icmp (typ sub : Nat) (a b : Word) : Bool :=
  let x := elemInt typ a 0
  let y := elemInt typ b 0
  if sub = 0 then decide (x = y) else if sub = 1 then decide (x ≠ y) else if sub = 2 then decide (x < y)
  else if sub = 3 then decide (x ≤ y) else if sub = 4 then decide (y < x) else decide (y ≤ x)

def execIcmp (x : VWord) (s : State) : Host.Outcome State Fault Refusal :=
  runPred s 0x00A x fun k l => (icmp x.typ x.sub (k.a l) (k.b l), 0)

def execSel (x : VWord) (s : State) : Host.Outcome State Fault Refusal :=
  runReg s 0x00B x fun k l => ([if k.w.pGet x.srcC.toNat l then k.a l else k.b l], 0)

/-! ## Logic, shifts and bit fields (R248) -/

/-- A word of one 32-bit result that raises no flag. -/
def runPlain (s : State) (opc : Nat) (x : VWord) (g : Word → Word → Word → Word) : Host.Outcome State Fault Refusal :=
  runReg s opc x fun k l => ([g (k.a l) (k.b l) (k.cc l)], 0)

def shlRes (a b : Word) : Word := if 32 ≤ b.toNat then 0 else a <<< b.toNat
def shrRes (typ : Nat) (a b : Word) : Word :=
  if typ = 1 then (if 32 ≤ b.toNat then 0 else a >>> b.toNat) else a.sshiftRight (min b.toNat 31)
def bfPos (b : Word) : Nat := min (b.toNat % 256) 32
def bfLen (b : Word) : Nat := min (b.toNat / 256 % 256) (32 - bfPos b)
def bfeRes (typ : Nat) (a b : Word) : Word :=
  let f := a.toNat / 2 ^ bfPos b % 2 ^ bfLen b
  if bfLen b = 0 then 0
  else if typ = 1 then BitVec.ofNat 32 f else BitVec.ofInt 32 (signExt f (bfLen b))
def bfiRes (a b c : Word) : Word :=
  let m : Word := BitVec.ofNat 32 ((2 ^ bfLen b - 1) * 2 ^ bfPos b)
  (c &&& ~~~m) ||| (BitVec.ofNat 32 (a.toNat * 2 ^ bfPos b) &&& m)
def popc (a : Word) : Word := BitVec.ofNat 32 (lanesOf a).length
def clzRes (a : Word) : Word :=
  BitVec.ofNat 32 (if a = 0 then 32 else 31 - Nat.log2 a.toNat)
def brev (a : Word) : Word := maskOf fun i => laneIn a (31 - i)

def execAnd (x : VWord) (s : State) := runPlain s 0x020 x fun a b _ => a &&& b
def execOr (x : VWord) (s : State) := runPlain s 0x021 x fun a b _ => a ||| b
def execXor (x : VWord) (s : State) := runPlain s 0x022 x fun a b _ => a ^^^ b
def execNot (x : VWord) (s : State) := runPlain s 0x023 x fun a _ _ => ~~~a
def execShl (x : VWord) (s : State) := runPlain s 0x024 x fun a b _ => shlRes a b
def execShr (x : VWord) (s : State) := runPlain s 0x025 x fun a b _ => shrRes x.typ a b
def execRot (x : VWord) (s : State) := runPlain s 0x026 x fun a b _ => a.rotateLeft (b.toNat % 32)
def execBfe (x : VWord) (s : State) := runPlain s 0x027 x fun a b _ => bfeRes x.typ a b
def execBfi (x : VWord) (s : State) := runPlain s 0x028 x bfiRes
def execPopc (x : VWord) (s : State) := runPlain s 0x029 x fun a _ _ => popc a
def execClz (x : VWord) (s : State) := runPlain s 0x02A x fun a _ _ => clzRes a
def execBrev (x : VWord) (s : State) := runPlain s 0x02B x fun a _ _ => brev a

/-! ## Floating point (R249 to R253) -/

def typFmt (typ : Nat) : Fmt := if typ = 3 then Fmt.fp16 else if typ = 4 then Fmt.bf16 else Fmt.fp32

/-- Negated source elements (R249). -/
def fpA (x : VWord) (a : Word) (i : Nat) : Nat := (typFmt x.typ).neg x.na (elem x.typ a i)
def fpB (x : VWord) (b : Word) (i : Nat) : Nat := (typFmt x.typ).neg x.nb (elem x.typ b i)
def fpC (x : VWord) (c : Word) (i : Nat) : Nat := (typFmt x.typ).neg x.nc (elem x.typ c i)

def runFp (s : State) (opc : Nat) (x : VWord) (g : Fmt → RMode → Nat → Nat → Nat → Nat × Nat) :
    Host.Outcome State Fault Refusal :=
  runReg s opc x fun k l =>
    let r := mapElems x.typ fun i =>
      g (typFmt x.typ) (RMode.ofBits x.rm) (fpA x (k.a l) i) (fpB x (k.b l) i) (fpC x (k.cc l) i)
    ([r.1], r.2)

def execFadd (x : VWord) (s : State) := runFp s 0x040 x fun f m a b _ => f.add m a b
def execFsub (x : VWord) (s : State) := runFp s 0x041 x fun f m a b _ => f.add m a (f.neg true b)
def execFmul (x : VWord) (s : State) := runFp s 0x042 x fun f m a b _ => f.mul m a b
def execFfma (x : VWord) (s : State) := runFp s 0x043 x fun f m a b c => f.fma m a b c
def execFmin (x : VWord) (s : State) := runFp s 0x044 x fun f _ a b _ => f.minMax false a b
def execFmax (x : VWord) (s : State) := runFp s 0x045 x fun f _ a b _ => f.minMax true a b

def execFcmp (x : VWord) (s : State) : Host.Outcome State Fault Refusal :=
  runPred s 0x046 x fun k l => fcmp x.sub (fpA x (k.a l) 0) (fpB x (k.b l) 0)

/-- A word of one FP32 source. -/
def runFp1 (s : State) (opc : Nat) (x : VWord) (g : RMode → Nat → Nat × Nat) : Host.Outcome State Fault Refusal :=
  runReg s opc x fun k l =>
    let r := g (RMode.ofBits x.rm) (fpA x (k.a l) 0)
    ([BitVec.ofNat 32 r.1], r.2)

def execFclass (x : VWord) (s : State) := runFp1 s 0x047 x fun _ a => (fclass a, 0)
def execFrcp (x : VWord) (s : State) := runFp1 s 0x048 x fun _ a => frcp a
def execFrsq (x : VWord) (s : State) := runFp1 s 0x049 x fun _ a => frsq a
def execFsqrt (x : VWord) (s : State) := runFp1 s 0x04A x fsqrt
def execFexp2 (x : VWord) (s : State) := runFp1 s 0x04B x fun _ a => fexp2 a
def execFlog2 (x : VWord) (s : State) := runFp1 s 0x04C x fun _ a => flog2 a
def execFsin (x : VWord) (s : State) := runFp1 s 0x04D x fun _ a => fsincos false a
def execFcos (x : VWord) (s : State) := runFp1 s 0x04E x fun _ a => fsincos true a

/-! ## Conversions and packing (R254 to R258) -/

/-- Whether a CVT type code is a floating format. -/
def cvtFloat (t : Nat) : Bool := decide (2 ≤ t ∧ t ≤ 4)

/-- One conversion of R254 from type s to type d under RM and SAT. -/
def cvtElem (d s : Nat) (m : RMode) (sat : Bool) (v : Nat) : Nat × Nat :=
  if cvtFloat d && cvtFloat s then (typFmt d).ofVal m ((typFmt s).decode v)
  else if cvtFloat d then
    (typFmt d).ofInt m (if s = 1 then (v : Int) else signExt v (elemBits s))
  else if cvtFloat s then ((typFmt s).decode v).toInt m (decide (d ≠ 1)) (elemBits d)
  else narrowElem d sat (if s = 1 then (v : Int) else signExt v (elemBits s))

/-- SX16 to FP32, exact (R43, R254). -/
def cvtFromSx (c : Nat) : Nat × Nat :=
  let v := sx16Val c
  Fmt.fp32.ofVal .rne (.fin false v.1 v.2)

/-- The effect of CVT on sources a and b. -/
def cvtRes (x : VWord) (a b : Word) : Word × Nat :=
  let d := x.typ
  let t := x.sub % 8
  let sx := decide (8 ≤ x.sub)
  let m := RMode.ofBits x.rm
  if sx && decide (d = 2 ∧ t = 1) then
    let r := cvtFromSx (a.toNat % 2 ^ 16)
    (BitVec.ofNat 32 r.1, r.2)
  else if sx && decide (d = 1 ∧ t = 2) then
    let r := (Fmt.fp32.decode a.toNat).toSx16
    (BitVec.ofNat 32 r.1, r.2)
  else if 3 ≤ d then
    let f := fun i => if 3 ≤ t then cvtElem d t m x.sat (elem t a i) else cvtElem d t m x.sat (if i = 0 then a else b).toNat
    mapElems d f
  else
    let r := cvtElem d t m x.sat (if 3 ≤ t then elem t a (if sx then 1 else 0) else a.toNat)
    (BitVec.ofNat 32 r.1, r.2)

/-- An SX16 code with E = 255 in an active lane (R254). -/
def cvtBadLane (k : VCtx) : Option Nat :=
  if k.x.sub = 9 ∧ k.x.typ = 2 then
    if k.x.uni then
      if k.performs && sx16Bad ((k.a 0).toNat % 2 ^ 16) then some 0 else none
    else (lanesOf k.act).find? fun l => sx16Bad ((k.a l).toNat % 2 ^ 16)
  else none

def execCvt (x : VWord) (s : State) : Host.Outcome State Fault Refusal :=
  match vStart s 0x060 x with
  | .stay s' => .next s'
  | .go k s' =>
    match cvtBadLane k with
    | some l => .next (vTrap s' k { code := tSCALE, detail := 0, lane := l })
    | none => .next (vDone s' k (regResult k fun l => let r := cvtRes x (k.a l) (k.b l); ([r.1], r.2)))

/-- PACK (R255). -/
def packRes (x : VWord) (a b : Word) : Word × Nat :=
  let wide := if x.typ = 5 then 0 else x.typ - 1
  let half := elemCount x.typ / 2
  mapElems x.typ fun i =>
    narrowElem x.typ x.sat (if i < half then elemInt wide a i else elemInt wide b (i - half))

def execPack (x : VWord) (s : State) : Host.Outcome State Fault Refusal :=
  runReg s 0x061 x fun k l => let r := packRes x (k.a l) (k.b l); ([r.1], r.2)

/-- UNPACK (R256). -/
def unpackRes (x : VWord) (a : Word) : Word :=
  let e := elem x.typ a (x.sub % 8)
  if 8 ≤ x.sub then BitVec.ofNat 32 e else BitVec.ofInt 32 (signExt e (elemBits x.typ))

def execUnpack (x : VWord) (s : State) := runPlain s 0x062 x fun a _ _ => unpackRes x a

/-- The packed dot products (R57, R257). -/
def dotSum (n : Nat) (a b : Word) : Int :=
  (List.range (32 / n)).foldl (fun (t : Int) i =>
    t + signExt (a.toNat / 2 ^ (n * i)) n * signExt (b.toNat / 2 ^ (n * i)) n) 0

def dotRes (x : VWord) (n : Nat) (a b c : Word) : List Word × Nat :=
  let r := narrowElem 0 x.sat (c.toInt + dotSum n a b)
  ([BitVec.ofNat 32 r.1], r.2)

def execDp4 (x : VWord) (s : State) : Host.Outcome State Fault Refusal :=
  runReg s 0x063 x fun k l => dotRes x 8 (k.a l) (k.b l) (k.cc l)
def execDp8 (x : VWord) (s : State) : Host.Outcome State Fault Refusal :=
  runReg s 0x064 x fun k l => dotRes x 4 (k.a l) (k.b l) (k.cc l)

/-- BSEL (R258). -/
def bselRes (a b c : Word) : Word :=
  BitVec.ofNat 32 (packElems 8 ((List.range 4).map fun i =>
    let ctl := c.toNat / 2 ^ (8 * i)
    let j := ctl % 8
    let byte := (if j < 4 then a.toNat / 2 ^ (8 * j) else b.toNat / 2 ^ (8 * (j - 4))) % 256
    let fill := ctl / 8 % 4
    if fill = 0 then byte else if fill = 1 then 0 else if fill = 2 then 255
    else if 128 ≤ byte then 255 else 0))

def execBsel (x : VWord) (s : State) := runPlain s 0x065 x bselRes
def execMov (x : VWord) (s : State) := runPlain s 0x066 x fun a _ _ => a

/-! ## Predicates (R260, R261) -/

def execPcomb (x : VWord) (s : State) : Host.Outcome State Fault Refusal :=
  runPred s 0x067 x fun k l =>
    let i := (if k.w.pGet x.srcA.toNat l then 2 else 0) + (if k.w.pGet x.srcB.toNat l then 1 else 0)
    (x.sub.testBit i, 0)

def execPsave (x : VWord) (s : State) : Host.Outcome State Fault Refusal :=
  runReg s 0x068 x fun k l =>
    ([if x.uni then k.w.pMask x.srcA.toNat else if k.w.pGet x.srcA.toNat l then 1 else 0], 0)

def execPload (x : VWord) (s : State) : Host.Outcome State Fault Refusal :=
  match vStart s 0x069 x with
  | .stay s' => .next s'
  | .go k s' =>
    if x.uni then
      .next (vDone s' k (if k.performs then k.w.pSetMask x.dst.toNat (k.a 0) else k.w))
    else .next (vDone s' k (predResult k fun l => (decide (k.a l ≠ 0), 0)))

end Sys2Proof.Machine
end

