-- ==== Sys2Proof/Machine/Pools.lean ====
section
/-! DEFINITION. Continuation pools (R154, R155, R302, R303): reservation, publication and reading of records. -/

namespace Sys2Proof.Machine

def Pool.empty : Pool := { tail := 0, resv := [], pub := [], head := 0, freed := [] }
def poolOf (s : State) (c : Nat) : Pool := Tbl.get Pool.empty s.ddx.pools c
def setPool (s : State) (c : Nat) (p : Pool) : State := s.withDdx { s.ddx with pools := s.ddx.pools.set c p }

/-- Virtual address of a record by its free-running index. -/
def recordVa (s : State) (c i : Nat) : Nat :=
  cardF s c 6 63 12 * 4096 + 64 * (i % 2 ^ cardLog2n s c)

/-- Statuses of CRES. -/
def crOK : Nat := 0
def crFULL : Nat := 1
def crNOPOOL : Nat := 2
def crBADARG : Nat := 3

/-- Reserve n consecutive records: status and first index. -/
def poolReserve (s : State) (c n : Nat) : (Nat × Nat) × State :=
  if n = 0 ∨ 32 < n then ((crBADARG, 0), s)
  else if cardLog2n s c = 0 ∨ cardState s c ≠ stRunning then ((crNOPOOL, 0), s)
  else
    let p := poolOf s c
    if 2 ^ cardLog2n s c < p.tail - p.head + n then ((crFULL, 0), s)
    else
      ((crOK, p.tail % 2 ^ 32),
       setPool s c { p with tail := p.tail + n, resv := p.resv ++ (List.range n).map fun j => p.tail + j })

/-- Publish the record of a u32 index on a die; none when the index is not reserved and unpublished. -/
def poolPublish (s : State) (die c i : Nat) : Option State :=
  let p := poolOf s c
  match p.resv.find? fun x => decide (x % 2 ^ 32 = i) with
  | some x => 
    let s1 := s.withDdx { s.ddx with pubs := s.ddx.pubs + 1 }
    some (setPool s1 c { p with resv := p.resv.filter fun y => decide (y ≠ x), pub := p.pub ++ [(die, x, s.ddx.pubs)] })
  | none => none

/-- The oldest records read are free again. -/
def poolAdvance (p : Pool) : Nat → Pool
  | 0 => p
  | n + 1 =>
    if p.freed.contains p.head then
      poolAdvance { p with head := p.head + 1, freed := p.freed.filter fun x => decide (x ≠ p.head) } n
    else p

/-- Take the oldest published record of a die. -/
def poolTake (p : Pool) (die : Nat) : Option (Nat × Pool) :=
  match p.pub.find? fun e => decide (e.1 = die) with
  | some e =>
    some (e.2.1, poolAdvance { p with pub := p.pub.filter fun x => decide (x ≠ e), freed := p.freed ++ [e.2.1] }
      (p.freed.length + 1))
  | none => none

/-- The running card whose record the distributor of a die reads next: the die's records are read in publication order (R156). -/
def firstPub (s : State) (die : Nat) : Option Nat :=
  let cards := s.ddx.pools.filter fun e => decide (cardState s e.1 = stRunning)
  let heads := cards.filterMap fun e => (e.2.pub.find? fun x => decide (x.1 = die)).map fun x => (x.2.2, e.1)
  (heads.foldl (fun (a : Option (Nat × Nat)) x => match a with
    | some y => if x.1 < y.1 then some x else a
    | none => some x) none).map fun x => x.2

/-- What becomes of a record that a controller would emit. -/
inductive Emit
  | done
  | none
  | wait
  deriving DecidableEq, Repr

/-- Emit a record written by a controller of a die into a card's pool (R127); `none` when the pool takes none, `wait` while its
translation or the record's home holds it. -/
def poolEmit (s : State) (die c : Nat) (words : List DWord) : Emit × State :=
  match poolReserve s c 1 with
  | ((0, i), _) =>
    match translate s (cardSpace s c die (110 + die)) (recordVa s c i) .write with
    | (.ok pa, s1) =>
      match writeSector s1 73 (cardPid s1 c) (secOf pa) true with
      | (true, s2) =>
        let s3 := (poolReserve s2 c 1).2
        (.done, (poolPublish (homeWrite s3 73 (cardPid s3 c) pa (wordsBytes words)).1 die c i).getD s3)
      | (false, s2) => (.wait, s2)
    | (.wait, s1) => (.wait, s1)
    | (.trap _ _, s1) => (.none, s1)
  | _ => (.none, s)

end Sys2Proof.Machine
end

