-- ==== Sys2Proof/Machine/Leats.lean ====
section
/-! DEFINITION. Leats (R109 to R131): the control block, the operations of its home controller, parking, offers and
wakes, and the events in which a controller performs an operation. -/

namespace Sys2Proof.Machine

/-! ## The control block (R111 to R114) -/

structure CB where
  ident : DWord
  cfg : DWord
  head : Nat
  tail : Nat
  done : Nat
  free : Nat
  stat : DWord
  ring : DWord
  wake : DWord
  errhdr : DWord
  deriving DecidableEq, Repr

def readCb (s : State) (pa : Nat) : CB :=
  let m := s.ms.mem
  let w (o : Nat) : Nat := (m.read32 (pa + o)).toNat
  { ident := m.read64 pa, cfg := m.read64 (pa + 8), head := w 0x10, tail := w 0x14, done := w 0x18, free := w 0x1C,
    stat := m.read64 (pa + 0x20), ring := m.read64 (pa + 0x28), wake := m.read64 (pa + 0x30), errhdr := m.read64 (pa + 0x38) }

/-- Write the fields that operations change, for a requester and a PID. -/
def writeCb (s : State) (b : Nat × Nat) (pa : Nat) (c : CB) : State :=
  let s1 := (homeWrite s b.1 b.2 (pa + 0x10) (leBytes 4 c.head ++ leBytes 4 c.tail ++ leBytes 4 c.done ++ leBytes 4 c.free ++
    leBytes 8 c.stat.toNat)).1
  (homeWrite s1 b.1 b.2 (pa + 0x38) (leBytes 8 c.errhdr.toNat)).1

def CB.cap (c : CB) : Nat := 2 ^ bits c.cfg 36 32
def CB.es (c : CB) : Nat := 16 * (bits c.cfg 8 4 + 1)
def CB.mode (c : CB) : Nat := bits c.cfg 0 0
def CB.pid (c : CB) : Nat := bits c.cfg 47 44
def CB.state (c : CB) : Nat := bits c.stat 1 0
def CB.setState (c : CB) (n : Nat) : CB := { c with stat := setBits c.stat 1 0 n }
def CB.slot (c : CB) (i : Nat) : Nat := bits c.ring 43 0 + i % c.cap * c.es

def lOPEN : Nat := 0
def lDRAINING : Nat := 1
def lERROR : Nat := 2
def lCLOSED : Nat := 3

/-- Index difference modulo 2^32. -/
def dif (a b : Nat) : Nat := (a + 2 ^ 32 - b) % 2 ^ 32
def inc (a n : Nat) : Nat := (a + n) % 2 ^ 32

def cbFold (cfg ring : DWord) (pa : Nat) : Nat :=
  bits cfg 63 32 ^^^ bits cfg 31 0 ^^^ bits ring 63 32 ^^^ bits ring 31 0 ^^^ (pa / 64 % 2 ^ 32)

def cfgRsvOk (cfg : DWord) : Bool :=
  decide (bits cfg 63 48 = 0 ∧ bits cfg 43 37 = 0 ∧ bits cfg 31 9 = 0 ∧ bits cfg 3 1 = 0 ∧ bits cfg 36 32 ≤ 20)
def ringRsvOk (ring : DWord) : Bool := decide (bits ring 63 44 = 0)
def wakeRsvOk (wake : DWord) : Bool := decide (bits wake 62 58 = 0 ∧ bits wake 2 0 = 0)

/-- The check of R114: the detail of QCORRUPT. -/
def cbCheck (c : CB) (pa : Nat) : Option Nat :=
  let used := dif c.tail c.done
  if bits c.ident 63 32 ≠ 0x4C454154 then some 1
  else if bits c.ident 31 0 ≠ cbFold c.cfg c.ring pa then some 2
  else if !(cfgRsvOk c.cfg && ringRsvOk c.ring && wakeRsvOk c.wake) ∨ bits c.stat 63 17 ≠ 0 ∨ bits c.stat 7 2 ≠ 0 ∨
      2 < bits c.stat 15 8 then some 3
  else if c.free ≠ c.cap - used ∨ c.cap < used ∨ used < dif c.head c.done ∨ (c.mode = 0 ∧ c.done ≠ c.head) then some 4
  else none

/-! ## Answers -/

def stOK : Nat := 0
def stEMPTY : Nat := 1
def stFULL : Nat := 2
def stCLOSED : Nat := 3
def stBADSTATE : Nat := 4
def stBADARG : Nat := 5

def LAns.st (n : Nat) : LAns := { status := n, trap := none, r := [], wct := 0, again := false }
def LAns.tr (code detail : Nat) : LAns := { status := 0, trap := some (code, detail), r := [], wct := 0, again := false }
def LAns.ok (r : List DWord) (wct : Nat) : LAns := { status := 0, trap := none, r := r, wct := wct, again := false }
def LAns.redo : LAns := { status := 0, trap := none, r := [], wct := 0, again := true }

/-- Shadow area of a queue-processor thread (R137, R158): threads 32 and up serve the other die's queues. -/
def thDie (die th : Nat) : Nat := if th < 32 then die else 1 - die
def shadowPa (s : State) (die th : Nat) : Nat :=
  s.regF (Reg.mqShadow (thDie die th) (th % 32)) 43 11 * 2048
def thKey (die th : Nat) : Nat := 64 * die + th

def Thread.empty : Thread :=
  { st := .off, blk := none, err := 0, tag := 0, unsure := false, seq := 0, idx := 0, armLeft := 0, have_ := 0, gather := 0,
    asked := false, issued := false, stop := false, kept := false, ans := none, prep := none }
def thread (s : State) (die th : Nat) : Thread := Tbl.get Thread.empty s.th (thKey die th)
def setThread (s : State) (die th : Nat) (t : Thread) : State := { s with th := s.th.set (thKey die th) t }

/-- A thread hears an answer; a thread that is no more does not. -/
def answerThread (s : State) (die th : Nat) (a : LAns) : State :=
  match s.th.find (thKey die th) with
  | some t => setThread s die th { t with asked := false, ans := some a }
  | none => s

/-- Write SEQ and STAGE of a shadow (R158), for its queue's PID. -/
def shadowStage (s : State) (die th pid seq stage pos : Nat) : State :=
  (homeWrite s (71 + die) pid (shadowPa s die th) (leBytes 8 seq ++ leBytes 8 (stage + 8 * pos))).1

/-- The result registers of a command port (R132). -/
def portAnswer (s : State) (d c : Nat) (op : LOp) (a : LAns) : State :=
  let g := fun n => a.r.getD n 0
  let word := match a.trap with
    | some (code, _) => 256 * code
    | none => a.status
  let s1 := s.setReg (Reg.lqStat d c) (BitVec.ofNat 64 word)
  if a.trap.isSome ∨ a.status ≠ 0 then s1
  else
    match op with
    | .deq => if a.r.length = 3 then (s1.setReg (Reg.lqRes0 d c) (g 0)).setReg (Reg.lqRes1 d c) (g 2) else s1
    | .res _ => (s1.setReg (Reg.lqRes0 d c) (g 0)).setReg (Reg.lqRes1 d c) (g 1)
    | .query =>
      ((s1.setReg (Reg.lqRes0 d c) (g 1 + (g 2 <<< 32))).setReg (Reg.lqRes1 d c) (g 3 + (g 4 <<< 32))).setReg
        (Reg.lqState d c) (g 0)
    | _ => s1

/-- What the answer of a stream port's operation makes of its frame (R133), and whether SP_DROP counts, and whether the
frame's record was refused. `en` is SP_PID.EN. -/
def spAnswer (x : SpState) (en : Bool) (op : LOp) (a : LAns) : SpState × Bool × Bool :=
  let bad := decide (a.trap.isSome ∨ a.status ≠ 0)
  match op with
  | .deq =>
    if bad then ({ x with asked := false, buf := none, seq := (x.seq + 1) }, true, false)
    else ({ x with asked := false, buf := some (bits (a.r.getD 0 0) 43 9 * 512, bits (a.r.getD 1 0) 31 0) }, false, false)
  | .enq e =>
    if e.length = 64 then
      if bad then (x, true, true) else ({ x with asked := false, buf := none, ended := false, seq := x.seq + 1 }, false, false)
    else
      -- a buffer on its way back: where the free leat refuses it too, it stays until EN is cleared
      let last := !en || x.giving.contains (leNat (e.take 8), leNat ((e.drop 8).take 8), true)
      let k := (leNat (e.take 8), leNat ((e.drop 8).take 8))
      let y := { x with giving := (x.giving.erase (k.1, k.2, true)).erase (k.1, k.2, false) }
      if bad && !last then ({ y with kept := y.kept ++ [k] }, false, false) else (y, bad, false)
  | _ => (x, false, false)

/-- Bring an answer to its requester. -/
def giveAns (s : State) (q : LReq) (a : LAns) : State :=
  match q.who with
  | .warp wid op lane =>
    match s.ops.find op with
    | some o =>
      let stop := a.again || (match a.trap with
        | some (code, _) => decide (code ≠ tDEAD)
        | none => false)
      let s0 := if stop then s.withLq { s.lq with reqs := s.lq.reqs.filter fun (r : LReq) =>
          match r.who with
          | .warp _ o' _ => decide (o' ≠ op)
          | _ => true }
        else s
      let s1 := s0.setOp op { o with answers := o.answers.set lane a }
      match s1.warps.find wid with
      | some w => if w.st = .parked then s1.setWarp wid { w with st := .ready } else s1
      | none => s1
    | none => s
  | .tile tc =>
    if ((s.tiles.find tc).bind fun (t : TileCore) => t.card) = q.ctx then
      setWalkerAt s tc 3 fun w => if w.sent then { w with sent := false, ans := some a } else w
    else s
  | .port d c => portAnswer s d c q.op a
  | .qp d t => answerThread s d t a
  | .graph g n =>
    match s.ddx.graphs.find g with
    | some r => s.withDdx { s.ddx with graphs := s.ddx.graphs.set g { r with answers := r.answers.set n a } }
    | none => s
  | .sp n =>
    match s.sp.find n with
    | some x =>
      let y := spAnswer x (s.regBit (Reg.spPid n) 4) q.op a
      let s1 := s.setSp n y.1
      let s2 := if y.2.1 && !y.2.2 then s1.regInc (Reg.spDrop n) 32 else s1
      if y.2.2 then
        -- the record was refused: the free element goes back to SP_FREEQ, and the frame is dropped
        let s3 := (s1.regInc (Reg.spDrop n) 32).setSp n
          { y.1 with asked := false, buf := none, ended := false, seq := x.seq + 1
                     giving := x.giving ++ x.buf.toList.map fun e => (e.1, e.2, !(s.regBit (Reg.spPid n) 4)) }
        match x.buf with
        | some (b, z) =>
          let i := s3.fresh
          i.2.withLq { i.2.lq with reqs := i.2.lq.reqs ++
            [{ id := i.1, cb := (i.2.reg (Reg.spFreeq n)).toNat, who := .sp n,
               op := .enq (wordsBytes [BitVec.ofNat 64 b, BitVec.ofNat 64 z]), blocking := false, buf := 0,
               mode := none, ctx := none, pid := q.pid, reissue := none }] }
        | none => s3
      else s2
    | none => s

/-! ## Dequeues (R117, R121) -/

inductive Deq
  | empty
  | closed
  | fail
  | ok (h0 h1 : DWord) (slot : Nat)
  deriving DecidableEq, Repr

/-- The slots of a pad that stands at DONE (R122); 0 where none does. -/
def padAtDone (m : Mem) (c : CB) : Nat :=
  let h := m.read64 (c.slot c.done)
  let ns := bits h 52 32
  if c.done ≠ c.head ∧ bit h 63 ∧ bits h 59 56 = 0 ∧ bits h 31 0 = c.done ∧ 1 ≤ ns ∧ ns ≤ dif c.head c.done then ns else 0

/-- R122 AdvanceDone. -/
def advanceDone (m : Mem) (c : CB) : Nat → CB
  | 0 => { c with free := c.cap - dif c.tail c.done }
  | n + 1 =>
    if padAtDone m c = 0 then { c with free := c.cap - dif c.tail c.done }
    else advanceDone m { c with done := inc c.done (padAtDone m c) } n

def CB.advance (c : CB) (m : Mem) : CB := advanceDone m c (c.cap + 1)

/-- A header is well formed at HEAD (R121). -/
def hdrWell (c : CB) (h0 h1 : DWord) : Bool :=
  let ns := bits h0 52 32
  decide (bits h0 62 60 = 0 ∧ bits h0 55 53 = 0 ∧ bits h1 14 10 = 0 ∧ bits h0 31 0 = c.head ∧ 1 ≤ ns ∧
    ns ≤ dif c.tail c.head ∧ c.head % c.cap + ns ≤ c.cap)

/-- A control block gone to ERROR with a code (R121 Fail). -/
def CB.failed (c : CB) (code : Nat) (h : DWord) : CB :=
  { c.setState lERROR with stat := setBits (c.setState lERROR).stat 15 8 code, errhdr := h }

/-- The head packet's header with a killed producer's reservation turned into a pad (R121). -/
def headHdr (s : State) (b : Nat × Nat) (c : CB) (h0 h1 : DWord) : DWord × State :=
  if !(bit h0 63) && hdrWell c h0 h1 && !(bit h1 15) && decide (bits h1 31 16 ≠ cardGen s (bits h1 9 0)) then
    let h := setBits (setBits h0 59 56 0) 63 63 1
    (h, (homeWrite64 s b.1 b.2 (c.slot c.head) h).1)
  else (h0, s)

/-- One pass of the loop: an end, or a pad skipped. -/
def deqPass (s : State) (b : Nat × Nat) (c : CB) : Option Deq × CB × State :=
  if c.head = c.tail then (some .empty, c, s)
  else
    let h1 := mem64 s (c.slot c.head + 8)
    let x := headHdr s b c (mem64 s (c.slot c.head)) h1
    let h := x.1
    let well := hdrWell c h h1
    if !(bit h 63) && well then (some .empty, c, x.2)
    else if !well then (some .fail, c.failed 1 h, x.2)
    else if bits h 59 56 = 15 then (some .fail, c.failed 2 h, x.2)
    else
      let c1 := { c with head := inc c.head (bits h 52 32) }
      let last := decide (c1.state = lDRAINING ∧ c1.head = c1.tail)
      if bits h 59 56 = 0 then
        let c2 := c1.advance x.2.ms.mem
        if last then (some .closed, c2.setState lCLOSED, x.2) else (none, c2, x.2)
      else (some (.ok h h1 (c.slot c.head)), if last then c1.setState lCLOSED else c1, x.2)

/-- The packet-mode loop of R121; every pass but the last skips a pad. -/
def deqPacket (s : State) (b : Nat × Nat) (c : CB) : Nat → Deq × CB × State
  | 0 => (.empty, c, s)
  | n + 1 =>
    match deqPass s b c with
    | (some d, c1, s1) => (d, c1, s1)
    | (none, c1, s1) => deqPacket s1 b c1 n

/-- Dequeue in either mode, up to the change of the block; errors of R117 and R121 are `fail`. -/
def dequeue (s : State) (b : Nat × Nat) (c : CB) : Deq × CB × State :=
  if c.state = lCLOSED then (.closed, c, s)
  else if c.mode = 1 then deqPacket s b c (c.cap + 1)
  else if c.head = c.tail then (.empty, c, s)
  else
    let c1 := { c with head := inc c.head 1, done := inc c.head 1, free := c.free + 1 }
    (.ok 0 0 (c.slot c.head), if c1.state = lDRAINING ∧ c1.head = c1.tail then c1.setState lCLOSED else c1, s)

/-! ## Waking, serving and offering (R125 to R127) -/

def LOp.isDeq : LOp → Bool
  | .deq => true
  | _ => false

def waitersOf (s : State) (cb : Nat) : List Waiter := s.lq.waiters.filter fun (w : Waiter) => decide (w.q.cb = cb)
def delWaiter (s : State) (id : Nat) : State :=
  s.withLq { s.lq with waiters := s.lq.waiters.filter fun (w : Waiter) => decide (w.id ≠ id) }
def offered (s : State) (cb : Nat) : Option Offer := s.lq.offers.find? fun (o : Offer) => decide (o.cb = cb)
def delOffer (s : State) (cb : Nat) : State :=
  s.withLq { s.lq with offers := s.lq.offers.filter fun (o : Offer) => decide (o.cb ≠ cb) }

/-- Wake parked waiters of a block: each is removed and, unless its requester has removed it, answered. -/
def wakeAll (s : State) (cb : Nat) (p : Waiter → Bool) (a : LAns) : State :=
  (waitersOf s cb).foldl (fun (t : State) (w : Waiter) =>
    if p w then (let t1 := delWaiter t w.id; if w.marked then t1 else giveAns t1 w.q a) else t) s

/-- After a dequeue: the latch of a wake ends when the queue is empty, HEAD = TAIL in either mode (R127, assumption 47). -/
def unlatch (s : State) (cb : Nat) (c : CB) : State :=
  if c.head = c.tail ∧ s.lq.latched.contains cb then
    s.withLq { s.lq with latched := s.lq.latched.filter fun x => decide (x ≠ cb) }
  else s

/-- Whether a dequeue would now deliver something. -/
def deliverable (s : State) (cb : Nat) : Bool :=
  let c := readCb s cb
  decide (c.state ≠ lERROR) &&
    (match (dequeue s (73, c.pid) c).1 with
     | .ok _ _ _ => true
     | _ => false)

def cbDie (cb : Nat) : Nat := paDie cb

/-- Service of the block's waiters is owed: its controller goes on with it when the home or the sluice lets it. -/
def owe (s : State) (cb : Nat) : State := s.withLq { s.lq with owed := insertNat cb s.lq.owed }

/-- MaybeWake (R127). -/
def maybeWake (s : State) (cb : Nat) : State :=
  let c := readCb s cb
  if bit c.wake 63 && deliverable s cb && !((waitersOf s cb).any fun (w : Waiter) => w.q.op.isDeq) &&
      !(s.lq.latched.contains cb) then
    match poolEmit s (cbDie cb) (bits c.wake 57 48)
        [BitVec.ofNat 64 (bits c.wake 47 3 * 8), BitVec.ofNat 64 cb, 0, 0, 0, 0, 0, 0] with
    | (.done, s1) =>
      let s2 := writeCb s1 (73, c.pid) cb { c with stat := setBits c.stat 16 16 0 }
      s2.withLq { s2.lq with latched := insertNat cb s2.lq.latched }
    | (.none, s1) => writeCb s1 (73, c.pid) cb { c with stat := setBits c.stat 16 16 1 }
    | (.wait, s1) => owe s1 cb
  else s

/-! ## Homes and sluices of an operation (R78, R79, R174) -/

/-- The sluice requester (R173) for which an operation's sectors are read and written; 73 for one without a sluice. -/
def LWho.requester (s : State) : LWho → Nat
  | .warp wid _ _ => (((s.warps.find wid).bind fun (w : Warp) => w.place).map (·.1)).getD 73
  | .tile tc => 32 + tc
  | .port _ c => 65 + c
  | .qp d _ => 71 + d
  | .sp n => 56 + n
  | .graph _ _ => 73

/-- An operation's requester and PID. -/
def LReq.actsFor (s : State) (q : LReq) : Nat × Nat := (q.who.requester s, q.pid.getD (readCb s q.cb).pid)

/-- How an operation uses a sector: it reads it, writes a part of it, or writes all of it. -/
inductive SecUse
  | read
  | part
  | whole
  deriving DecidableEq, Repr

def readUses (pa n : Nat) : List (Nat × SecUse) := (spanSecs pa n).map fun x => (x, .read)
def writeUses (pa n : Nat) : List (Nat × SecUse) :=
  (spanSecs pa n).map fun x => (x, if pa ≤ 64 * x ∧ 64 * x + 64 ≤ pa + n then .whole else .part)

/-- The headers that a packet-mode dequeue reads at HEAD: past each pad, the next one. -/
def headsSeen (s : State) (c : CB) : Nat → List Nat
  | 0 => []
  | n + 1 =>
    if c.head = c.tail then []
    else
      c.slot c.head :: (match deqPass s (73, c.pid) c with
        | (none, c1, s1) => headsSeen s1 c1 n
        | _ => [])

/-- The headers that AdvanceDone reads at DONE. -/
def donesSeen (m : Mem) (c : CB) : Nat → List Nat
  | 0 => []
  | n + 1 =>
    if c.done = c.head then []
    else c.slot c.done :: (if padAtDone m c = 0 then [] else donesSeen m { c with done := inc c.done (padAtDone m c) } n)

/-- The sectors in which a dequeue looks for what it delivers. -/
def lookUses (s : State) (c : CB) : List (Nat × SecUse) :=
  if c.state = lCLOSED ∨ c.head = c.tail then []
  else if c.mode = 0 then readUses (c.slot c.head) c.es
  else
    let seen := headsSeen s c (c.cap + 1)
    let end_ := (dequeue s (73, c.pid) c).2.1
    (seen ++ (if seen.length = 1 then [] else donesSeen s.ms.mem { c with head := end_.head } (c.cap + 1))).flatMap fun a =>
      readUses a 16

/-- The sectors of an operation beside its control block. -/
def dataUses (s : State) (q : LReq) (c : CB) : List (Nat × SecUse) :=
  let open_ := decide (c.state ≠ lDRAINING ∧ c.state ≠ lCLOSED)
  match q.op with
  | .enq e =>
    (match q.who with
     | .port _ _ => readUses q.buf c.es
     | _ => []) ++ (if open_ && decide (c.mode = 0 ∧ c.free ≠ 0) then writeUses (c.slot c.tail) (max c.es e.length) else [])
  | .deq =>
    lookUses s c ++ (if c.mode = 1 ∨ c.state = lCLOSED ∨ c.head = c.tail then []
      else match q.who with
        | .sp _ => []
        | .qp d t => writeUses (shadowPa s d t) 16 ++ writeUses q.buf c.es
        | _ => writeUses q.buf c.es)
  | .res n =>
    if open_ && decide (c.mode = 1 ∧ 1 ≤ n ∧ n ≤ c.free) then
      writeUses (c.slot c.tail) 16 ++
        (if c.cap < c.tail % c.cap + n then writeUses (c.slot (c.tail + (c.cap - c.tail % c.cap))) 16 else [])
    else []
  | .done n => (donesSeen s.ms.mem { c with done := inc c.done n } (c.cap + 1)).flatMap fun a => readUses a 16
  | _ => []

/-- The sectors of an operation: its control block, and those that it uses where the block passes its checks. -/
def opUses (s : State) (q : LReq) : List (Nat × SecUse) :=
  if !(dramOk s q.cb) then []
  else
    let c := readCb s q.cb
    match q.op with
    | .init _ _ _ => [(secOf q.cb, .whole)]
    | .query => [(secOf q.cb, .read)]
    | _ =>
      if (cbCheck c q.cb).isSome then [(secOf q.cb, .read)]
      else (secOf q.cb, .part) :: (dataUses s q c).filter fun x => dramOk s (64 * x.1)

/-- Take sectors at their homes, as far as those and the sluices let it; `had` are taken already. -/
def takeUses (s : State) (b : Nat × Nat) (had : List Nat) : List (Nat × SecUse) → Bool × List Nat × State
  | [] => (true, had, s)
  | (x, u) :: t =>
    match if had.contains x then (match homeTakes s (x / 8) with
        | some s1 => (true, s1)
        | none => (false, s))
      else match u with
        | .read => homeRead s b.1 b.2 x
        | .part => writeSector s b.1 b.2 x false
        | .whole => writeSector s b.1 b.2 x true with
    | (true, s1) => takeUses s1 b (insertNat x had) t
    | (false, s1) => (false, had, s1)

/-- What an operation has taken is kept with it. -/
def setHad (s : State) (id : Nat) (had : List Nat) : State :=
  s.withLq { s.lq with
    reqs := s.lq.reqs.map fun (x : LReq) => if x.id = id then { x with had := had } else x
    waiters := s.lq.waiters.map fun (w : Waiter) => if w.id = id then { w with q := { w.q with had := had } } else w }

/-- The homes and the sluices of some sectors of an operation; false while one holds it. -/
def leatTakes (s : State) (q : LReq) (l : List (Nat × SecUse)) : Bool × State :=
  match takeUses s (q.actsFor s) q.had l with
  | (true, _, s1) => (true, s1)
  | (false, had, s1) => (false, if had = q.had then s1 else setHad s1 q.id had)

/-- The homes and the sluices of an operation. -/
def leatGate (s : State) (q : LReq) : Bool × State := leatTakes s q (opUses s q)

/-- Enqueue (R117): none when FULL. -/
def doEnq (s : State) (b : Nat × Nat) (cb : Nat) (e : List Byte) : Option LAns × State :=
  let c := readCb s cb
  if c.mode = 1 then (some (LAns.tr tQERR 2), s)
  else if c.state = lDRAINING ∨ c.state = lCLOSED then (some (LAns.st stCLOSED), s)
  else if c.free = 0 then (none, s)
  else
    let s1 := (homeWrite s b.1 b.2 (c.slot c.tail) e).1
    (some (LAns.st stOK), writeCb s1 b cb { c with tail := inc c.tail 1, free := c.free - 1 })

/-- Reserve (R119): none when FULL. -/
def doRes (s : State) (b : Nat × Nat) (cb n : Nat) (ctx : Option Ctx) : Option LAns × State :=
  let c := readCb s cb
  if c.mode = 0 then (some (LAns.tr tQERR 2), s)
  else if c.state = lDRAINING ∨ c.state = lCLOSED then (some (LAns.st stCLOSED), s)
  else if n < 1 ∨ c.cap < n then (some (LAns.tr tQLEN 0), s)
  else
    let pad0 := if c.cap < c.tail % c.cap + n then c.cap - c.tail % c.cap else 0
    let jump := decide (0 < pad0 ∧ c.done = c.tail)
    let c1 := if jump then { c with head := inc c.tail pad0, done := inc c.tail pad0, tail := inc c.tail pad0 } else c
    let pad := if jump then 0 else pad0
    if c1.free < pad + n then (none, if jump then writeCb s b cb c1 else s)
    else
      let s1 := if 0 < pad then
          (homeWrite s b.1 b.2 (c1.slot c1.tail) (wordsBytes
            [setBits (setBits (setBits 0 63 63 1) 52 32 pad) 31 0 c1.tail, 0])).1
        else s
      let t := inc c1.tail pad
      let w1 := match ctx with
        | some x => BitVec.ofNat 64 (x.gen % 65536 * 65536 + x.card % 1024)
        | none => BitVec.ofNat 64 (2 ^ 15)
      let s2 := (homeWrite s1 b.1 b.2 (c1.slot t) (wordsBytes [setBits (setBits 0 52 32 n) 31 0 t, w1])).1
      let c2 := { c1 with tail := inc t n }
      (some (LAns.ok [BitVec.ofNat 64 t, BitVec.ofNat 64 (c1.slot t)] 0),
       writeCb s2 b cb { c2 with free := c2.cap - dif c2.tail c2.done })

/-- A producer's operation. -/
def doProd (s : State) (q : LReq) : Option LAns × State :=
  match q.op with
  | .enq e => doEnq s (q.actsFor s) q.cb e
  | .res n => doRes s (q.actsFor s) q.cb n q.ctx
  | _ => (none, s)

/-- ServeConsumers (R125, R126): offer what a dequeue would deliver to the oldest parked consumer. -/
def serveConsumers (s : State) (cb : Nat) : State :=
  match (waitersOf s cb).find? fun (w : Waiter) => w.q.op.isDeq with
  | none => s
  | some w =>
    let c := readCb s cb
    let b := w.q.actsFor s
    if c.state = lERROR then s
    else
      match leatTakes s w.q (lookUses s c) with
      | (false, s1) => owe s1 cb
      | (true, s) =>
      match dequeue s b c with
      | (.ok _ _ _, _, _) =>
        s.withLq { s.lq with offers := s.lq.offers ++ [{ cb := cb, wid := w.id, time := s.now (cbDie cb) }] }
      | (.empty, c1, s1) => if c1 = c then s1 else unlatch (writeCb s1 b cb c1) cb c1
      | (.closed, c1, s1) => wakeAll (unlatch (writeCb s1 b cb c1) cb c1) cb (fun _ => true) (LAns.st stCLOSED)
      | (.fail, c1, s1) => wakeAll (writeCb s1 b cb c1) cb (fun x => x.q.op.isDeq) (LAns.tr tQERR 1)

def isEnq (q : LReq) : Bool := match q.op with
  | .enq _ => true
  | _ => false

/-- ServeProducers (R125): oldest first, up to the first that returns FULL. A parked Enqueue ends as every Enqueue does, with
ServeConsumers and MaybeWake (R117, R127); while an offer is out nothing more is performed (R126). -/
def serveProducers (s : State) (cb : Nat) : List Waiter → State
  | [] => s
  | w :: t =>
    if (offered s cb).isSome then s
    else if w.q.op.isDeq || w.marked then serveProducers s cb t
    else
      match leatGate s w.q with
      | (false, s0) => owe s0 cb
      | (true, s0) =>
        match doProd s0 w.q with
        | (some a, s1) =>
          let s2 := giveAns (delWaiter s1 w.id) w.q a
          serveProducers (if isEnq w.q && decide (a = LAns.st stOK) then maybeWake (serveConsumers s2 cb) cb else s2) cb t
        | (none, _) => s

/-- What a controller does after an operation has changed a block. -/
def serve (s : State) (cb : Nat) : State :=
  if (offered s cb).isSome ∨ (cbCheck (readCb s cb) cb).isSome then s
  else
    let s1 := serveProducers s cb (waitersOf s cb)
    let s2 := serveConsumers s1 cb
    if (offered s2 cb).isSome then s2 else serveProducers s2 cb (waitersOf s2 cb)

/-! ## Performing an operation (R109, R114, R115) -/

/-- Whether the requester's hard partition holds the leat's PID. -/
def pidMatches (s : State) (c : CB) (pid : Option Nat) : Bool :=
  match pid with
  | none => true
  | some p =>
    match pidPart s p, pidPart s c.pid with
    | some a, some b => decide (a = b)
    | _, _ => false

/-- The common checks of an operation: the answer that ends it. -/
def commonCheck (s : State) (q : LReq) : Option LAns :=
  let c := readCb s q.cb
  if !(dramOk s q.cb) then some (LAns.tr tPERM 5)
  else
  match cbCheck c q.cb with
  | some d => some (LAns.tr tQCORR d)
  | none =>
    if !(pidMatches s c q.pid) then some (LAns.tr tQERR 3)
    else
      match q.mode with
      | some (es, m) => if es = c.es ∧ m = c.mode then none else some LAns.redo
      | none => none

/-- A requester with elements of one size meets another size or mode. -/
def sizeWrong (q : LReq) (c : CB) : Bool :=
  match q.who, q.op with
  | .qp _ _, .deq => decide (c.mode = 1 ∨ c.es ≠ 64)
  | .qp _ _, .enq _ => decide (c.mode = 0 ∧ c.es ≠ 16)
  | .graph _ _, _ => decide (c.mode = 0 ∧ c.es ≠ 16)
  | .sp _, .deq => decide (c.mode = 1 ∨ c.es ≠ 16)
  | .sp _, .enq e => decide (c.mode = 0 ∧ c.es ≠ e.length)
  | _, _ => false

/-- Complete a dequeue that the requester takes: the data first, then the indices (R126). -/
def takeDeq (s : State) (q : LReq) : Option LAns × State :=
  let c := readCb s q.cb
  let b := q.actsFor s
  match dequeue s b c with
  | (.empty, c1, s1) => (none, if c1 = c then s1 else unlatch (writeCb s1 b q.cb c1) q.cb c1)
  | (.closed, c1, s1) =>
    (some (LAns.st stCLOSED), wakeAll (unlatch (writeCb s1 b q.cb c1) q.cb c1) q.cb (fun _ => true) (LAns.st stCLOSED))
  | (.fail, c1, s1) =>
    (some (LAns.tr tQERR 1), wakeAll (writeCb s1 b q.cb c1) q.cb (fun x => x.q.op.isDeq) (LAns.tr tQERR 1))
  | (.ok h0 h1 slot, c1, s1) =>
    let elem := s1.ms.mem.readN slot c.es
    let w :=
      if c.mode = 1 then (s1, 0)
      else
        match q.who with
        | .qp d t =>
          let th := thread s1 d t
          let x := setThread s1 d t { th with seq := (th.seq + 1) % 2 ^ 32, have_ := th.have_ + 1 }
          homeWrite (shadowStage x d t b.2 ((th.seq + 1) % 2 ^ 32) 1 0) b.1 b.2 q.buf elem
        | .sp _ => (s1, 0)
        | _ => homeWrite s1 b.1 b.2 q.buf elem
    let s2 := unlatch (writeCb w.1 b q.cb c1) q.cb c1
    let s3 := if c1.state = lCLOSED then wakeAll s2 q.cb (fun _ => true) (LAns.st stCLOSED) else s2
    let r := if c.mode = 1 then [h0, h1, BitVec.ofNat 64 slot]
      else match q.who with
        | .sp _ => [s1.ms.mem.read64 slot, s1.ms.mem.read64 (slot + 8)]
        | _ => []
    (some (LAns.ok r w.2), s3)

/-- End a request with its answer. -/
def endReq (s : State) (q : LReq) (a : LAns) : State :=
  giveAns (s.withLq { s.lq with reqs := s.lq.reqs.filter fun (x : LReq) => decide (x.id ≠ q.id) }) q a

/-- Park a request as a waiter entry, or hold it for re-issue when its slice has none free (R125). One whose requester has been saved
or killed meanwhile does not park: its instruction has not been performed (R129, R130). -/
def park (s : State) (q0 : LReq) : State :=
  let q := { q0 with had := [] }
  let h := homeSlice s q.cb
  let s1 := s.withLq { s.lq with reqs := s.lq.reqs.filter fun (x : LReq) => decide (x.id ≠ q.id) }
  if q.quit then endReq s q LAns.redo
  else if 512 ≤ (s.lq.waiters.filter fun (w : Waiter) => decide (w.slice = h)).length then
    s1.withLq { s1.lq with reqs := s1.lq.reqs ++ [{ q with reissue := some (s1.now (cbDie q.cb)) }] }
  else
    let s2 := s1.withLq { s1.lq with waiters := s1.lq.waiters ++ [{ id := q.id, slice := h, q := q, marked := false }] }
    match q.who with
    | .warp wid _ _ =>
      match s2.warps.find wid with
      | some w => if w.st = .ready then s2.setWarp wid { w with st := .parked } else s2
      | none => s2
    | _ => s2

/-- Answer or park. -/
def conclude (s : State) (q : LReq) (a : Option LAns) (none_ : Nat) : State :=
  match a with
  | some x => endReq s q x
  | none => if q.blocking then park s q else endReq s q (LAns.st none_)

/-- The element of an enqueue: carried by the request, read by a port now, or read by a warp at its issue. -/
inductive Elem
  | ready (e : List Byte)
  | wait
  | stop (a : LAns)

def enqElem (s : State) (q : LReq) (e : List Byte) : Elem :=
  match q.who with
  | .port _ _ =>
    let es := (readCb s q.cb).es
    if !(dramOk s q.buf) then .stop (LAns.tr tPERM 5)
    else if q.buf % 16 ≠ 0 ∨ 4096 < q.buf % 4096 + es then .stop (LAns.tr tALIGN 8)
    else if (List.range (es / 64 + 2)).any fun i => decide (64 * (q.buf / 64 + i) < q.buf + es) && poisoned s (q.buf / 64 + i)
      then .stop (LAns.tr tECC 0)
    else .ready (s.ms.mem.readN q.buf es)
  | .warp _ op _ =>
    match s.ops.find op, q.mode with
    | some o, some (es, _) =>
      let bytes := (List.range es).map fun i =>
        (o.got.find ((q.buf + i) / 64)).map fun (x : Sec) => (x.data.getD ((q.buf + i) % 64) 0, x.poison)
      if bytes.any fun b => b.isNone then .wait
      else if bytes.any fun b => (b.map (·.2)).getD false then .stop (LAns.tr tDEAD 0)
      else .ready (bytes.map fun b => (b.map (·.1)).getD 0)
    | _, _ => .ready e
  | .tile _ => .ready (e ++ List.replicate ((readCb s q.cb).es - e.length) 0)
  | _ => .ready e

/-- The request may be performed now: nothing is offered on its block, it is not held for re-issue, and no earlier
request of the same requester is before it (R109, R300). -/
def LWho.same : LWho → LWho → Bool
  | .warp a _ _, .warp b _ _ => decide (a = b)
  | a, b => decide (a = b)

def reqReady (s : State) (q : LReq) : Bool :=
  (offered s q.cb).isNone && q.reissue.isNone &&
    !(s.lq.reqs.any fun (x : LReq) => decide (x.id < q.id) && x.who.same q.who) &&
    !(s.gov.holdSlices.contains (homeSlice s q.cb))

/-- A data request of a leat: run its checks and `act`, then serve the block. -/
def runReq (s : State) (p : LReq → Bool) (act : State → LReq → State) : State :=
  match s.lq.reqs.find? fun (x : LReq) => decide (x.id = s.ev.i) with
  | some q =>
    if p q && reqReady s q then
      match leatGate s q with
      | (false, s1) => s1
      | (true, s1) =>
        match commonCheck s1 q with
        | some a => endReq s1 q a
        | none => act s1 q
    else s
  | none => s

def isRes (q : LReq) : Bool := match q.op with
  | .res _ => true
  | _ => false
def isDone (q : LReq) : Bool := match q.op with
  | .done _ => true
  | _ => false

def execLeatEnqueue (s : State) : Host.Outcome State Fault Refusal :=
  .next (runReq s isEnq fun s q =>
    let e0 := match q.op with
      | .enq e => e
      | _ => []
    let c := readCb s q.cb
    if sizeWrong q c then endReq s q (LAns.tr tQERR 2)
    else if c.mode = 1 then endReq s q (LAns.tr tQERR 2)
    else
      match enqElem s q e0 with
      | .wait => s
      | .stop a => endReq s q a
      | .ready e =>
        let r := doEnq s (q.actsFor s) q.cb e
        let s1 := conclude r.2 { q with op := .enq e } r.1 stFULL
        if r.1 = some (LAns.st stOK) then maybeWake (serve s1 q.cb) q.cb else s1)

/-- The dequeue of a requester: a queue processor's is always offered (R128). -/
def runDeq (s : State) (q : LReq) : State :=
  let c := readCb s q.cb
  if sizeWrong q c then endReq s q (LAns.tr tQERR 2)
  else if c.state = lERROR then endReq s q (LAns.tr tQERR 1)
  else
    match q.who with
    | .qp _ _ => if c.state = lCLOSED then endReq s q (LAns.st stCLOSED) else serve (park s q) q.cb
    | _ =>
      let bufBad := match q.who with
        | .port _ _ => decide (c.mode = 0) && (!(dramOk s q.buf) || decide (q.buf % 16 ≠ 0 ∨ 4096 < q.buf % 4096 + c.es))
        | _ => false
      if bufBad then endReq s q (if dramOk s q.buf then LAns.tr tALIGN 8 else LAns.tr tPERM 5)
      else
        let r := takeDeq s q
        serve (conclude r.2 q r.1 stEMPTY) q.cb

def execLeatDequeuePlain (s : State) : Host.Outcome State Fault Refusal :=
  .next (runReq s (fun q => q.op.isDeq && decide ((readCb s q.cb).mode = 0)) runDeq)

def execLeatDequeuePacket (s : State) : Host.Outcome State Fault Refusal :=
  .next (runReq s (fun q => q.op.isDeq && decide ((readCb s q.cb).mode = 1)) runDeq)

def execLeatReserve (s : State) : Host.Outcome State Fault Refusal :=
  .next (runReq s isRes fun s q =>
    let n := match q.op with
      | .res n => n
      | _ => 0
    let r := doRes s (q.actsFor s) q.cb n q.ctx
    serve (conclude r.2 q r.1 stFULL) q.cb)

def execLeatDone (s : State) : Host.Outcome State Fault Refusal :=
  .next (runReq s isDone fun s q =>
    let n := match q.op with
      | .done n => n
      | _ => 0
    let c := readCb s q.cb
    if c.mode = 0 then endReq s q (LAns.tr tQERR 2)
    else if dif c.head c.done < n then endReq s q (LAns.tr tQERR 4)
    else
      let c1 := { c with done := inc c.done n }
      serve (endReq (writeCb s (q.actsFor s) q.cb (c1.advance s.ms.mem)) q (LAns.st stOK)) q.cb)

/-! ## QCTL (R123, R124) -/

/-- Whether a range lies wholly in DRAM. -/
def dramRange (s : State) (pa n : Nat) : Bool :=
  dramOk s pa && (decide (n = 0) || (dramOk s (pa + n - 1) && decide (pa + n ≤ 2 ^ 38)))

/-- INIT's arguments are valid. -/
def initOk (s : State) (cb : Nat) (cfg ring wake : DWord) (pid : Option Nat) : Bool :=
  let ringPa := bits ring 43 0
  let size := 2 ^ bits cfg 36 32 * (16 * (bits cfg 8 4 + 1))
  cfgRsvOk cfg && ringRsvOk ring && wakeRsvOk wake && decide (ringPa % 512 = 0) && dramRange s ringPa size &&
    (decide (bits cfg 0 0 = 0) || (decide (paDie ringPa = paDie cb) && decide (paDie (ringPa + size - 1) = paDie cb))) &&
    (match pid with
     | some p => (pidPart s p).isSome && decide (pidPart s (bits cfg 47 44) = pidPart s p)
     | none => (pidPart s (bits cfg 47 44)).isSome)

def runInit (s : State) (q : LReq) (cfg ring wake : DWord) : State :=
  if !(dramOk s q.cb) then endReq s q (LAns.tr tPERM 5)
  else if !(initOk s q.cb cfg ring wake q.pid) then endReq s q (LAns.st stBADARG)
  else
    let s1 := wakeAll s q.cb (fun _ => true) (LAns.st stCLOSED)
    let cap := 2 ^ bits cfg 36 32
    let ident := setBits (setBits 0 63 32 0x4C454154) 31 0 (cbFold cfg ring q.cb)
    let body := leBytes 8 cfg.toNat ++ leBytes 4 0 ++ leBytes 4 0 ++ leBytes 4 0 ++ leBytes 4 cap ++ leBytes 8 0 ++
      leBytes 8 ring.toNat ++ leBytes 8 wake.toNat ++ leBytes 8 0
    let s2 := (homeWrite s1 (q.actsFor s).1 (bits cfg 47 44) q.cb (leBytes 8 ident.toNat ++ body)).1
    let s3 := s2.withLq { s2.lq with
      latched := s2.lq.latched.filter fun x => decide (x ≠ q.cb)
      wakes := if bit wake 63 then insertNat q.cb s2.lq.wakes else s2.lq.wakes.filter fun x => decide (x ≠ q.cb) }
    endReq s3 q (LAns.st stOK)

def execQctlInit (s : State) : Host.Outcome State Fault Refusal :=
  match s.lq.reqs.find? fun (x : LReq) => decide (x.id = s.ev.i) with
  | some q =>
    match q.op with
    | .init cfg ring wake =>
      if reqReady s q then
        match leatGate s q with
        | (false, s1) => .next s1
        | (true, s1) => .next (runInit s1 q cfg ring wake)
      else .next s
    | _ => .next s
  | none => .next s

def execQctlDrain (s : State) : Host.Outcome State Fault Refusal :=
  .next (runReq s (fun q => decide (q.op = .drain)) fun s q =>
    let c := readCb s q.cb
    if c.state ≠ lOPEN then endReq s q (LAns.st stBADSTATE)
    else if c.head = c.tail then
      endReq (wakeAll (writeCb s (q.actsFor s) q.cb (c.setState lCLOSED)) q.cb (fun _ => true) (LAns.st stCLOSED)) q (LAns.st stOK)
    else
      endReq (wakeAll (writeCb s (q.actsFor s) q.cb (c.setState lDRAINING)) q.cb (fun w => !w.q.op.isDeq) (LAns.st stCLOSED)) q
        (LAns.st stOK))

def execQctlClose (s : State) : Host.Outcome State Fault Refusal :=
  .next (runReq s (fun q => decide (q.op = .close)) fun s q =>
    let c := readCb s q.cb
    endReq (wakeAll (writeCb s (q.actsFor s) q.cb (c.setState lCLOSED)) q.cb (fun _ => true) (LAns.st stCLOSED)) q (LAns.st stOK))

def execQctlReopen (s : State) : Host.Outcome State Fault Refusal :=
  .next (runReq s (fun q => decide (q.op = .reopen)) fun s q =>
    let c := readCb s q.cb
    if c.state = lCLOSED ∧ c.head = c.tail ∧ c.done = c.head then
      endReq (writeCb s (q.actsFor s) q.cb (c.setState lOPEN)) q (LAns.st stOK)
    else endReq s q (LAns.st stBADSTATE))

def execQctlRepair (s : State) : Host.Outcome State Fault Refusal :=
  .next (runReq s (fun q => match q.op with
      | .repair _ => true
      | _ => false) fun s q =>
    let h := match q.op with
      | .repair h => h % 2 ^ 32
      | _ => 0
    let c := readCb s q.cb
    if c.state = lERROR ∧ c.done = c.head ∧ dif h c.head ≤ dif c.tail c.head then
      let c1 := { c with head := h, done := h, free := c.cap - dif c.tail h, stat := setBits (setBits c.stat 15 8 0) 1 0 0,
                         errhdr := 0 }
      serve (endReq (writeCb s (q.actsFor s) q.cb c1) q (LAns.st stOK)) q.cb
    else endReq s q (LAns.st stBADSTATE))

def execQctlQuery (s : State) : Host.Outcome State Fault Refusal :=
  .next (runReq s (fun q => decide (q.op = .query)) fun s q =>
    let c := readCb s q.cb
    let w (n : Nat) : DWord := BitVec.ofNat 64 n
    endReq s q (LAns.ok [BitVec.ofNat 64 (bits c.stat 31 0), w c.head, w c.tail, w c.done, w c.free] 0))

/-! ## Notifications, offers and waiters (R120, R125, R126, R129, R130) -/

def execPublishNotify (s : State) : Host.Outcome State Fault Refusal :=
  let cb := s.ev.i
  if (s.lq.notes.contains cb || s.lq.owed.contains cb) && (offered s cb).isNone then
    let owed := s.lq.owed.contains cb
    let s1 := s.withLq { s.lq with notes := s.lq.notes.filter fun x => decide (x ≠ cb), owed := s.lq.owed.filter fun x => decide (x ≠ cb) }
    let c := readCb s1 cb
    if (cbCheck c cb).isSome || (decide (c.mode = 0) && !owed) then .next s1
    else .next (maybeWake (serve s1 cb) cb)
  else .next s

/-- Whether the requester of an offer accepts it. -/
def accepts (s : State) (w : Waiter) : Bool :=
  !w.marked &&
    (match w.q.ctx with
     | some x => ctxLive s x
     | none => true) &&
    (match w.q.who with
     | .qp d t => (thread s d t).asked
     | _ => true)

/-- The answer to an outstanding offer arrives at the controller. An acceptance waits for the homes and the sluice of what it writes. -/
def answerOffer (s : State) (o : Offer) (yes : Bool) : State :=
  match s.lq.waiters.find? fun (w : Waiter) => decide (w.id = o.wid) with
  | none => serve (delOffer s o.cb) o.cb
  | some w =>
    if yes then
      match leatGate s w.q with
      | (false, s1) => s1
      | (true, s1) =>
        match takeDeq (delWaiter (delOffer s1 o.cb) w.id) w.q with
        | (some a, s3) => serve (giveAns s3 w.q a) o.cb
        | (none, s3) => serve s3 o.cb
    else serve (delWaiter (delOffer s o.cb) w.id) o.cb

def Offer.onTime (s : State) (o : Offer) : Bool := decide (s.now (cbDie o.cb) ≤ o.time + 2000)

def LWho.isQp : LWho → Bool
  | .qp _ _ => true
  | _ => false

def execOfferAnswer (s : State) : Host.Outcome State Fault Refusal :=
  match offered s s.ev.i with
  | some o =>
    let w := s.lq.waiters.find? fun (w : Waiter) => decide (w.id = o.wid)
    if o.onTime s && !((w.map fun (x : Waiter) => x.q.who.isQp && accepts s x).getD false) then
      .next (answerOffer s o ((w.map (accepts s)).getD false))
    else .next s
  | none => .next s

def execOfferTimeout (s : State) : Host.Outcome State Fault Refusal :=
  match offered s s.ev.i with
  | some o => if o.time + 2000 ≤ s.now (cbDie o.cb) then .next (answerOffer s o false) else .next s
  | none => .next s

/-- Mark the waiters of a requester removed and send their removals (R128, R129). -/
def removeWaiters (s : State) (p : LReq → Bool) : State :=
  let gone := s.lq.waiters.filter fun (w : Waiter) => p w.q
  s.withLq { s.lq with
    waiters := s.lq.waiters.map fun (w : Waiter) => if p w.q then { w with marked := true } else w
    removals := s.lq.removals ++ (gone.map fun (w : Waiter) => w.id).filter fun i => !(s.lq.removals.contains i) }

def execWaiterRemoval (s : State) : Host.Outcome State Fault Refusal :=
  if s.lq.removals.contains s.ev.i then
    let s1 := s.withLq { s.lq with removals := s.lq.removals.filter fun x => decide (x ≠ s.ev.i) }
    match s1.lq.waiters.find? fun (w : Waiter) => decide (w.id = s.ev.i) with
    | some w =>
      if (s1.lq.offers.any fun (o : Offer) => decide (o.wid = w.id)) then .next (delWaiter s1 w.id)
      else .next (serve (delWaiter s1 w.id) w.q.cb)
    | none => .next s1
  else .next s

def execWaiterReissue (s : State) : Host.Outcome State Fault Refusal :=
  match s.lq.reqs.find? fun (x : LReq) => decide (x.id = s.ev.i) with
  | some q =>
    match q.reissue with
    | some t =>
      if t + 1000 ≤ s.now (cbDie q.cb) then
        .next (s.withLq { s.lq with reqs := s.lq.reqs.map fun (x : LReq) =>
          if x.id = q.id then { q with reissue := none } else x })
      else .next s
    | none => .next s
  | none => .next s

def execReleaseEndReeval (s : State) : Host.Outcome State Fault Refusal :=
  let cbs := (s.lq.waiters.filter fun (w : Waiter) => w.q.op.isDeq && decide (cbDie w.q.cb = s.ev.i)).map
    fun (w : Waiter) => w.q.cb
  .next ((cbs.foldl (fun (a : List Nat) c => insertNat c a) []).foldl serve s)

/-! ## Sending operations -/

/-- Send a leat operation to its home controller. -/
def sendLeat (s : State) (cb : Nat) (who : LWho) (op : LOp) (blocking : Bool) (buf : Nat) (mode : Option (Nat × Nat))
    (ctx : Option Ctx) (pid : Option Nat) : State :=
  let i := s.fresh
  i.2.withLq { i.2.lq with reqs := i.2.lq.reqs ++
    [{ id := i.1, cb := cb, who := who, op := op, blocking := blocking, buf := buf, mode := mode, ctx := ctx,
       pid := pid, reissue := none }] }

end Sys2Proof.Machine
end

