-- ==== Sys2Proof/Machine/Lanes.lean ====
section
/-! DEFINITION. The lane, quad and warp words (R262 to R269) and the special values (R183, R231, R277). -/

namespace Sys2Proof.Machine

/-! ## Subgroups and roles (R262, R263) -/

def subBase (w l : Nat) : Nat := l - l % 2 ^ w

/-- Contributors of the subgroup of lane l, in ascending order. -/
def contributors (k : VCtx) (w l : Nat) : List Nat :=
  (lanesOf k.act).filter fun i => decide (subBase w i = subBase w l)

/-- An exchange: each Exec lane reads a source lane, its own value where the source is not valid. -/
def exchange (k : VCtx) (src : Nat → Nat) : Warp :=
  let f : LaneFn := fun l => ([if laneIn k.exec (src l) then k.a (src l) else k.a l], 0)
  let w := writeLanes k f
  let dead := (lanesOf k.exec).any fun l => !(laneIn k.exec (src l)) && laneIn k.w.dead (src l)
  if dead then { w with deadsrc := true } else w

def runExchange (s : State) (opc : Nat) (x : VWord) (src : VCtx → Nat → Nat) : Host.Outcome State Fault Refusal :=
  match vStart s opc x with
  | .stay s' => .next s'
  | .go k s' => .next (vDone s' k (exchange k (src k)))

/-- Source lane of QXCH (R266). -/
def qxchSrc (sub l : Nat) : Nat := if sub < 4 then l ^^^ (sub + 1) else l - l % 4 + (sub - 4)

def execQxch (x : VWord) (s : State) := runExchange s 0x080 x fun _ l => qxchSrc x.subX l

/-- Source lane of LPICK (R267). -/
def lpickSrc (mode w l b : Nat) : Nat :=
  let n := 2 ^ w
  let base := subBase w l
  let rel := l - base
  base + (if mode = 0 then b % n else if mode = 1 then (rel + b) % n else if mode = 2 then (rel ^^^ b) % n
    else (n - 1 - rel + b) % n)

def execLpick (x : VWord) (s : State) := runExchange s 0x081 x fun k l => lpickSrc x.subX x.width l (k.b l).toNat

/-! ## Votes (R268) -/

def voteBit (k : VCtx) (l : Nat) : Bool := k.w.pGet k.x.srcA.toNat l

/-- Contributors of a collective: the lane's subgroup, or the whole warp under U = 1 (R264). -/
def collective (k : VCtx) (l : Nat) : List Nat := if k.x.uni then lanesOf k.act else contributors k k.x.width l

def voteMask (k : VCtx) (l : Nat) : Word :=
  let base := if k.x.uni then 0 else subBase k.x.width l
  maskOf fun i => (collective k l).any fun j => decide (j = base + i) && voteBit k j

def execVote (x : VWord) (s : State) : Host.Outcome State Fault Refusal :=
  match vStart s 0x082 x with
  | .stay s' => .next s'
  | .go k s' =>
    .next (vDone s' k
      (if x.subX = 2 then regResult k fun l => ([voteMask k l], 0)
       else predResult k fun l =>
         (if x.subX = 0 then (x.uni || laneIn k.act l) && (collective k l).all (voteBit k)
          else (collective k l).any (voteBit k), 0)))

/-- LSAME (R268). -/
def sameMask (k : VCtx) (l : Nat) : Word :=
  maskOf fun i => (contributors k k.x.width l).any fun j =>
    decide (j = subBase k.x.width l + i ∧ k.a j = k.a l)

def execLsame (x : VWord) (s : State) : Host.Outcome State Fault Refusal :=
  runReg s 0x085 x fun k l => ([sameMask k l], 0)

def execLfirst (x : VWord) (s : State) : Host.Outcome State Fault Refusal :=
  match vStart s 0x086 x with
  | .stay s' => .next s'
  | .go k s' =>
    .next (vDone s' k
      (if x.uni then regResult k fun _ =>
         ([match lowLane k.act with
           | some l => k.a l
           | none => 0], 0)
       else predResult k fun l => (decide ((contributors k x.width l).head? = some l), 0)))

/-! ## Scans and reductions (R263, R269) -/

def scanIdentity (op typ : Nat) : Word :=
  if op = 1 then (if typ = 0 then 0x7FFFFFFF else 0xFFFFFFFF)
  else if op = 2 then (if typ = 0 then 0x80000000 else 0)
  else if op = 3 then 0xFFFFFFFF
  else if op = 6 then 0x80000000
  else 0

def scanCombine (op typ : Nat) (x y : Word) : Word × Nat :=
  let less := if typ = 0 then decide (x.toInt < y.toInt) else decide (x.toNat < y.toNat)
  if op = 0 then (x + y, 0)
  else if op = 1 then (if less then x else y, 0)
  else if op = 2 then (if less then y else x, 0)
  else if op = 3 then (x &&& y, 0)
  else if op = 4 then (x ||| y, 0)
  else if op = 5 then (x ^^^ y, 0)
  else let r := Fmt.fp32.add .rne x.toNat y.toNat; (BitVec.ofNat 32 r.1, r.2)

/-- The chain over lanes in order: the accumulator and the flags. -/
def scanChain (op typ : Nat) (a : Nat → Word) (l : List Nat) : Word × Nat :=
  l.foldl (fun (acc : Word × Nat) i =>
    let r := scanCombine op typ acc.1 (a i)
    (r.1, acc.2 ||| r.2)) (scanIdentity op typ, 0)

/-- The flags of a collective of floating additions: those of every chain that has a contributor. -/
def scanFlags (k : VCtx) (op : Nat) : Nat :=
  orAll ((lanesOf k.act).map fun l => (scanChain op k.x.typ k.a (collective k l)).2)

def scanRes (k : VCtx) (op : Nat) (excl : Bool) (l : Nat) : Word :=
  let c := contributors k k.x.width l
  let upTo := c.filter fun i => decide (i < l) || (!excl && decide (i = l))
  (scanChain op k.x.typ k.a upTo).1

def execScan (x : VWord) (s : State) : Host.Outcome State Fault Refusal :=
  match vStart s 0x083 x with
  | .stay s' => .next s'
  | .go k s' =>
    let w := writeLanes k fun l => ([scanRes k (x.subX % 8) (decide (8 ≤ x.subX)) l], 0)
    .next (vDone s' k (w.orFp (scanFlags k (x.subX % 8))))

def execRed (x : VWord) (s : State) : Host.Outcome State Fault Refusal :=
  match vStart s 0x084 x with
  | .stay s' => .next s'
  | .go k s' =>
    let w := regResult k fun l => ([(scanChain (x.subX % 8) x.typ k.a (collective k l)).1], 0)
    .next (vDone s' k (if x.uni && !k.performs then w else w.orFp (scanFlags k (x.subX % 8))))

/-! ## Special values (R183, R231) -/

/-- The grid of a release in blocks. -/
def relGrid (s : State) (card : Nat) : Nat × Nat × Nat :=
  match s.ddx.rel.find card with
  | some r => (bits r.grid 15 0, bits r.grid 31 16, bits r.grid 47 32)
  | none => (1, 1, 1)

def warpBlock (s : State) (w : Warp) : Option Block := s.ddx.blocks.find w.block

/-- Whether the warp belongs to a grid block; continuation and spawned warps do not. -/
def isGrid (s : State) (w : Warp) : Bool :=
  match warpBlock s w with
  | some b => decide (b.kind = .grid)
  | none => false

/-- Thread coordinates of a lane (R181). -/
def threadCoord (s : State) (w : Warp) (l : Nat) : Nat × Nat × Nat :=
  let h := relHdr s w.card 2
  let i := 32 * w.wnum + l
  (i % kBX h, i / kBX h % kBY h, i / (kBX h * kBY h))

def pick3 (t : Nat × Nat × Nat) (n : Nat) : Nat := if n = 0 then t.1 else if n = 1 then t.2.1 else t.2.2

/-- Linear team index of a block's coordinates (R152, R183). -/
def teamOf (s : State) (card : Nat) (c : Nat × Nat × Nat) : Nat :=
  let h := relHdr s card 2
  let g := relGrid s card
  let nx := g.1 / kTX h
  let ny := g.2.1 / kTY h
  c.1 / kTX h + nx * (c.2.1 / kTY h + ny * (c.2.2 / kTZ h))

/-- A special value as read in a lane. -/
def special (s : State) (k : VCtx) (n l : Nat) : Nat :=
  let w := k.w
  let g := isGrid s w
  let coord := match warpBlock s w with
    | some b => b.coord
    | none => (0, 0, 0)
  let h := relHdr s w.card 2
  if n = 0x00 then l
  else if n = 0x01 then (if g then w.wnum else 0)
  else if n = 0x02 then k.part
  else if n = 0x03 then k.core
  else if n ≤ 0x06 then (if g then pick3 (threadCoord s w l) (n - 4) else if n = 4 then l else 0)
  else if n ≤ 0x09 then (if g then pick3 (kBX h, kBY h, kBZ h) (n - 7) else if n = 7 then 32 else 1)
  else if n ≤ 0x0C then (if g then pick3 coord (n - 0xA) else 0)
  else if n ≤ 0x0F then (if g then pick3 (relGrid s w.card) (n - 0xD) else 1)
  else if n = 0x10 then (if g then teamOf s w.card coord else 0)
  else if n = 0x11 then k.act.toNat
  else if n = 0x12 then w.helper.toNat
  else if n = 0x13 then w.dead.toNat
  else if n = 0x14 then (if w.deadsrc then 1 else 0)
  else if n = 0x15 then w.fpflags
  else if n = 0x18 then s.now (coreDie k.core)
  else if n = 0x19 then cardDeadline s w.card
  else w.ch

/-- Special values that differ by lane. -/
def srnLane (n : Nat) : Bool := decide (n = 0x00 ∨ (4 ≤ n ∧ n ≤ 6))

def specialWords (s : State) (k : VCtx) (n l : Nat) : List Word :=
  let v := special s k n l
  if srnWide n then natWords 2 v else [BitVec.ofNat 32 v]

def execRdsr (x : VWord) (s : State) : Host.Outcome State Fault Refusal :=
  match vStart s 0x0C3 x with
  | .stay s' => .next s'
  | .go k s' =>
    .next (vDone s' k
      (if x.uni then
         regResult k fun _ =>
           ((if srnLane x.srn then
               match lowLane k.act with
               | some l => specialWords s' k x.srn l
               | none => [0]
             else specialWords s' k x.srn 0), 0)
       else regResult k fun l => (specialWords s' k x.srn l, 0)))

/-- A floating atomic of the warp has not completed (R290). -/
def faddPending (s : State) (wid : Nat) : Bool :=
  s.ops.any fun e => decide (e.2.wid = wid) &&
    (match e.2.kind with
     | .atom .fadd _ _ _ _ _ _ => true
     | _ => false)

def execWrsr (x : VWord) (s : State) : Host.Outcome State Fault Refusal :=
  match vStart s 0x0C4 x with
  | .stay s' => .next s'
  | .go k s' =>
    let a := k.a 0
    if decide (x.srn = 0x15) && faddPending s' k.wid then .next s'
    else if !k.performs then .next (vDone s' k k.w)
    else if x.srn = 0x14 then .next (vDone s' k { k.w with deadsrc := laneIn a 0 })
    else .next (vDone s' k { k.w with fpflags := a.toNat % 32 })

end Sys2Proof.Machine
end

