-- ==== Sys2Proof/Machine/Control.lean ====
section
/-! DEFINITION. The control words (R270 to R275), the overlay words (R276), the traps raised by instruction (R278),
and the start of a clause (R187, R188, R215 to R218). -/

namespace Sys2Proof.Machine

/-! ## Transfers (R271) -/

/-- The target of a lane, with the word's own failures. -/
inductive Target
  | addr (a : OvAddr)
  | bad (c : Cause)

def zeroAddr : OvAddr := { tok := 0, off := 0 }

/-- Resolve distinct targets in ascending lane order: the resolved address of each lane of T, or what stops. -/
def resolveAll (s : State) (k : VCtx) (first : Option Nat) :
    List (Nat × OvAddr) → List (OvAddr × OvAddr) → (Except (RRes × Nat) (List (OvAddr × OvAddr))) × State
  | [], done => (.ok done, s)
  | (l, a) :: t, done =>
    if done.any fun e => decide (e.1 = a) then resolveAll s k first t done
    else
      match resolve s k.core k.w.card k.w.gen a false first with
      | (.ok b, s1) => resolveAll s1 k first t (done ++ [(a, b)])
      | (r, s1) => (.error (r, l), s1)

/-- A lower lane than one whose own target is bad that fails to resolve, which the record then names; the loads that lower lanes
would wait for are not started. -/
def lowerFails (s : State) (k : VCtx) (list : List (Nat × OvAddr)) (l : Nat) : Option (Nat × Cause × State) :=
  match resolveAll s k (k.w.ovFirst.map fun (x : OvWant) => x.first) (list.filter fun e => decide (e.1 < l)) [] with
  | (.error (.trap c, j), s1) => some (j, c, s1)
  | _ => none

/-- A transfer of the lanes of T to their targets. `link` writes a link and raises the depth, `ret` lowers it. -/
def transfer (s : State) (k : VCtx) (tgt : Nat → Target) (link ret : Bool) : State :=
  let lanes := lanesOf k.exec
  let depth := fun l => k.w.depth.getD l 0
  let failing := lanes.findSome? fun l =>
    match tgt l with
    | .bad c => some (l, c)
    | .addr _ =>
      if link && decide (depth l = 255) then some (l, { code := tTRAPI, detail := 2 ^ 31 })
      else if ret && decide (depth l = 0) then some (l, { code := tTRAPI, detail := 2 ^ 31 + 1 })
      else none
  let list := lanes.filterMap fun l =>
    match tgt l with
    | .addr a => some (l, a)
    | .bad _ => none
  match failing with
  | some (l, c) =>
    (match lowerFails s k list l with
     | some (j, d, s1) => vTrap s1 k { d with lane := j }
     | none => vTrap s k { c with lane := l })
  | none =>
    match resolveAll s k (k.w.ovFirst.map fun (x : OvWant) => x.first) list [] with
    | (.ok done, s1) =>
      let w := (s1.warps.find k.wid).getD k.w
      let moved := { w with
        clause := none, ovFirst := none, ovWait := none
        pc := lanes32.map fun l =>
          if laneIn k.exec l then
            match tgt l with
            | .addr a => ((done.find? fun e => decide (e.1 = a)).map (·.2)).getD zeroAddr
            | .bad _ => zeroAddr
          else if laneIn k.path l then k.nextHeader
          else laneGet zeroAddr w.pc l
        depth := lanes32.map fun l =>
          let d := depth l
          if laneIn k.exec l then (if link then d + 1 else if ret then d - 1 else d) else d }
      let w2 := if link then
          lanes.foldl (fun (a : Warp) l =>
            a.dstWrite k.x.dst.toNat l [BitVec.ofNat 32 k.nextHeader.off, k.c.at_.tok]) moved
        else moved
      sweepOvls (putWarp s1 k w2) k.core
    | (.error (r, l), s1) =>
      let w := (s1.warps.find k.wid).getD k.w
      match r with
      | .trap c => trapWarp (s1.setWarp k.wid { w with ovFirst := none, ovWait := none }) k.wid { c with lane := l } k.exec
      | r => s1.setWarp k.wid (w.await (s1.now (coreDie k.core)) r)

def runTransfer (s : State) (opc : Nat) (x : VWord) (tgt : VCtx → Nat → Target) (link ret : Bool) :
    Host.Outcome State Fault Refusal :=
  match vStart s opc x with
  | .stay s' => .next s'
  | .go k s' => .next (transfer s' k (tgt k) link ret)

/-- The form-B target (R230). -/
def tgtHere (k : VCtx) (off : Nat) : Target := .addr { tok := k.c.at_.tok, off := off }

def execBra (x : VWord) (s : State) : Host.Outcome State Fault Refusal :=
  runTransfer s 0x0A0 x (fun k _ => tgtHere k (8 * x.mod.toNat)) false false

def execBrx (x : VWord) (s : State) : Host.Outcome State Fault Refusal :=
  runTransfer s 0x0A1 x (fun k l =>
    if 2 ^ 16 ≤ (k.a l).toNat then .bad { code := tOVTOK, detail := 1 } else tgtHere k (k.a l).toNat) false false

def execCall (x : VWord) (s : State) : Host.Outcome State Fault Refusal :=
  runTransfer s 0x0A2 x (fun k _ => tgtHere k (8 * x.mod.toNat)) true false

def execRet (x : VWord) (s : State) : Host.Outcome State Fault Refusal :=
  runTransfer s 0x0A3 x (fun k l => .addr (ovAddr (k.a64 l))) false true

def execOcall (x : VWord) (s : State) : Host.Outcome State Fault Refusal :=
  runTransfer s 0x0A4 x (fun k l => .addr (ovAddr (k.a64 l))) (decide (x.dst ≠ 448)) false

/-! ## Waits and exits (R272 to R275) -/

/-- End a clause-ending word at which the lanes of a mask stand and the rest of the path goes on. -/
def standAt (k : VCtx) (stand : Word) (how : LWait) : Warp :=
  let w := k.w
  { w with
    clause := none
    pc := lanes32.map fun l =>
      if laneIn k.path l then
        (if laneIn stand l then { k.c.at_ with off := k.c.at_.off + 8 * k.c.next } else k.nextHeader)
      else laneGet zeroAddr w.pc l
    wait := lanes32.map fun l => if laneIn stand l then how else laneGet .none w.wait l }

/-- Make the lanes of the path stand at the word under a wait, and settle at once what is already over. -/
def stand (s : State) (k : VCtx) (m : Word) (how : LWait) : State :=
  putWarp s k (settle s (standAt k m how))

def execConv (x : VWord) (s : State) : Host.Outcome State Fault Refusal :=
  match vStart s 0x0A5 x with
  | .stay s' => .next s'
  | .go k s' => .next (stand s' k k.exec (.conv (k.a 0)))

def execExit (x : VWord) (s : State) : Host.Outcome State Fault Refusal :=
  match vStart s 0x0A6 x with
  | .stay s' => .next s'
  | .go k s' =>
    let w := { advance k k.w with exited := k.w.exited ||| k.exec }
    .next (tryRetire (sweepOvls (putWarp s' k w) k.core) k.wid)

def execSleep (x : VWord) (s : State) : Host.Outcome State Fault Refusal :=
  match vStart s 0x0A7 x with
  | .stay s' => .next s'
  | .go k s' =>
    let d := (k.a 0).toNat
    if d = 0 then .next (vDone s' k k.w)
    else .next (stand s' k k.exec (.sleep (s'.now (coreDie k.core) + d)))

def execWaitf (x : VWord) (s : State) : Host.Outcome State Fault Refusal :=
  match vStart s 0x0A8 x with
  | .stay s' => .next s'
  | .go k s' =>
    let m := (k.a 0).toNat % 2 ^ 12
    if k.w.badFlags m && decide (k.exec ≠ 0) then .next (vTrap s' k { code := tECC, detail := 0 })
    else .next (stand s' k k.exec (.waitf m))

def execNop (x : VWord) (s : State) : Host.Outcome State Fault Refusal :=
  match vStart s 0x0A9 x with
  | .stay s' => .next s'
  | .go k s' => .next (vDone s' k k.w)

/-! ## Long-latency issue (R218, R219) -/

/-- Issue a long-latency operation: its number, its flag counted. -/
def issueOp (s : State) (k : VCtx) (kind : OpKind) (lanes : List LaneAcc) (order : List Nat) : Nat × State :=
  let flag := k.c.flag k.x.fs
  let i := s.fresh
  let o : PendOp :=
    { wid := k.wid, core := k.core, ctx := { card := k.w.card, gen := k.w.gen }, kind := kind,
      dst := dstRef k.x.dst.toNat, flag := flag, lanes := lanes, got := [], answers := [], order := order, wct := 0,
      issue := i.2.now (coreDie k.core), result := [], back := some k.c }
  let s1 := i.2.setOp i.1 o
  let w := (s1.warps.find k.wid).getD k.w
  (i.1, match flag with
    | some n => s1.setWarp k.wid (w.flagInc n)
    | none => s1)

/-- End a word that has issued an operation, with the warp as it now stands. -/
def vDoneHere (s : State) (k : VCtx) : State := vDone s k ((s.warps.find k.wid).getD k.w)

/-! ## Overlay words (R276) -/

def execOvld (x : VWord) (s : State) : Host.Outcome State Fault Refusal :=
  match vStart s 0x0C0 x with
  | .stay s' => .next s'
  | .go k s' =>
    if !k.performs then .next (vDone s' k k.w)
    else
      let ovid := (k.a 0).toNat % 2 ^ 12
      let i := issueOp s' k (.ovld k.core (k.b 0).toNat) [] []
      match explicitLoad i.2 k.core k.w.card ovid (k.b 0).toNat (some i.1) false with
      | (.now st tok, s2) => .next (vDoneHere (finishOps s2 [i.1] tok st) k)
      | (.later _, s2) => .next (vDoneHere s2 k)
      | (.again, s2) => .next { s2 with ops := s'.ops, warps := s'.warps, next := s'.next }

/-- The words that OVQRY returns. -/
def ovqryRes (s : State) (core card gen ovid : Nat) (e : OvE) : List Word :=
  let o := (istore s core).ovls.find? fun (o : Ovl) => decide (o.card = card ∧ o.gen = gen ∧ o.ovid = ovid)
  let tok := match o with
    | some v => ovlTok s core v
    | none => coldTok ovid
  let st := match o with
    | some v => if v.st = .loading then 1 else if ovlPinned s core v then 3 else 2
    | none => 0
  match e with
  | .ok _ n _ => [tok, BitVec.ofNat 32 (st + 4 * (n - 1))]
  | _ => [tok, BitVec.ofNat 32 (st + 2 ^ 31)]

def execOvqry (x : VWord) (s : State) : Host.Outcome State Fault Refusal :=
  match vStart s 0x0C1 x with
  | .stay s' => .next s'
  | .go k s' =>
    if !k.performs then .next (vDone s' k k.w)
    else
      let ovid := (k.a 0).toNat % 2 ^ 12
      match ovEntry s' k.core k.w.card ovid with
      | (.wait, s1) => .next s1
      | (e, s1) =>
        let i := issueOp s1 k .ovqry [] []
        let r := ovqryRes s1 k.core k.w.card k.w.gen ovid e
        match i.2.ops.find i.1 with
        | some o => .next (vDoneHere (i.2.setOp i.1 { o with result := r }) k)
        | none => .next i.2

def execOvrel (x : VWord) (s : State) : Host.Outcome State Fault Refusal :=
  match vStart s 0x0C2 x with
  | .stay s' => .next s'
  | .go k s' =>
    if !k.performs then .next (vDone s' k k.w)
    else
      let ovid := (k.a 0).toNat % 2 ^ 12
      .next (vDoneHere (invalWhere s' k.core false fun (o : Ovl) =>
        decide (o.card = k.w.card ∧ o.gen = k.w.gen ∧ o.ovid = ovid)) k)

/-! ## Traps raised by instruction (R278) -/

/-- A trap word: with an active lane it traps the warp, naming those lanes; else the path goes on. -/
def runTrapWord (s : State) (opc : Nat) (x : VWord) (code src : Nat) : Host.Outcome State Fault Refusal :=
  match vStart s opc x with
  | .stay s' => .next s'
  | .go k s' =>
    match lowLane k.act with
    | some l =>
      .next (trapWarp s' k.wid { code := code, detail := src * 2 ^ 30 + (k.a 0).toNat % 2 ^ 16, lane := l } k.act)
    | none => .next (vDone s' k k.w)

def execTrap (x : VWord) (s : State) : Host.Outcome State Fault Refusal := runTrapWord s 0x0C5 x tTRAPI 0
def execBkpt (x : VWord) (s : State) : Host.Outcome State Fault Refusal := runTrapWord s 0x0C6 x tBKPT 0
def execSvc (x : VWord) (s : State) : Host.Outcome State Fault Refusal := runTrapWord s 0x0C7 x tTRAPI 1

/-! ## The start of a clause (R187, R188, R215 to R218) -/

/-- The trap of a path at its header: the warp stands on that path. -/
def pathTrap (s : State) (wid : Nat) (w : Warp) (l : Nat) (c : Cause) : State :=
  trapWarp (s.setWarp wid { w with ovFirst := none, ovWait := none, rot := l }) wid { c with lane := l } (w.pathOf l)

/-- Make a path's pc current before its header is fetched: after a placement, a restore or a RESUME_AT (R206, R213). -/
def resolvePath (s : State) (wid : Nat) (w : Warp) (core l : Nat) : Option Warp × State :=
  let a := laneGet zeroAddr w.pc l
  match tokCurrent s core w.card w.gen a.tok with
  | some o =>
    if badForm a o.npg then (none, pathTrap s wid w l { code := tOVTOK, detail := 1 })
    else (some { w with ovFirst := none, ovWait := none }, s)
  | none =>
    match resolve s core w.card w.gen a w.entry (w.ovFirst.map fun (x : OvWant) => x.first) with
    | (.ok b, s1) =>
      let m := w.pathOf l
      (some { w with
        ovFirst := none, ovWait := none
        pc := lanes32.map fun i => if laneIn m i then b else laneGet zeroAddr w.pc i }, s1)
    | (.trap c, s1) => (none, pathTrap s1 wid w l c)
    | (r, s1) => (none, s1.setWarp wid (w.await (s1.now (coreDie core)) r))

/-- CLAUSE_BEGIN: the checks of the header at its fetch (R217, R215), the wait mask (R218), and the clause entered.
The lane that leads the path is `rot`. -/
def execClauseBegin (h : DWord) (s : State) : Host.Outcome State Fault Refusal :=
  match s.focus with
  | .warp wid =>
    match s.warps.find wid with
    | some w =>
      match w.place with
      | some p =>
        let a := laneGet zeroAddr w.pc w.rot
        let m := w.pathOf w.rot
        if w.st ≠ .ready ∨ w.hold.isSome ∨ w.clause.isSome ∨ w.isLive w.rot = false then .next s
        else if !(hdrOk h) then .next (trapWarp s wid { code := tENC, detail := 1 } m)
        else if !(clauseFits s p.1 w a (hdrLen h)) then .next (trapWarp s wid { code := tOVTOK, detail := 2 } m)
        else if w.badFlags (hdrWait h) then .next (trapWarp s wid { code := tECC, detail := 0 } m)
        else if !(w.flagsClear (hdrWait h)) then .next s
        else
          let k := stamp s
          let s1 := match tokCurrent k.2 p.1 w.card w.gen a.tok with
            | some o => setOvl k.2 p.1 { o with used := k.1 }
            | none => k.2
          .next (s1.setWarp wid { w.takeFlags (hdrWait h) with
            clause := some { at_ := a, hdr := h, next := 1, lanes := m, doneLanes := 0 }, entry := false })
      | none => .next s
    | none => .next s
  | _ => .next s

end Sys2Proof.Machine
end

