-- ==== Sys2Proof/Machine/VMem.lean ====
section
/-! DEFINITION. Loads, stores, copies, atomics, reductions and fences of the vision array (R279 to R293). -/

namespace Sys2Proof.Machine

/-! ## Addresses and checks (R279) -/

inductive AccRes
  | ok (l : List LaneAcc)
  | trap (c : Cause)
  | wait

def sizeBytes (z : Nat) : Nat := 2 ^ z

def cSpace (s : State) (k : VCtx) : Space := cardSpace s k.w.card (coreDie k.core) k.core

/-- Bytes of scratchpad that the warp's block holds; none for a continuation warp. -/
def spmSize (s : State) (w : Warp) : Nat :=
  match warpBlock s w with
  | some b => b.spm
  | none => 0

/-- One lane's address checked: `need` is the alignment, `code` the SIZE code that ALIGN reports. -/
def laneCheck (s : State) (k : VCtx) (spm : Bool) (need size code : Nat) (a : Acc) (va l : Nat) : AccRes × State :=
  if va % need ≠ 0 then (.trap { code := tALIGN, detail := code, addr := if spm then 0 else va, lane := l }, s)
  else if spm then
    if spmSize s k.w < va + size then (.trap { code := tSPM, detail := va, lane := l }, s)
    else (.ok [{ lane := l, pa := va, va := va, zero := false }], s)
  else
    match translate s (cSpace s k) va a with
    | (.ok pa, s1) => (.ok [{ lane := l, pa := pa, va := va, zero := false }], s1)
    | (.trap c r, s1) => (.trap { code := c, detail := r, addr := va, lane := l }, s1)
    | (.wait, s1) => (.wait, s1)

/-- The addresses of lanes in ascending order; a helper lane of a load that fails reads zero (R182). -/
def laneAddrs (s : State) (k : VCtx) (spm : Bool) (need size code : Nat) (a : Acc) (load : Bool) (va : Nat → Nat) :
    List Nat → AccRes × State
  | [] => (.ok [], s)
  | l :: t =>
    match laneCheck s k spm need size code a (va l) l with
    | (.ok x, s1) =>
      match laneAddrs s1 k spm need size code a load va t with
      | (.ok y, s2) => (.ok (x ++ y), s2)
      | r => r
    | (.trap c, s1) =>
      if load && laneIn k.w.helper l then
        match laneAddrs s1 k spm need size code a load va t with
        | (.ok y, s2) => (.ok ({ lane := l, pa := 0, va := va l, zero := true } :: y), s2)
        | r => r
      else (.trap c, s1)
    | (.wait, s1) => (.wait, s1)

/-- Address of a lane: global A + SignExt(B), scratchpad (A + B) mod 2^32. -/
def lanePlace (k : VCtx) (spm disp : Bool) (l : Nat) : Nat :=
  if spm then (if disp then (k.a l + k.b l).toNat else (k.a l).toNat)
  else if disp then (k.a64 l + (k.b l).signExtend 64).toNat else (k.a64 l).toNat

/-- Alignment a word requires: scratchpad LD and ST need at most 4. -/
def alignNeed (spm ldst : Bool) (size : Nat) : Nat := if spm && ldst then min size 4 else size

/-! ## Scratchpad (R285 to R287, R289) -/

def setBlock (s : State) (i : Nat) (b : Block) : State := s.withDdx { s.ddx with blocks := s.ddx.blocks.set i b }

def spmPoisoned (b : Block) (off size : Nat) : Bool := b.poison.any fun w => decide (4 * w < off + size ∧ off < 4 * w + 4)

/-- Write scratchpad bytes; a word all four bytes of which are written loses its poison. -/
def spmWrite (b : Block) (off : Nat) (bs : List Byte) : Block :=
  { b with
    mem := b.mem.writeN off bs
    poison := b.poison.filter fun w => !(decide (off ≤ 4 * w ∧ 4 * w + 4 ≤ off + bs.length)) }

def spmMark (b : Block) (off size : Nat) : Block :=
  { b with poison := (List.range size).foldl (fun (a : List Nat) i => insertNat ((off + i) / 4) a) b.poison }

/-- First offset of the second core's part of a pair allocation (R192). -/
def pairSplit (b : Block) : Nat := 256 * ((b.spm / 256 + 1) / 2)

/-- Word indices that an access covers. -/
def wordsOfAcc (off size : Nat) : List Nat := (List.range ((off + size + 3) / 4 - off / 4)).map fun i => off / 4 + i

/-- Passes over one core's banks (R286). -/
def bankPasses (ws : List Nat) : Nat :=
  (List.range 32).foldl (fun (m : Nat) b => max m (ws.filter fun w => decide (w % 32 = b)).length) 0

def spmCount (s : State) (core passes : Nat) : State :=
  (s.regInc (Reg.spmWords core) 64).setReg (Reg.spmPasses core)
    (BitVec.ofNat 64 (min ((s.reg (Reg.spmPasses core)).toNat + passes) (2 ^ 64 - 1)))

/-- Count a scratchpad word and its passes on the cores that serve it (R287). -/
def spmServe (s : State) (w : Warp) (core : Nat) (acc : List (Nat × Nat)) : State :=
  let ws := (acc.flatMap fun e => wordsOfAcc e.1 e.2).foldl (fun (a : List Nat) x => insertNat x a) []
  match warpBlock s w with
  | some b =>
    match b.cores with
    | [c0, c1] =>
      let lo := ws.filter fun x => decide (4 * x < pairSplit b)
      let hi := ws.filter fun x => decide (pairSplit b ≤ 4 * x)
      if ws = [] then spmCount s core 1
      else
        let s1 := if lo = [] then s else spmCount s c0 (bankPasses lo)
        if hi = [] then s1 else spmCount s1 c1 (bankPasses hi)
    | _ => spmCount s core (max 1 (bankPasses ws))
  | none => spmCount s core 1

/-! ## LD (R281, R282, R284) -/

/-- A sector of a line that the core's L1 owns stands in it. -/
def ownedHere (s : State) (core sec : Nat) : Bool :=
  (((l1Of s core).find (sec / 8)).bind fun (x : LLine) => x.own).any fun (o : Owned) => o.valid.contains (sec % 8)

/-- Fix what a load can at its issue (R84, R100): a sector of a line its own L1 owns, or a copy under a lease; after every earlier access of the
agent to the sector, but for an asynchronous copy (R90, R102). -/
def readNow (s : State) (core sec tf id : Nat) (a : Agent) (copy : Bool) : Option (Sec × State) :=
  if !copy && earlierLoad s id a sec then none
  else if !copy && ownEarlier s id core a sec && (leaseHit (l1Of s core) sec (s.now (coreDie core)) tf).isNone then none
  else if !copy && s.ops.any fun e => decide (e.1 < id ∧ a = .warp e.2.wid) && e.2.atomOn sec then none
  else if l1Owner s (sec / 8) = some core then
    (if ownedHere s core sec then some (homeSec s sec (s.now (coreDie core)), l1Touch s core (sec / 8)) else none)
  else
    match leaseHit (l1Of s core) sec (s.now (coreDie core)) tf with
    | some (x, _) => some (x, l1Touch s core (sec / 8))
    | none => none

/-- Read the distinct sectors of an operation: those at hand now, fills for the rest. -/
def readSectors (s : State) (op core pid tf : Nat) (a : Agent) (ctx : Option Ctx) (secs : List Nat) : State :=
  secs.foldl (fun (s : State) sec =>
    match readNow s core sec tf op a (copyOp s (some op)) with
    | some (x, s1) => giveSec s1 (some op) sec x
    | none => issueFill s a pid ctx core sec tf (some op)) s

/-- Distinct sectors of lane accesses, rising. -/
def accSecs (l : List LaneAcc) : List Nat :=
  (l.filter fun (x : LaneAcc) => !x.zero).foldl (fun (a : List Nat) (x : LaneAcc) => insertNat (secOf x.pa) a) []

def warpCtx (w : Warp) : Ctx := { card := w.card, gen := w.gen }

def setHold (s : State) (wid : Nat) (h : Option Nat) : State :=
  match s.warps.find wid with
  | some w => s.setWarp wid { w with hold := h }
  | none => s

/-- Issue a load: an operation whose scratchpad value, or whose sectors at hand, are fixed now. A uniform load, whose ECC trap is
precise, holds the warp (R190, R284); one that will trap is not counted (R287). -/
def issueLoad (s : State) (k : VCtx) (l : List LaneAcc) : State :=
  let x := k.x
  let spm := decide (x.space = 1)
  let size := sizeBytes x.size
  let acq := decide (x.ord = 1)
  let i := issueOp s k (.load spm size x.sx x.uni acq) l []
  let s1 :=
    if spm then
      match warpBlock i.2 k.w, i.2.ops.find i.1 with
      | some b, some o =>
        let got := l.foldl (fun (g : Tbl Sec) (e : LaneAcc) =>
          if e.zero then g
          else g.set e.lane { data := b.mem.readN e.pa size, poison := spmPoisoned b e.pa size, req := 0 }) []
        let s1 := i.2.setOp i.1 { o with got := got }
        if x.uni && got.any (fun e => e.2.poison) then s1
        else spmServe s1 k.w k.core ((l.filter fun (e : LaneAcc) => !e.zero).map fun (e : LaneAcc) => (e.pa, size))
      | _, _ => i.2
    else readSectors i.2 i.1 k.core (cardPid i.2 k.w.card) k.w.tf (.warp k.wid) (some (warpCtx k.w)) (accSecs l)
  vDoneHere (if acq || x.uni then setHold s1 k.wid (some i.1) else s1) k

def execLd (x : VWord) (s : State) : Host.Outcome State Fault Refusal :=
  match vStart s 0x100 x with
  | .stay s' => .next s'
  | .go k s' =>
    let spm := decide (x.space = 1)
    let size := sizeBytes x.size
    if x.uni && !k.performs then .next (vDone s' k k.w)
    else
      match laneAddrs s' k spm (alignNeed spm true size) size x.size .read (!x.uni) (lanePlace k spm true)
        (if x.uni then [0] else lanesOf k.exec) with
      | (.ok l, s1) => .next (issueLoad s1 k l)
      | (.trap c, s1) => .next (vTrap s1 k c)
      | (.wait, s1) => .next s1

/-! ## ST (R283, R284) -/

/-- The bytes that the data registers of a lane give a store. -/
def storeData (k : VCtx) (f l size : Nat) : List Byte :=
  leBytes size (wordsNat (k.w.srcGroup k.imm f l (regsOfSize (if size = 8 then 3 else if size = 16 then 4 else 2))))

/-- Issue plain stores of bytes: one request a sector, the core's L1 updated and its RDC's copy dropped (R65, R67). -/
def issueStores (s : State) (a : Agent) (rq pid : Nat) (ctx : Option Ctx) (die core : Nat) (bs : List (Nat × Byte)) : State :=
  let secs := (bs.map fun e => e.1 / 64).foldl (fun (t : List Nat) x => insertNat x t) []
  secs.foldl (fun (s : State) sec =>
    let here := bs.filter fun e => decide (e.1 / 64 = sec)
    let s1 := if core < 56 then l1Update s core sec here else s
    let s2 := if paDie (64 * sec) = die then s1 else rdcDropSec s1 die sec
    issueReq s2 a rq pid ctx die core (.store here) sec 0 none) s

/-- The fence of a .rel form has completed (R97). -/
def relReady (s : State) (k : VCtx) (rel : Bool) : Bool := !rel || fenceDone s k.wid k.w k.x.scope s.next

def issueStore (s : State) (k : VCtx) (l : List LaneAcc) : State :=
  let size := sizeBytes k.x.size
  if k.x.space = 1 then
    match warpBlock s k.w with
    | some b =>
      let b1 := l.foldl (fun (b : Block) (e : LaneAcc) => spmWrite b e.pa (storeData k k.x.srcC.toNat e.lane size)) b
      vDone (spmServe (setBlock s k.w.block b1) k.w k.core (l.map fun (e : LaneAcc) => (e.pa, size))) k k.w
    | none => vDone s k k.w
  else
    let bs := l.flatMap fun (e : LaneAcc) => bytesAt e.pa (storeData k k.x.srcC.toNat e.lane size)
    vDoneHere (issueStores s (.warp k.wid) k.core (cardPid s k.w.card) (some (warpCtx k.w)) (coreDie k.core) k.core bs) k

def execSt (x : VWord) (s : State) : Host.Outcome State Fault Refusal :=
  match vStart s 0x101 x with
  | .stay s' => .next s'
  | .go k s' =>
    let spm := decide (x.space = 1)
    let size := sizeBytes x.size
    if x.uni && !k.performs then .next (vDone s' k k.w)
    else if !(relReady s' k (decide (x.ord = 2))) then .next s'
    else
      match laneAddrs s' k spm (alignNeed spm true size) size x.size .write false (lanePlace k spm true)
        (if x.uni then [0] else lanesOf k.act) with
      | (.ok l, s1) => .next (issueStore s1 k l)
      | (.trap c, s1) => .next (vTrap s1 k c)
      | (.wait, s1) => .next s1

/-! ## CPA (R288, R289): the lowest failing lane's first failing check in the order of R279, alignment of either address first -/

/-- Issue a copy: to the scratchpad it reads its sources, to global memory it owns the lines it will write. -/
def issueCopy (s : State) (k : VCtx) (l : List LaneAcc) : State :=
  let toSpm := decide (k.x.space = 1)
  let offs := l.map fun (e : LaneAcc) => (k.b e.lane).toNat
  let i := issueOp s k (.copy toSpm offs) l []
  let pid := cardPid i.2 k.w.card
  let s1 := spmServe i.2 k.w k.core (offs.map fun o => (o, 16))
  let s2 :=
    if toSpm then readSectors s1 i.1 k.core pid 0 (.warp k.wid) (some (warpCtx k.w)) (accSecs l)
    else
      match warpBlock s1 k.w with
      | some b =>
        (accSecs l).foldl (fun (a : State) sec =>
          let here := (l.zip offs).filter fun e => decide (secOf e.1.pa = sec)
          let bs := here.flatMap fun e => bytesAt e.1.pa (b.mem.readN e.2 16)
          let bad := here.any fun e => spmPoisoned b e.2 16
          issueEngine a (.warp k.wid) k.core pid (some (warpCtx k.w)) (coreDie k.core) k.core sec bs bad (some i.1)) s1
      | none => s1
  vDoneHere s2 k

def execCpa (x : VWord) (s : State) : Host.Outcome State Fault Refusal :=
  match vStart s 0x102 x with
  | .stay s' => .next s'
  | .go k s' =>
    let toSpm := decide (x.space = 1)
    match laneAddrs s' k false 16 16 4 (if toSpm then .read else .write) false (lanePlace k false false) (lanesOf k.act) with
    | (.ok l, s1) =>
      match laneAddrs s1 k true 16 16 4 .read false (fun i => (k.b i).toNat) (lanesOf k.act) with
      | (.ok _, s2) => .next (issueCopy s2 k l)
      | (.trap c, s2) => .next (vTrap s2 k c)
      | (.wait, s2) => .next s2
    | (.trap c, s1) =>
      match laneAddrs s1 k true 16 16 4 .read false (fun i => (k.b i).toNat) (lanesOf k.act) with
      | (.trap d, s2) =>
        .next (vTrap s2 k (if d.lane < c.lane ∨ (d.lane = c.lane ∧ d.code = tALIGN ∧ c.code ≠ tALIGN) then d else c))
      | (_, s2) => .next (vTrap s2 k c)
    | (.wait, s1) => .next s1

/-! ## ATOM and FRED (R290, R291) -/

def group64 (l : List Word) : DWord := BitVec.ofNat 64 (wordsNat l)

/-- The operand of a lane as 64 bits. -/
def laneOperand (k : VCtx) (f l : Nat) : DWord := group64 (k.w.srcGroup k.imm f l (regsOfSize k.x.size))

/-- Scratchpad atomics are performed at their banks at issue, in ascending lane order: the old values and the flags. -/
def spmAtomics (k : VCtx) (op : RedOp) (size : Nat) (b : Block) (l : List LaneAcc) : Block × Tbl Sec × Nat :=
  l.foldl (fun (a : Block × Tbl Sec × Nat) (e : LaneAcc) =>
    let old := a.1.mem.readN e.pa size
    if spmPoisoned a.1 e.pa size then
      (a.1, a.2.1.set e.lane { data := old, poison := true, req := 0 }, a.2.2)
    else
      let r := redValue op k.x.sx size (BitVec.ofNat 64 (leNat old)) (laneOperand k k.x.srcB.toNat e.lane)
        (laneOperand k k.x.srcC.toNat e.lane)
      (spmWrite a.1 e.pa (leBytes size r.1.toNat), a.2.1.set e.lane { data := old, poison := false, req := 0 },
        a.2.2 ||| r.2)) (b, [], 0)

def runAtom (s : State) (opc : Nat) (x : VWord) (op : RedOp) : Host.Outcome State Fault Refusal :=
  match vStart s opc x with
  | .stay s' => .next s'
  | .go k s' =>
    let spm := decide (x.space = 1)
    let size := sizeBytes x.size
    if !(relReady s' k (decide (2 ≤ x.ord))) then .next s'
    else
      match laneAddrs s' k spm size size x.size .rw false (lanePlace k spm false) (lanesOf k.act) with
      | (.trap c, s1) => .next (vTrap s1 k c)
      | (.wait, s1) => .next s1
      | (.ok l, s1) =>
        let acq := decide (x.ord = 1 ∨ x.ord = 3)
        let help := (lanesOf (k.exec &&& k.w.helper)).map fun i => ({ lane := i, pa := 0, va := 0, zero := true } : LaneAcc)
        let bs := (List.range 32).map fun i => laneOperand k x.srcB.toNat i
        let cs := (List.range 32).map fun i => laneOperand k x.srcC.toNat i
        let i := issueOp s1 k (.atom op spm size x.sx acq bs cs) (l ++ help) []
        let s2 :=
          if spm then
            match warpBlock i.2 k.w, i.2.ops.find i.1 with
            | some b, some o =>
              let r := spmAtomics k op size b l
              let w := (i.2.warps.find k.wid).getD k.w
              spmServe (((setBlock i.2 k.w.block r.1).setOp i.1 { o with got := r.2.1 }).setWarp k.wid (w.orFp r.2.2)) k.w
                k.core (l.map fun (e : LaneAcc) => (e.pa, size))
            | _, _ => i.2
          else i.2
        .next (vDoneHere (if acq then setHold s2 k.wid (some i.1) else s2) k)

def execAtomAdd (x : VWord) (s : State) : Host.Outcome State Fault Refusal := runAtom s 0x110 x .add
def execAtomMin (x : VWord) (s : State) : Host.Outcome State Fault Refusal := runAtom s 0x111 x .min
def execAtomMax (x : VWord) (s : State) : Host.Outcome State Fault Refusal := runAtom s 0x112 x .max
def execAtomAnd (x : VWord) (s : State) : Host.Outcome State Fault Refusal := runAtom s 0x113 x .and
def execAtomOr (x : VWord) (s : State) : Host.Outcome State Fault Refusal := runAtom s 0x114 x .or
def execAtomXor (x : VWord) (s : State) : Host.Outcome State Fault Refusal := runAtom s 0x115 x .xor
def execAtomExch (x : VWord) (s : State) : Host.Outcome State Fault Refusal := runAtom s 0x116 x .exch
def execAtomCas (x : VWord) (s : State) : Host.Outcome State Fault Refusal := runAtom s 0x117 x .cas
def execAtomFadd (x : VWord) (s : State) : Host.Outcome State Fault Refusal := runAtom s 0x118 x .fadd

/-- Issue one reduction a lane, in ascending lane order; the RDC drops the sector as for a store. -/
def issueReds (s : State) (k : VCtx) (op : RedOp) (l : List LaneAcc) : State :=
  let die := coreDie k.core
  l.foldl (fun (a : State) (e : LaneAcc) =>
    let sec := secOf e.pa
    let a1 := if paDie e.pa = die then a else rdcDropSec a die sec
    issueReq a1 (.warp k.wid) k.core (cardPid a1 k.w.card) (some (warpCtx k.w)) die k.core
      (.red op k.x.sx (sizeBytes k.x.size) e.pa (laneOperand k k.x.srcB.toNat e.lane)) sec 0 none) s

def runFred (s : State) (opc : Nat) (x : VWord) (op : RedOp) : Host.Outcome State Fault Refusal :=
  match vStart s opc x with
  | .stay s' => .next s'
  | .go k s' =>
    if !(relReady s' k (decide (x.ord = 2))) then .next s'
    else
      match laneAddrs s' k false (sizeBytes x.size) (sizeBytes x.size) x.size .write false (lanePlace k false false)
        (lanesOf k.act) with
      | (.ok l, s1) => .next (vDoneHere (issueReds s1 k op l) k)
      | (.trap c, s1) => .next (vTrap s1 k c)
      | (.wait, s1) => .next s1

def execFredAdd (x : VWord) (s : State) : Host.Outcome State Fault Refusal := runFred s 0x119 x .add
def execFredMin (x : VWord) (s : State) : Host.Outcome State Fault Refusal := runFred s 0x11A x .min
def execFredMax (x : VWord) (s : State) : Host.Outcome State Fault Refusal := runFred s 0x11B x .max
def execFredAnd (x : VWord) (s : State) : Host.Outcome State Fault Refusal := runFred s 0x11C x .and
def execFredOr (x : VWord) (s : State) : Host.Outcome State Fault Refusal := runFred s 0x11D x .or
def execFredXor (x : VWord) (s : State) : Host.Outcome State Fault Refusal := runFred s 0x11E x .xor
def execFredFadd (x : VWord) (s : State) : Host.Outcome State Fault Refusal := runFred s 0x11F x .fadd

/-! ## FENCE (R95, R100, R292, R293) -/

/-- The fresh time that a completed .sc fence sets (R100). -/
def freshAfter (s : State) (w : Warp) (sc : Bool) : Warp := if sc then { w with tf := s.now (coreDie (warpCore w)) } else w

def execFence (x : VWord) (s : State) : Host.Outcome State Fault Refusal :=
  match vStart s 0x120 x with
  | .stay s' => .next s'
  | .go k s' =>
    if k.exec = 0 then .next (vDone s' k k.w)
    else if fenceDone s' k.wid k.w x.scope s'.next then .next (vDone s' k (freshAfter s' k.w x.sc))
    else
      .next (putWarp s' k { k.w with
        clause := none
        wait := lanes32.map fun l => if laneIn k.path l then .fence else laneGet .none k.w.wait l
        susp := k.w.susp ++ [{ clause := { k.c with lanes := k.path }, scope := x.scope, sc := x.sc, id := s'.next, ended := false }] })

/-- FENCE_WAIT_END: the first waiting fence of the warp that is complete lets its path go on. -/
def execFenceWaitEnd (s : State) : Host.Outcome State Fault Refusal :=
  match s.warps.find s.ev.i with
  | some w =>
    if w.place.isNone ∨ w.st = .trapped then .next s
    else
      match w.susp.find? fun (x : Susp) => !x.ended && fenceDone s s.ev.i w x.scope x.id with
      | some x =>
        let w1 := freshAfter s w x.sc
        if x.clause.next = hdrLen x.clause.hdr then
          let next : OvAddr := { x.clause.at_ with off := x.clause.at_.off + 8 * (hdrLen x.clause.hdr + 1) }
          .next (s.setWarp s.ev.i { w1 with
            susp := w1.susp.filter fun y => decide (y ≠ x)
            pc := lanes32.map fun l => if laneIn x.clause.lanes l then next else laneGet zeroAddr w1.pc l
            wait := lanes32.map fun l => if laneIn x.clause.lanes l then .none else laneGet .none w1.wait l })
        else
          .next (s.setWarp s.ev.i { w1 with
            susp := w1.susp.map fun y => if y = x then { x with ended := true } else y })
      | none => .next s
  | none => .next s

end Sys2Proof.Machine
end

