-- ==== Sys2Proof/Machine/VSync.lean ====
section
/-! DEFINITION. Barriers and ordered sections of the vision array (R193, R194, R294 to R298, R391 to R393), and the
events that end a warp's waits. -/

namespace Sys2Proof.Machine

/-! ## BAR (R294) -/

def execBar (x : VWord) (s : State) : Host.Outcome State Fault Refusal :=
  match vStart s 0x121 x with
  | .stay s' => .next s'
  | .go k s' => .next (stand s' k k.exec .bar)

def someStands (s : State) (ws : List Nat) (k : LWait) : Bool :=
  ws.any fun i => match s.warps.find i with
    | some w => lanes32.any fun l => w.isLive l && barStands w l k
    | none => false

def allPlaced (s : State) (ws : List Nat) : Bool :=
  ws.all fun i => match s.warps.find i with
    | some w => w.place.isSome
    | none => true

/-- BLOCK_BARRIER_RELEASE (R294): every warp of the block has arrived or retired. -/
def execBlockBarrierRelease (s : State) : Host.Outcome State Fault Refusal :=
  match s.ddx.blocks.find s.ev.i with
  | some b =>
    if allPlaced s b.warps && someStands s b.warps .bar && b.warps.all fun i => arrivalDone s i .bar 1 then
      .next (releaseWarps s b.warps .bar)
    else .next s
  | none => .next s

/-! ## Phase barriers (R295, R296, R298) -/

def pbPhase (o : DWord) : Nat := bits o 63 48
def pbCount (o : DWord) : Nat := bits o 47 24
def pbPend (o : DWord) : Nat := bits o 23 0
def pbObj (ph n pend : Nat) : DWord := setBits (setBits (setBits 0 63 48 ph) 47 24 n) 23 0 pend

/-- The object's bytes, or none while an engine owns its line (R79), or a store of the warp's own to its sector is still to be
performed (R90). -/
inductive PbRead
  | val (o : DWord) (poison : Bool)
  | wait

def pbRead (s : State) (wid : Nat) (w : Warp) (spm : Bool) (pa : Nat) : PbRead :=
  if spm then
    match warpBlock s w with
    | some b => .val (BitVec.ofNat 64 (leNat (b.mem.readN pa 8))) (spmPoisoned b pa 8)
    | none => .val 0 false
  else if engineOwned s (lineOf pa) ∨ (s.ms.reqs.any fun (q : Req) => decide (q.agent = .warp wid ∧ q.sec = secOf pa) && q.kind.isWrite) then
    .wait
  else .val (mem64 s pa) (poisoned s (secOf pa))

/-- The access of a word to the home of a global object, which recalls an L1 that owns its line first (R78, R174, R295): a read, or
the update of an object that changes; false while the home or the core's sluice holds it. -/
def pbHome (s : State) (core card : Nat) (spm changes : Bool) (pa : Nat) : Bool × State :=
  if spm then (true, s)
  else if changes then writeSector s core (cardPid s card) (secOf pa) false
  else homeRead s core (cardPid s card) (secOf pa)

/-- Whether phase ph has completed, for a test of the object (R296). -/
def phaseOver (p ph : Nat) : Bool :=
  let d := (p + 65536 - ph % 65536) % 65536
  decide (1 ≤ d ∧ d ≤ 32767)

/-- The reason for which PBARR traps on an object, or the object as it leaves it (R296). -/
def pbArrive (o : DWord) (bad : Bool) (ph n : Nat) : Sum (Nat × Nat) DWord :=
  if bad then .inl (tECC, 0)
  else if phaseOver (pbPhase o) ph then .inl (tBAR, 1)
  else if pbPhase o ≠ ph then .inl (tBAR, 2)
  else if n = 0 ∨ pbPend o < n then .inl (tBAR, 3)
  else if pbPend o = n then .inr (pbObj ((pbPhase o + 1) % 65536) (pbCount o) (pbCount o))
  else .inr (pbObj (pbPhase o) (pbCount o) (pbPend o - n))

/-- Write the object at its bank, or at its home. -/
def pbWrite (s : State) (k : VCtx) (spm : Bool) (pa : Nat) (o : DWord) : State :=
  if spm then
    match warpBlock s k.w with
    | some b => setBlock s k.w.block (spmWrite b pa (leBytes 8 o.toNat))
    | none => s
  else
    let x := homeWrite64 s k.core (cardPid s k.w.card) pa o
    raiseCh x.1 (.warp k.wid) x.2

def pbSpm (x : VWord) : Bool := decide (x.subS % 2 = 1)

def pbCheck (s : State) (k : VCtx) (a : Acc) : AccRes × State :=
  laneCheck s k (pbSpm k.x) 8 8 3 a (lanePlace k (pbSpm k.x) false 0) 0

def execPbinit (x : VWord) (s : State) : Host.Outcome State Fault Refusal :=
  match vStart s 0x122 x with
  | .stay s' => .next s'
  | .go k s' =>
    if k.act = 0 then .next (vDone s' k k.w)
    else
      match pbCheck s' k .write with
      | (.trap c, s1) => .next (vTrap s1 k c)
      | (.wait, s1) => .next s1
      | (.ok l, s1) =>
        let n := (k.b 0).toNat
        if n = 0 ∨ 2 ^ 24 ≤ n then .next (vTrap s1 k { code := tBAR, detail := 4 })
        else
          let pa := ((l.map fun (e : LaneAcc) => e.pa).head?).getD 0
          let o := leBytes 8 (pbObj 0 n n).toNat
          if pbSpm x then
            match warpBlock s1 k.w with
            | some b => .next (vDone (setBlock s1 k.w.block (spmWrite b pa o)) k k.w)
            | none => .next (vDone s1 k k.w)
          else
            .next (vDoneHere (issueStores s1 (.warp k.wid) k.core (cardPid s1 k.w.card) (some (warpCtx k.w))
              (coreDie k.core) k.core (bytesAt pa o)) k)

def execPbarr (x : VWord) (s : State) : Host.Outcome State Fault Refusal :=
  match vStart s 0x123 x with
  | .stay s' => .next s'
  | .go k s' =>
    if k.act = 0 then .next (vDone s' k k.w)
    else
      match pbCheck s' k .rw with
      | (.trap c, s1) => .next (vTrap s1 k c)
      | (.wait, s1) => .next s1
      | (.ok l, s1) =>
        let pa := ((l.map fun (e : LaneAcc) => e.pa).head?).getD 0
        if !(fenceDone s1 k.wid k.w x.scope s1.next) then .next s1
        else
          match pbRead s1 k.wid k.w (pbSpm x) pa with
          | .wait => .next s1
          | .val o bad =>
            match pbArrive o bad ((k.b 0).toNat % 65536) (k.cc 0).toNat with
            | .inl (code, detail) =>
              (match pbHome s1 k.core k.w.card (pbSpm x) false pa with
               | (false, s2) => .next s2
               | (true, s2) =>
                 .next (vTrap s2 k { code := code, detail := detail, addr := if bad && !(pbSpm x) then 64 * secOf pa else 0 }))
            | .inr o1 =>
              (match pbHome s1 k.core k.w.card (pbSpm x) true pa with
               | (false, s2) => .next s2
               | (true, s2) => .next (vDoneHere (pbWrite s2 k (pbSpm x) pa o1) k))

def execPbwait (x : VWord) (s : State) : Host.Outcome State Fault Refusal :=
  match vStart s 0x124 x with
  | .stay s' => .next s'
  | .go k s' =>
    if k.act = 0 then .next (vDone s' k k.w)
    else
      match pbCheck s' k .read with
      | (.trap c, s1) => .next (vTrap s1 k c)
      | (.wait, s1) => .next s1
      | (.ok l, s1) =>
        let pa := ((l.map fun (e : LaneAcc) => e.pa).head?).getD 0
        let ph := (k.b 0).toNat % 65536
        match pbHome s1 k.core k.w.card (pbSpm x) false pa with
        | (false, s1) => .next s1
        | (true, s1) =>
        match pbRead s1 k.wid k.w (pbSpm x) pa with
        | .val o bad =>
          if bad then .next (vTrap s1 k { code := tECC, detail := 0, addr := if pbSpm x then 0 else 64 * secOf pa })
          else if phaseOver (pbPhase o) ph then .next (vDone s1 k k.w)
          else .next (stand s1 k k.path (.pbwait (pbSpm x) pa ph x.scope (s1.now (coreDie k.core) + 1000)))
        | .wait => .next (stand s1 k k.path (.pbwait (pbSpm x) pa ph x.scope (s1.now (coreDie k.core) + 1000)))

/-- The object of a lane that waits at a PBWAIT, where it can be read. -/
def pbOf (s : State) (wid : Nat) (w : Warp) (k : LWait) : Option (Bool × Nat × Nat × DWord × Bool) :=
  match k with
  | .pbwait spm pa ph _ _ =>
    (match pbRead s wid w spm pa with
     | .val o bad => some (spm, pa, ph, o, bad)
     | .wait => none)
  | _ => none

/-- The lowest lane whose object reads as poisoned, with the address that the record gives. -/
def pbBad (s : State) (wid : Nat) (w : Warp) : Option (Nat × Nat) :=
  lanes32.findSome? fun l =>
    if w.isLive l then
      match pbOf s wid w (laneGet .none w.wait l) with
      | some (spm, pa, _, _, true) => some (l, if spm then 0 else 64 * secOf pa)
      | _ => none
    else none

/-- A trap at the clause-ending word at which a path stands: the record's NEXT is the header after it. -/
def standTrap (s : State) (wid : Nat) (w : Warp) (l : Nat) (c : Cause) : State :=
  let a := laneGet zeroAddr w.pc l
  let at_ := { w with clause := some { at_ := a, hdr := 0, next := 0, lanes := w.pathOf l, doneLanes := 0 } }
  (queueRec s (warpRec s at_ c false (w.pathOf l) 0)).setWarp wid { w with st := .trapped, trap := some c, rot := l }

/-- The tests of the objects on which the warp waits, at their homes. -/
def pbTests (s : State) (core : Nat) (w : Warp) : Bool × State :=
  lanes32.foldl (fun (a : Bool × State) l =>
    match laneGet .none w.wait l with
    | .pbwait spm pa _ _ _ => if a.1 && w.isLive l then pbHome a.2 core w.card spm false pa else a
    | _ => a) (true, s)

/-- PHASE_BARRIER_RECHECK (R296): the waiting paths of the warp test their objects again; a poisoned one raises ECC (R190). -/
def execPhaseBarrierRecheck (s : State) : Host.Outcome State Fault Refusal :=
  match s.warps.find s.ev.i with
  | some w =>
    if w.place.isNone ∨ w.st = .trapped then .next s
    else
      match pbTests s ((w.place.map (·.1)).getD 0) w with
      | (false, s) => .next s
      | (true, s) =>
      match pbBad s s.ev.i w with
      | some (l, a) => .next (standTrap s s.ev.i w l { code := tECC, detail := 0, addr := a })
      | none =>
        .next (s.setWarp s.ev.i (w.release fun _ k =>
          match pbOf s s.ev.i w k with
          | some (_, _, ph, o, _) => phaseOver (pbPhase o) ph
          | none => false))
  | none => .next s

/-! ## TBAR (R193, R194, R297) -/

def warpTeam (s : State) (w : Warp) : Option (Nat × Team) :=
  match s.ddx.blocks.find w.block with
  | some b => (s.ddx.teams.find b.team).map fun t => (b.team, t)
  | none => none

def execTbar (x : VWord) (s : State) : Host.Outcome State Fault Refusal :=
  match vStart s 0x125 x with
  | .stay s' => .next s'
  | .go k s' =>
    let p := match warpTeam s' k.w with
      | some (_, t) => t.phase
      | none => 0
    let ph := (k.a 0).toNat % 65536
    if k.act ≠ 0 ∧ phaseOver p ph then .next (vTrap s' k { code := tBAR, detail := 1 })
    else if k.act ≠ 0 ∧ p ≠ ph then .next (vTrap s' k { code := tBAR, detail := 2 })
    else .next (stand s' k k.exec .tbar)

def setTeam (s : State) (i : Nat) (t : Team) : State := s.withDdx { s.ddx with teams := s.ddx.teams.set i t }

/-- Warps of a team's blocks. -/
def teamWarps (s : State) (t : Team) : List Nat :=
  t.blocks.flatMap fun b => match s.ddx.blocks.find b with
    | some x => x.warps
    | none => []

/-- Cores that hold warps of a team, rising. -/
def teamCores (s : State) (t : Team) : List Nat :=
  (teamWarps s t).foldl (fun (a : List Nat) i => match s.warps.find i with
    | some w => match w.place with
      | some p => insertNat p.1 a
      | none => a
    | none => a) []

def warpsOn (s : State) (t : Team) (core : Nat) : List Nat :=
  (teamWarps s t).filter fun i => match s.warps.find i with
    | some w => decide (w.place.map (·.1) = some core)
    | none => false

/-- TEAM_NODE_FORWARD (R193): a core node (0 to 31) or a die node (100 and 101) whose count is complete. -/
def execTeamNodeForward (s : State) : Host.Outcome State Fault Refusal :=
  match s.ddx.teams.find s.ev.i with
  | some t =>
    let n := s.ev.j
    let cores := teamCores s t
    if n < 100 then
      if cores.contains n && !(t.nodes.cores.contains n) && allPlaced s (teamWarps s t) &&
          (warpsOn s t n).all (fun i => arrivalDone s i .tbar 4) then
        .next (setTeam s s.ev.i { t with nodes := { t.nodes with cores := insertNat n t.nodes.cores } })
      else .next s
    else
      let d := n - 100
      let mine := cores.filter fun c => decide (coreDie c = d)
      if mine ≠ [] ∧ !(t.nodes.dies.contains d) ∧ mine.all (fun c => t.nodes.cores.contains c) then
        .next (setTeam s s.ev.i { t with nodes := { t.nodes with dies := insertNat d t.nodes.dies } })
      else .next s
  | none => .next s

/-- Whether the top node of a team has its count complete. -/
def teamComplete (s : State) (t : Team) : Bool :=
  let cores := teamCores s t
  let dies := cores.foldl (fun (a : List Nat) c => insertNat (coreDie c) a) []
  cores.all (fun c => t.nodes.cores.contains c) &&
    (decide (cores.length ≤ 1) || dies.all fun d => t.nodes.dies.contains d)

/-- The release of a team: the phase advances and every standing lane continues (R297). -/
def releaseTeam (s : State) (i : Nat) (t : Team) : State :=
  releaseWarps (setTeam s i { t with phase := (t.phase + 1) % 65536, nodes := { cores := [], dies := [] }, since := none })
    (teamWarps s t) .tbar

/-- TEAM_BARRIER_RELEASE (R194, R297). -/
def execTeamBarrierRelease (s : State) : Host.Outcome State Fault Refusal :=
  match s.ddx.teams.find s.ev.i with
  | some t =>
    let ws := teamWarps s t
    if allPlaced s ws && someStands s ws .tbar && teamComplete s t then .next (releaseTeam s s.ev.i t) else .next s
  | none => .next s

/-- Every warp of a team has arrived at its barrier. -/
def teamMet (s : State) (t : Team) : Bool :=
  let ws := teamWarps s t
  allPlaced s ws && someStands s ws .tbar && ws.all fun i => arrivalDone s i .tbar 4

/-- The longest time in ns from the last arrival to the release (R194). -/
def teamBound (s : State) (t : Team) : Nat :=
  let cores := teamCores s t
  if cores.length ≤ 1 then 20 else if (cores.foldl (fun (a : List Nat) c => insertNat (coreDie c) a) []).length ≤ 1 then 80 else 350

/-- The last arrivals that have been met are noted with the time, by the clock of the team's owning die. -/
def noteArrivals (s : State) : State :=
  s.ddx.teams.foldl (fun (a : State) e =>
    let since := if teamMet a e.2 then some (e.2.since.getD (a.now e.2.owner)) else none
    if since = e.2.since then a else setTeam a e.1 { e.2 with since := since }) s

/-- Teams whose nodes have had the time of R194 are released. -/
def releaseDue (s : State) : State :=
  s.ddx.teams.foldl (fun (a : State) e =>
    match e.2.since with
    | some t0 => if teamMet a e.2 && decide (t0 + teamBound a e.2 ≤ a.now e.2.owner) then releaseTeam a e.1 e.2 else a
    | none => a) s

/-! ## Ordered sections (R391 to R393) -/

def execOrdin (x : VWord) (s : State) : Host.Outcome State Fault Refusal :=
  match vStart s 0x160 x with
  | .stay s' => .next s'
  | .go k s' =>
    if k.act = 0 then .next (vDone s' k k.w)
    else if k.w.spawn.isNone then .next (vTrap s' k { code := tTRAPI, detail := 3 * 2 ^ 30 + 1 })
    else if k.w.ordDone then .next (vTrap s' k { code := tTRAPI, detail := 3 * 2 ^ 30 + 2 })
    else .next (stand s' k k.path .ordin)

def execOrdout (x : VWord) (s : State) : Host.Outcome State Fault Refusal :=
  match vStart s 0x161 x with
  | .stay s' => .next s'
  | .go k s' =>
    if k.act = 0 then .next (vDone s' k k.w)
    else if k.w.spawn.isNone then .next (vTrap s' k { code := tTRAPI, detail := 3 * 2 ^ 30 + 1 })
    else if !k.w.held then .next (vTrap s' k { code := tTRAPI, detail := 3 * 2 ^ 30 + 3 })
    else if !(fenceDone s' k.wid k.w 4 s'.next) then .next s'
    else .next (vDone s' k { k.w with held := false, out := true })

/-! ## SLEEP (R274) -/

/-- SLEEP_EXPIRY: sleeping lanes whose time is reached continue. -/
def execSleepExpiry (s : State) : Host.Outcome State Fault Refusal :=
  match s.warps.find s.ev.i with
  | some w =>
    if w.place.isNone ∨ w.st = .trapped then .next s
    else
      .next (s.setWarp s.ev.i (w.release fun _ k =>
        match k with
        | .sleep t => decide (t ≤ s.now (coreDie (warpCore w)))
        | _ => false))
  | none => .next s

end Sys2Proof.Machine
end

