-- ==== Sys2Proof/Machine/VQueue.lean ====
section
/-! DEFINITION. The queue words (R299 to R301) and the continuation words (R302, R303) at their issue. -/

namespace Sys2Proof.Machine

/-! ## Checks at issue (R299) -/

/-- A lane of a queue word that has passed its checks: control block, CFG as read, and buffer. -/
structure QLane where
  lane : Nat
  cb : Nat
  cbVa : Nat
  es : Nat
  mode : Nat
  buf : Nat
  bufVa : Nat

inductive QRes
  | ok (l : List QLane)
  | trap (c : Cause)
  | wait

/-- The checks of one lane; `buf` says how its element buffer is accessed, if it has one. -/
def queueLane (s : State) (k : VCtx) (buf : Option Acc) (l : Nat) : QRes × State :=
  match laneCheck s k false 64 64 6 .read (k.a64 l).toNat l with
  | (.trap c, s1) => (.trap c, s1)
  | (.wait, s1) => (.wait, s1)
  | (.ok x, s1) =>
    let cb := ((x.map fun (e : LaneAcc) => e.pa).head?).getD 0
    let cfg := mem64 s1 (cb + 8)
    let es := 16 * (bits cfg 8 4 + 1)
    let mode := bits cfg 0 0
    match buf with
    | none => (.ok [{ lane := l, cb := cb, cbVa := (k.a64 l).toNat, es := es, mode := mode, buf := 0, bufVa := 0 }], s1)
    | some a =>
      let va := (k.b64 l).toNat
      match laneCheck s1 k false 16 16 4 a va l with
      | (.trap c, s2) => (.trap c, s2)
      | (.wait, s2) => (.wait, s2)
      | (.ok y, s2) =>
        if mode = 0 ∧ 4096 < va % 4096 + es then (.trap { code := tALIGN, detail := 8, addr := va, lane := l }, s2)
        else
          (.ok [{ lane := l, cb := cb, cbVa := (k.a64 l).toNat, es := es, mode := mode,
                  buf := ((y.map fun (e : LaneAcc) => e.pa).head?).getD 0, bufVa := va }], s2)

def queueLanes (s : State) (k : VCtx) (buf : Option Acc) : List Nat → QRes × State
  | [] => (.ok [], s)
  | l :: t =>
    match queueLane s k buf l with
    | (.ok x, s1) =>
      match queueLanes s1 k buf t with
      | (.ok y, s2) => (.ok (x ++ y), s2)
      | r => r
    | r => r

/-- Sectors of an element buffer. -/
def bufSecs (pa es : Nat) : List Nat := (List.range ((pa + es + 63) / 64 - pa / 64)).map fun i => pa / 64 + i

/-- Issue the operations of a queue word (R299, R300): the warp issues nothing more until every answer. -/
def issueQueue (s : State) (k : VCtx) (q : QOp) (mk : Nat → LOp) (l : List QLane) : State :=
  let help := if k.x.uni then []
    else (lanesOf (k.exec &&& k.w.helper)).map fun i => ({ lane := i, pa := 0, va := 0, zero := true } : LaneAcc)
  let accs := l.map fun (x : QLane) => ({ lane := x.lane, pa := x.cb, va := x.cbVa, zero := false } : LaneAcc)
  let bufs := l.map fun (x : QLane) => ({ lane := x.lane, pa := x.buf, va := x.bufVa, es := x.es } : QBuf)
  let i := issueOp s k (.queue q k.x.uni bufs) (accs ++ help) (l.map fun (x : QLane) => x.lane)
  let pid := cardPid i.2 k.w.card
  let secs := (l.filter fun (x : QLane) => decide (x.mode = 0)).foldl (fun (a : List Nat) (x : QLane) =>
    (bufSecs x.buf x.es).foldl (fun a y => insertNat y a) a) []
  let s1 := if q = .enq then readSectors i.2 i.1 k.core pid k.w.tf (.warp k.wid) (some (warpCtx k.w)) secs else i.2
  let s2 := l.foldl (fun (a : State) (x : QLane) =>
    sendLeat a x.cb (.warp k.wid i.1 x.lane) (mk x.lane) k.x.blk x.buf (some (x.es, x.mode)) (some (warpCtx k.w))
      (some pid)) s1
  vDoneHere (setHold s2 k.wid (some i.1)) k

/-- A queue word: its release, its checks, its operations for the Active lanes not performed before. -/
def runQueue (s : State) (opc : Nat) (x : VWord) (q : QOp) (rel : Bool) (buf : Option Acc) (mk : VCtx → Nat → LOp) :
    Host.Outcome State Fault Refusal :=
  match vStart s opc x with
  | .stay s' => .next s'
  | .go k s' =>
    if x.uni && !k.performs then .next (vDone s' k k.w)
    else
      let lanes := if x.uni then [0] else (lanesOf k.act).filter fun l => !(laneIn k.c.doneLanes l)
      match queueLanes s' k buf lanes with
      | (.trap c, s1) => .next (vTrap s1 k c)
      | (.wait, s1) => .next s1
      | (.ok l, s1) =>
        if rel && !(fenceDone s1 k.wid k.w 4 s1.next) then .next s1
        else .next (issueQueue s1 k q (mk k) l)

def execQenq (x : VWord) (s : State) : Host.Outcome State Fault Refusal :=
  runQueue s 0x140 x .enq true (some .read) fun _ _ => .enq []

def execQdeq (x : VWord) (s : State) : Host.Outcome State Fault Refusal :=
  runQueue s 0x141 x .deq false (some .write) fun _ _ => .deq

def execQres (x : VWord) (s : State) : Host.Outcome State Fault Refusal :=
  runQueue s 0x142 x .res true none fun k l => .res (k.b l).toNat

def execQdone (x : VWord) (s : State) : Host.Outcome State Fault Refusal :=
  runQueue s 0x143 x .done true none fun k l => .done (k.b l).toNat

/-- QCTL: the privileged sub-operations trap (R123). -/
def execQctl (x : VWord) (s : State) : Host.Outcome State Fault Refusal :=
  let sub := x.subS % 8
  if sub = 1 ∨ sub = 2 ∨ sub = 5 then
    runQueue s 0x144 x (.ctl sub) true none fun _ _ => if sub = 1 then .drain else if sub = 2 then .close else .query
  else
    match vStart s 0x144 x with
    | .stay s' => .next s'
    | .go k s' =>
      if x.uni && !k.performs then .next (vDone s' k k.w)
      else .next (vTrap s' k { code := tPRIV, detail := 0, lane := (lowLane k.act).getD 0 })

/-! ## CRES and CPOST -/

def execCres (x : VWord) (s : State) : Host.Outcome State Fault Refusal :=
  match vStart s 0x148 x with
  | .stay s' => .next s'
  | .go k s' =>
    if x.uni && !k.performs then .next (vDone s' k k.w)
    else
      let lanes := if x.uni then [0] else lanesOf k.act
      let help := if x.uni then []
        else (lanesOf (k.exec &&& k.w.helper)).map fun i => ({ lane := i, pa := 0, va := 0, zero := true } : LaneAcc)
      let accs := lanes.map fun i => ({ lane := i, pa := 0, va := 0, zero := false } : LaneAcc)
      let i := issueOp s' k (.cres (lanes.map fun l => (k.a l).toNat) x.uni) (accs ++ help) lanes
      .next (vDoneHere i.2 k)

/-- Publish the records of lanes in ascending order: the lanes done, and the one that failed. -/
def publishLanes (s : State) (die card : Nat) (idx : Nat → Nat) : List Nat → Word → (Word × Option Nat) × State
  | [], done => ((done, none), s)
  | l :: t, done =>
    match poolPublish s die card (idx l) with
    | some s1 => publishLanes s1 die card idx t (done ||| maskOf fun i => decide (i = l))
    | none => ((done, some l), s)

def execCpost (x : VWord) (s : State) : Host.Outcome State Fault Refusal :=
  match vStart s 0x149 x with
  | .stay s' => .next s'
  | .go k s' =>
    if x.uni && !k.performs then .next (vDone s' k k.w)
    else if !(fenceDone s' k.wid k.w 4 s'.next) then .next s'
    else
      let lanes := if x.uni then [0] else (lanesOf k.act).filter fun l => !(laneIn k.c.doneLanes l)
      match publishLanes s' (coreDie k.core) k.w.card (fun l => (k.a l).toNat) lanes k.c.doneLanes with
      | ((_, none), s1) => .next (vDone s1 k k.w)
      | ((done, some l), s1) =>
        .next (vTrap (s1.setWarp k.wid { k.w with clause := some { k.c with doneLanes := done } }) k
          { code := tQERR, detail := 5, lane := l })

end Sys2Proof.Machine
end

