-- ==== Sys2Proof/Machine/Complete.lean ====
section
/-! DEFINITION. The completion of long-latency words (R171, R190, R218, R282, R289, R290, R300), resident or in a
saved image, and the completion that arrives under a retired generation (R80). -/

namespace Sys2Proof.Machine

/-! ## Results -/

/-- Write the words of a completed operation for one lane. -/
def PendOp.write (o : PendOp) (w : Warp) (lane : Nat) (ws : List Word) : Warp := w.dstWrite o.dst.field lane ws

/-- Words of a loaded value (R281). -/
def loadWordsOf (size : Nat) (sx : Bool) (v : Nat) : List Word :=
  if size < 4 then [BitVec.ofNat 32 (if sx then narrow (signExt v (8 * size)) 32 else v)]
  else natWords (size / 4) v

def zeroWords (n : Nat) : List Word := (List.range n).map fun _ => (0 : Word)

/-- Set the warp of an operation back to the word, with the lanes it has performed (R300). -/
def rewind (w : Warp) (o : PendOp) (done : Word) : Warp :=
  match o.back with
  | some c =>
    { w with
      clause := some { c with doneLanes := done }
      pc := lanes32.map fun l => if laneIn c.lanes l then c.at_ else laneGet zeroAddr w.pc l }
  | none => w

/-- End an operation: the flag lowered with its WCT, the hold released, the warp as given (R102, R218). -/
def closeOp (s : State) (i : Nat) (o : PendOp) (w : Warp) (wct : Nat) : State :=
  let w1 := match o.flag with
    | some n => w.flagDec n wct
    | none => { w with ch := max w.ch wct }
  let w2 := if w1.hold = some i then { w1 with hold := none, st := if w1.st = .parked then .ready else w1.st } else w1
  (s.delOp i).setWarp o.wid w2

/-- End an operation by a precise trap at its word. -/
def trapOp (s : State) (i : Nat) (o : PendOp) (w : Warp) (done : Word) (wct : Nat) (c : Cause) (lanes : Word) : State :=
  trapWarp (closeOp s i o (rewind w o done) wct) o.wid c lanes

def opMask (o : PendOp) : Word := maskOf fun l => o.lanes.any fun (e : LaneAcc) => decide (e.lane = l) && !e.zero

/-- What the lanes of a load or atomic receive: words, zero for a helper lane, or the death of the lane. -/
inductive LaneGot
  | words (ws : List Word)
  | dies (det addr : Nat)

/-- Write what each lane received, then let the dead lanes die (R190, R182). -/
def writeGot (s : State) (i : Nat) (o : PendOp) (w : Warp) (wct : Nat) (n : Nat) (g : LaneAcc → LaneGot) : State :=
  let w1 := o.lanes.foldl (fun (a : Warp) (e : LaneAcc) =>
    if e.zero then o.write a e.lane (zeroWords n)
    else
      match g e with
      | .words ws => o.write a e.lane ws
      | .dies _ _ => if laneIn w.helper e.lane then o.write a e.lane (zeroWords n) else a) w
  let dead := o.lanes.filter fun (e : LaneAcc) => !e.zero && !(laneIn w.helper e.lane) &&
    (match g e with
     | .dies _ _ => true
     | .words _ => false)
  let of_ := fun l => o.lanes.find? fun (e : LaneAcc) => decide (e.lane = l)
  let det := fun l => match (of_ l).map g with
    | some (.dies d _) => d
    | _ => 0
  let addr := fun l => match (of_ l).map g with
    | some (.dies _ a) => a
    | _ => 0
  killLanes (closeOp s i o w1 wct) o.wid ((dead.map fun (e : LaneAcc) => e.lane).filter fun l => w.isLive l) det addr (opMask o)
    o.back

/-! ## Loads -/

def loadGot (o : PendOp) (spm : Bool) (size : Nat) (sx : Bool) (e : LaneAcc) : LaneGot :=
  let sec := if spm then o.got.find e.lane else o.got.find (secOf e.pa)
  match sec with
  | some x =>
    if x.poison then .dies (if spm then 256 else 0) e.va
    else .words (loadWordsOf size sx (leNat ((x.data.drop (if spm then 0 else e.pa % 64)).take size)))
  | none => .words []

def loadReady (o : PendOp) (spm : Bool) : Bool :=
  spm || o.lanes.all fun (e : LaneAcc) => e.zero || (o.got.find (secOf e.pa)).isSome

def completeLoad (s : State) (i : Nat) (o : PendOp) (w : Warp) (spm : Bool) (size : Nat) (sx uni : Bool) : State :=
  let bad := if uni then o.lanes.find? fun (e : LaneAcc) => (match loadGot o spm size sx e with
      | .dies _ _ => true
      | .words _ => false) else none
  match bad with
  | some e =>
    trapOp s i o w 0 0 { code := tECC, detail := 0, addr := if spm then 0 else 64 * secOf e.pa } (match o.back with
      | some c => c.lanes
      | none => 0)
  | none => writeGot s i o w 0 o.dstCount (loadGot o spm size sx)

/-! ## Atomics (R78, R290) -/

/-- Own every line of the atomic, with the largest WCT of the grants; none while one cannot be owned. -/
def ownLines (s : State) (core pid : Nat) : List Nat → Option (State × Nat)
  | [] => some (s, 0)
  | line :: t =>
    match l1Own s core pid line with
    | some (s1, w) => (ownLines s1 core pid t).map fun r => (r.1, max w r.2)
    | none => none

/-- Perform the lanes of a global atomic in ascending order: the old values and the flags of .fadd. -/
def performAtom (s : State) (op : RedOp) (size : Nat) (sx : Bool) (b c : List DWord) :
    List LaneAcc → State × Tbl Sec × Nat
  | [] => (s, [], 0)
  | e :: t =>
    if e.zero then performAtom s op size sx b c t
    else
      let old := s.ms.mem.readN e.pa size
      if poisoned s (secOf e.pa) then
        let r := performAtom s op size sx b c t
        (r.1, r.2.1.set e.lane { data := old, poison := true, req := 0 }, r.2.2)
      else
        let v := redValue op sx size (BitVec.ofNat 64 (leNat old)) (b.getD e.lane 0) (c.getD e.lane 0)
        let r := performAtom (writeBytes s (bytesAt e.pa (leBytes size v.1.toNat))) op size sx b c t
        (r.1, r.2.1.set e.lane { data := old, poison := false, req := 0 }, v.2 ||| r.2.2)

def atomGot (got : Tbl Sec) (spm : Bool) (size : Nat) (e : LaneAcc) : LaneGot :=
  match got.find e.lane with
  | some x => if x.poison then .dies (if spm then 256 else 0) e.va else .words (natWords (size / 4) (leNat x.data))
  | none => .words []

def completeAtom (s : State) (i : Nat) (o : PendOp) (w : Warp) (op : RedOp) (spm : Bool) (size : Nat) (sx : Bool)
    (b c : List DWord) : State :=
  if spm then writeGot s i o w 0 o.dstCount (atomGot o.got spm size)
  else
    let secs := accSecs o.lanes
    if secs.any fun x => ownEarlier s i o.core (.warp o.wid) x || earlierLoad s i (.warp o.wid) x then s
    else
      let pid := cardPid s o.ctx.card
      match ownLines s o.core pid (secs.foldl (fun (a : List Nat) x => insertNat (x / 8) a) []) with
      | none => s
      | some (s1, wct) =>
        match ownSectors s1 o.core pid secs with
        | (false, s2) => s2
        | (true, s2) =>
        let r := performAtom (secs.foldl (fun (a : State) n => ownTake a o.core n true) s2) op size sx b c o.lanes
        writeGot r.1 i o { w.orFp r.2.2 with ch := max w.ch wct } 0 o.dstCount (atomGot r.2.1 spm size)

/-! ## Copies (R288, R289) -/

def copyIn (b : Block) (o : PendOp) (offs : List Nat) : Block :=
  (o.lanes.zip offs).foldl (fun (a : Block) e =>
    match o.got.find (secOf e.1.pa) with
    | some x =>
      let a1 := spmWrite a e.2 ((x.data.drop (e.1.pa % 64)).take 16)
      if x.poison then spmMark a1 e.2 16 else a1
    | none => a) b

def completeCopy (s : State) (i : Nat) (o : PendOp) (w : Warp) (toSpm : Bool) (offs : List Nat) : State :=
  if toSpm then
    if !(loadReady o false) then s
    else
      match s.ddx.blocks.find w.block with
      | some b => closeOp (setBlock s w.block (copyIn b o offs)) i o w 0
      | none => closeOp s i o w 0
  else if s.ms.reqs.any fun (q : Req) => decide (q.op = some i) then s
  else closeOp s i o w o.wct

/-! ## Queue words (R300, R301) -/

def lo32 (x : DWord) : Word := x.extractLsb' 0 32
def hi32 (x : DWord) : Word := x.extractLsb' 32 32

/-- The group contents of an answer. -/
def queueWords (q : QOp) (a : LAns) : List Word :=
  let st : Word := BitVec.ofNat 32 a.status
  let g := fun n => a.r.getD n 0
  match q with
  | .enq | .done => [st]
  | .res => [st, lo32 (g 0)]
  | .deq => if a.r.length = 3 then [st, 0, lo32 (g 0), hi32 (g 0), lo32 (g 1), hi32 (g 1), 0, 0] else [st, 0, 0, 0, 0, 0, 0, 0]
  | .ctl _ =>
    if a.r.length = 5 then [st, lo32 (g 0), lo32 (g 1), lo32 (g 2), lo32 (g 3), lo32 (g 4), 0, 0]
    else [st, 0, 0, 0, 0, 0, 0, 0]

def LAns.deadly (a : LAns) : Bool := decide (a.trap.map (·.1) = some tDEAD)
def LAns.stops (a : LAns) : Bool := a.again || (a.trap.isSome && !a.deadly)

/-- Lanes of a queue word with an answer and no stop before them. -/
def answered (o : PendOp) : List Nat → List (Nat × LAns)
  | [] => []
  | l :: t =>
    match o.answers.find l with
    | some a => (l, a) :: (if a.stops then [] else answered o t)
    | none => []

def bufOf (bufs : List QBuf) (l : Nat) : QBuf :=
  (bufs.find? fun (b : QBuf) => decide (b.lane = l)).getD { lane := l, pa := 0, va := 0, es := 0 }

def completeQueue (s : State) (i : Nat) (o : PendOp) (w : Warp) (q : QOp) (uni : Bool) (bufs : List QBuf) : State :=
  let got := answered o o.order
  let stop := got.find? fun e => e.2.stops
  if stop.isNone ∧ got.length < o.order.length then s
  else
    let good := got.filter fun e => !e.2.stops && !e.2.deadly
    let w0 := (o.lanes.filter fun (e : LaneAcc) => e.zero).foldl (fun (a : Warp) (e : LaneAcc) =>
      o.write a e.lane (zeroWords o.dstCount)) w
    let w1 := good.foldl (fun (a : Warp) e => o.write a e.1 (queueWords q e.2)) w0
    let wct := good.foldl (fun (m : Nat) e => max m e.2.wct) 0
    let s1 := if q = .deq then
        good.foldl (fun (a : State) e =>
          let b := bufOf bufs e.1
          if e.2.status = 0 ∧ e.2.r = [] then (bufSecs b.pa b.es).foldl (fun a x => l1DropSec a o.core x) a else a) s
      else s
    let done := maskOf fun l => good.any (fun e => decide (e.1 = l)) || (match o.back with
      | some c => laneIn c.doneLanes l
      | none => false)
    let acted := match o.back with
      | some c => c.lanes
      | none => 0
    let dying := (got.filter fun e => e.2.deadly).map (·.1)
    if uni ∧ dying ≠ [] then
      let b := bufOf bufs (dying.headD 0)
      let sec := ((bufSecs b.pa b.es).find? fun x => ((o.got.find x).map fun (y : Sec) => y.poison).getD false).getD 0
      trapOp s1 i o w1 done wct { code := tECC, detail := 0, addr := 64 * sec } acted
    else
      let cbVa := fun l => ((o.lanes.find? fun (e : LaneAcc) => decide (e.lane = l)).map fun (e : LaneAcc) => e.va).getD 0
      match stop with
      | none =>
        killLanes (closeOp s1 i o w1 wct) o.wid (dying.filter fun l => w.isLive l) (fun _ => 0) (fun l => (bufOf bufs l).va)
          (opMask o) o.back
      | some (l, a) =>
        match a.trap with
        | some (c, d) =>
          let x := killLanes (closeOp s1 i o (rewind w1 o done) wct) o.wid (dying.filter fun l => w.isLive l) (fun _ => 0)
            (fun l => (bufOf bufs l).va) (opMask o) o.back
          trapWarp x o.wid { code := c, detail := d, addr := cbVa l, lane := l } (opMask o ||| done)
        | none =>
          killLanes (closeOp s1 i o (rewind w1 o done) wct) o.wid (dying.filter fun l => w.isLive l) (fun _ => 0)
            (fun l => (bufOf bufs l).va) (opMask o) o.back

/-! ## CRES (R302) -/

/-- Reserve for the lanes in ascending order. -/
def reserveLanes (s : State) (card : Nat) : List (Nat × Nat) → List (Nat × Nat × Nat) × State
  | [] => ([], s)
  | (l, n) :: t =>
    let r := poolReserve s card n
    let x := reserveLanes r.2 card t
    ((l, r.1.1, r.1.2) :: x.1, x.2)

def completeCres (s : State) (i : Nat) (o : PendOp) (w : Warp) (n : List Nat) : State :=
  let r := reserveLanes s w.card (o.order.zip n)
  let w0 := (o.lanes.filter fun (e : LaneAcc) => e.zero).foldl (fun (a : Warp) (e : LaneAcc) => o.write a e.lane [0, 0]) w
  let w1 := r.1.foldl (fun (a : Warp) e => o.write a e.1 [BitVec.ofNat 32 e.2.1, BitVec.ofNat 32 e.2.2]) w0
  closeOp r.2 i o w1 0

/-! ## The events -/

/-- Complete an operation of a warp of the current generation, as far as it can be. -/
def completeOp (s : State) (i : Nat) (o : PendOp) (w : Warp) : State :=
  match o.kind with
  | .load spm size sx uni _ => if loadReady o spm then completeLoad s i o w spm size sx uni else s
  | .atom op spm size sx _ b c => completeAtom s i o w op spm size sx b c
  | .copy toSpm offs => completeCopy s i o w toSpm offs
  | .queue q uni bufs => completeQueue s i o w q uni bufs
  | .cres n _ => completeCres s i o w n
  | .tile _ _ => s
  | .ovld _ _ | .ovqry | .overlay => if o.result = [] then s else closeOp s i o (o.write w 0 o.result) 0

/-- LONG_LATENCY_COMPLETE: an operation of a resident warp. -/
def execLongLatencyComplete (s : State) : Host.Outcome State Fault Refusal :=
  match s.ops.find s.ev.i with
  | some o =>
    match s.warps.find o.wid with
    | some w => if w.place.isSome ∧ ctxLive s o.ctx then .next (tryRetire (completeOp s s.ev.i o w) o.wid) else .next s
    | none => .next s
  | none => .next s


/-- Whether every write and read that an operation waits for is over, whatever its generation. -/
def opArrived (s : State) (i : Nat) : Bool :=
  !(s.ms.reqs.any fun (q : Req) => decide (q.op = some i)) &&
    !(s.lq.reqs.any fun (q : LReq) => match q.who with
      | .warp _ op _ => decide (op = i)
      | _ => false)

/-- A walker still waits for the reads, and its card is not being torn down. -/
def tileHolds (s : State) (i : Nat) (o : PendOp) : Bool :=
  match o.kind with
  | .tile tc e =>
    (match (s.tiles.find tc).bind fun (t : TileCore) => t.walkers[e]? with
     | some w => decide (w.asked = some i)
     | none => false) && !(cardSt s o.ctx.card).tear
  | _ => false

/-- COMPLETION_ARRIVAL: a completion into a saved image, or one of a retired generation, which is discarded. -/
def arrive (s : State) (i : Nat) : State :=
  match s.ops.find i with
  | some o =>
    if ctxLive s o.ctx then
      match s.warps.find o.wid with
      | some w => if w.place.isNone then completeOp s i o w else s
      | none => if opArrived s i && !(tileHolds s i o) then s.delOp i else s
    else if opArrived s i then lateDiscard (s.delOp i) (coreDie o.core) 1
    else s
  | none => s

end Sys2Proof.Machine
end

