-- ==== Sys2Proof/Machine/MemEvents.lean ====
section
/-! DEFINITION. Events of the memory system (R71, R76, R78 to R80, R83 to R87): fills, stores, reductions, ownership,
exclusive permission, dropped requests and the end of a shoot-down. -/

namespace Sys2Proof.Machine

/-- The slice of a line holds new requests for a merge or split (R412). -/
def lineHeld (s : State) (line : Nat) : Bool := s.gov.holdSlices.contains (homeSlice s (512 * line))

/-- A request that has not been performed within 100 us of its issue, or of its admission by a sluice, is only dropped (R80). -/
def Req.late (s : State) (q : Req) : Bool := !q.held && decide (q.issue + q.extra + 100000 < s.now q.die)

/-- A request may be performed: it is not late, and no slice of its lines holds it; an engine write that owned its line before is
recalled. -/
def sliceOpen (s : State) (q : Req) : Bool :=
  !(q.late s) && (!(q.lines.any (lineHeld s)) || (q.kind.isEngine && decide (q.id < s.gov.holdFrom)))

def execHomeReadFill (s : State) : Host.Outcome State Fault Refusal :=
  match findReq s s.ev.i with
  | some q =>
    match q.kind with
    | .fill | .homeForRdc => .next (if sliceOpen s q then homeFill s q else s)
    | _ => .next s
  | none => .next s

def execRdcFill (s : State) : Host.Outcome State Fault Refusal :=
  match findReq s s.ev.i with
  | some q =>
    match q.kind with
    | .rdcFill => .next (if q.late s then s else rdcServe s q)
    | _ => .next s
  | none => .next s

def execHomeStore (s : State) : Host.Outcome State Fault Refusal :=
  match findReq s s.ev.i with
  | some q =>
    match q.kind with
    | .store bs => .next (if sliceOpen s q then homeStore s q bs else s)
    | _ => .next s
  | none => .next s

def execHomeReduction (s : State) : Host.Outcome State Fault Refusal :=
  match findReq s s.ev.i with
  | some q =>
    match q.kind with
    | .red op sg size pa v => .next (if sliceOpen s q then homeRed s q op sg size pa v else s)
    | .redAcross op sg pas v => .next (if sliceOpen s q then homeRedAcross s q op sg pas v else s)
    | _ => .next s
  | none => .next s

def execOwnerRecallComplete (s : State) : Host.Outcome State Fault Refusal := .next (recallL1 s s.ev.i)

/-- The WCT of a returned engine write goes to its operation, its walker or its agent (R102). -/
def engineWct (s : State) (q : Req) (w : Nat) : State :=
  match q.op with
  | some i =>
    match s.ops.find i with
    | some o => s.setOp i { o with wct := max o.wct w }
    | none => s
  | none => wctTo s q w

def execEngineLineRelease (s : State) : Host.Outcome State Fault Refusal :=
  match findReq s s.ev.i with
  | some q =>
    match q.kind with
    | .engine bs bad =>
      if sliceOpen s q then
        match engineRelease s q bs bad with
        | (s1, some w) => .next (engineWct s1 q w)
        | (s1, none) => .next s1
      else .next s
    | _ => .next s
  | none => .next s

/-- SERVICE_CORE_EXCL_REQUEST (R87); in an unassigned range an access fault (R24). -/
def execServiceCoreExclRequest (s : State) : Host.Outcome State Fault Refusal :=
  if 16 ≤ s.ev.i then .next s
  else if !(dramOk s s.ev.j) then .next (svcFault s s.ev.i cStoreAccess s.ev.j)
  else if lineHeld s (lineOf s.ev.j) then .next s
  else .next (exclRequest s s.ev.i s.ev.j s.ev.bytes)

def execServiceCoreExclGrant (s : State) : Host.Outcome State Fault Refusal :=
  .next (if lineHeld s s.ev.i then s else exclGrant s s.ev.i)

/-- The virtual pages of a handle that a shoot-down names: with SCOPE 0 those of the translation of its address, which may be of a
large page. -/
def shootPages (h : Shoot) (x : Handle) : List Nat :=
  (x.pages.map (·.1)).filter fun v =>
    let n := max 1 ((x.span.find v).getD 1)
    decide (h.scope ≠ 0) || decide (v / n = h.va / 4096 / n)

/-- Whether a shoot-down on a die reaches the handles of a tile core. -/
def shootTile (s : State) (d : Nat) (h : Shoot) (tc : Nat) (t : TileCore) : Bool :=
  decide (coreDie (tc + 32) = d) && (decide (h.scope = 2) || (match t.card with
    | some x => decide (cardAsid s x.card = h.asid)
    | none => false))

/-- A command in flight uses a handle with a named page (R77). -/
def handleBusy (s : State) (d : Nat) (h : Shoot) : Bool :=
  s.tiles.any fun e => shootTile s d h e.1 e.2 && e.2.handles.any fun (x : Nat × Handle) =>
    !(shootPages h x.2).isEmpty && e.2.walkers.any fun (w : Walker) => w.inFlight x.1

/-- The named pages of bound handles are marked for re-translation (R77). -/
def markHandles (s : State) (d : Nat) (h : Shoot) : State :=
  { s with tiles := s.tiles.map fun e =>
      if shootTile s d h e.1 e.2 then
        (e.1, { e.2 with handles := e.2.handles.mapVals fun (x : Handle) =>
          { x with marked := (shootPages h x).foldl (fun (a : List Nat) v => insertNat v a) x.marked } })
      else e }

/-- A frame that an entry of a tile handle names leaves with that entry. -/
def handleFrame (s : State) (d : Nat) (h : Shoot) (pa : Nat) : Bool :=
  s.tiles.any fun e => shootTile s d h e.1 e.2 && e.2.handles.any fun (x : Nat × Handle) =>
    (shootPages h x.2).any fun v => decide (x.2.pages.find v = some (pa / 4096))

/-- The entries of tile handles that a shoot-down names leave once no command in flight uses their handle (R77); what those commands
have issued is waited for (R76). -/
def shootHandles (s : State) (d : Nat) (h : Shoot) : State :=
  if h.marked || handleBusy s d h then s
  else
    let u := usersOf s d (handleFrame s d h)
    markHandles (s.withMs { s.ms with shoots := s.ms.shoots.set d { h with
      waitReqs := h.waitReqs ++ u.1, waitOps := h.waitOps ++ u.2.1, waitLeats := h.waitLeats ++ u.2.2, marked := true } }) d h

/-- A use of a removed translation has not been performed yet. -/
def Shoot.waits (s : State) (h : Shoot) : Bool :=
  (h.waitReqs.any fun i => (findReq s i).isSome) || (h.waitOps.any fun i => (s.ops.find i).isSome) ||
    h.waitLeats.any fun i => (s.lq.reqs.any fun (q : LReq) => decide (q.id = i)) || s.lq.waiters.any fun (w : Waiter) => decide (w.id = i)

/-- A shoot-down whose every use of a removed translation has been performed ends (R76). -/
def shootDone (s : State) (d : Nat) : State :=
  match s.ms.shoots.find d with
  | some h =>
    let s1 := shootHandles s d h
    match s1.ms.shoots.find d with
    | some g => if g.marked && !(g.waits s1) then (s1.withMs { s1.ms with shoots := s1.ms.shoots.del d }).setRegF (Reg.shootStat d) 0 0 0 else s1
    | none => s1
  | none => s

/-- REQUEST_DROP (R80): a request not performed within 100 us of its issue is dropped, and ends the waits on it. -/
def execRequestDrop (s : State) : Host.Outcome State Fault Refusal :=
  match findReq s s.ev.i with
  | some q =>
    if q.issue + q.extra + 100000 ≤ s.now q.die then
      let s1 := delReq s q.id
      match q.kind with
      | .fill | .rdcFill =>
        let f := freeSector s1 8
        .next (giveSec f.2 q.op q.sec { data := f.1, poison := false, req := q.issue })
      | .engine _ _ =>
        let e := dirEnt s1 (q.sec / 8)
        .next (setDir s1 (q.sec / 8) { e with owners := e.owners.filter fun o => decide (o ≠ .engine q.id) })
      | _ => .next s1
    else .next s
  | none => .next s

/-! ## Sluices -/

/-- SLUICE_WINDOW (R174): the step at the start of a window. -/
def execSluiceWindow (s : State) : Host.Outcome State Fault Refusal :=
  let m := s.ev.i
  let r := s.ev.j
  if m < 16 ∧ r < 73 ∧ sluDue s m r then .next (sluBegin s m r (sluWin s m r + 1)) else .next s

end Sys2Proof.Machine
end

