-- ==== Sys2Proof/Machine/OvlEvents.lean ====
section
/-! DEFINITION. Events of the instruction stores (R198, R204, R207, R212): the end of a load, the placement bound and
the rereading of a page with an uncorrectable error. -/

namespace Sys2Proof.Machine

/-- Lanes that a warp's fault at its present word or header names. -/
def warpLanes (w : Warp) : Word :=
  match w.clause with
  | some c => c.lanes &&& w.liveMask
  | none => w.pathOf w.rot

/-- Warps of a core that satisfy p. -/
def warpsOf (s : State) (core : Nat) (p : Warp → Bool) : List Nat :=
  (s.warps.filter fun e => decide (e.2.place.map (·.1) = some core) && p e.2).map (·.1)

/-- The blocks resident on a core: those whose cores include it, while any warp of the block is placed (R185, R186). -/
def blocksOn (s : State) (core : Nat) : List (Nat × Block) :=
  s.ddx.blocks.filter fun e => e.2.cores.contains core && e.2.warps.any fun i => match s.warps.find i with
    | some w => w.place.isSome
    | none => false

/-- The card whose work a vision core holds (R167): that of its warps, and of a pair block that is resident on it without one (R186). -/
def coreCard (s : State) (core : Nat) : Option Nat :=
  match s.warps.find? fun e => decide (e.2.place.map (·.1) = some core) with
  | some e => some e.2.card
  | none => (blocksOn s core).head?.map fun e => e.2.card

def heldCard (s : State) (core : Nat) : Option Nat :=
  if core < 32 then coreCard s core
  else (s.tiles.find (core - 32)).bind fun (t : TileCore) => t.card.map fun (x : Ctx) => x.card

/-- Walkers of a tile core that wait on the overlay at a base slot. -/
def walkersOf (s : State) (c : Nat) (p : Walker → Bool) : List Nat :=
  if c < 32 then []
  else
    match s.tiles.find (c - 32) with
    | some t => (List.range 5).filter fun e => match t.walkers[e]? with
      | some w => p w
      | none => false
    | none => []

def clearWait (s : State) (c base : Nat) : State :=
  (walkersOf s c fun w => decide (w.ovWait = some base)).foldl (fun (a : State) e =>
    setWalkerAt a (c - 32) e fun w => { w with ovWait := none }) s

/-- OVERLAY_LOAD_DONE (R204): every page is read and written. A load of a retired generation leaves its slots INVALID, and an
OVL_CMD LOAD that waited on it ends with FAULT. The executors that waited on it hold it PINNED until they start in it.
A LOAD command whose table read waited goes on first. -/
def execOverlayLoadDone (s : State) : Host.Outcome State Fault Refusal :=
  let c := s.ev.i
  let s := match (istore s c).cmdWait with
    | some v => cmdLoad s c v (heldCard s c)
    | none => s
  match ovlAtBase s c s.ev.j with
  | some o =>
    if o.st ≠ .loading then .next s
    else
      match loadSectors s c o (64 * o.npg) with
      | (.done, s1) =>
        if cardGen s1 o.card ≠ o.gen then
          .next (retryPlaces (lateDiscard (finishCmd (delOvl s1 c o.base) c o.cmd 0 ovFAULT) (coreDie c) 1) c)
        else
          let tok := ovlTok s1 c o
          let s2 := setOvl s1 c { o with st := .resident, ops := [], cmd := false, pos := 0 }
          let s3 := finishCmd (finishOps s2 o.ops tok ovOK) c o.cmd tok ovOK
          .next (sweepOvls s3 c)
      | (.wait, s1) => .next s1
      | (.fail _, _) => .next s
  | none => .next s

/-- A program that is not stopped already takes a fault at a walker (R322). -/
def tileTakes (s : State) (tc e : Nat) (k : Cause) : State :=
  match s.tiles.find tc with
  | some t => if t.trapped then s else trapTile s tc e k
  | none => s

/-- An overlay is invalidated now, or as soon as it is unpinned. -/
def invalNow (s : State) (c : Nat) (o : Ovl) : State := retryPlaces (invalOvl s c o false) c

/-- The end of a load that failed: its slots INVALID, its waiters given the fault (R204, R208). -/
def loadFails (s : State) (c : Nat) (o : Ovl) (k : Cause) : State :=
  let s0 := finishCmd (finishOps (delOvl s c o.base) o.ops 0 ovFAULT) c o.cmd 0 ovFAULT
  let s1 := match walkersOf s0 c fun w => decide (w.ovWait = some o.base) with
    | e :: _ => tileTakes (clearWait s0 c o.base) (c - 32) e k
    | [] => s0
  retryPlaces ((warpsOf s1 c fun w => decide (w.ovWait = some o.base)).foldl (fun (a : State) i =>
    match a.warps.find i with
    | some w => trapWarp (a.setWarp i { w with ovWait := none }) i k (warpLanes w)
    | none => a) s1) c

/-- OVERLAY_LOAD_FAIL: a page read faults, or the load is dropped (R80), which is reported as BUSY. -/
def execOverlayLoadFail (s : State) : Host.Outcome State Fault Refusal :=
  let c := s.ev.i
  match ovlAtBase s c s.ev.j with
  | some o =>
    if o.st ≠ .loading then .next s
    else
      match loadSectors s c o (64 * o.npg) with
      | (.fail k, s1) => .next (loadFails s1 c o k)
      | _ =>
        if o.since + 100000 ≤ s.now (coreDie c) then .next (loadFails s c o { code := tOVABS, detail := 4 }) else .next s
  | none => .next s

/-- The same bound for a walker of a tile core. -/
def tilePlaceTimeout (s : State) (c e : Nat) : State :=
  match s.tiles.find (c - 32) with
  | some x =>
    match x.walkers[e]?, x.card with
    | some w, some _ =>
      match w.ovFirst with
      | some t =>
        if !x.trapped ∧ !x.heldStop ∧ t.first + 20000 ≤ s.now (coreDie c) then
          trapTile (setWalkerAt s (c - 32) e fun w => { w with ovFirst := none }) (c - 32) e { code := tOVABS, detail := 4 }
        else s
      | none => s
    | _, _ => s
  | none => s

/-- PLACE_TIMEOUT (R207): 20 us after a warp's first attempt without a placement. -/
def execPlaceTimeout (s : State) : Host.Outcome State Fault Refusal :=
  if 32 ≤ s.ev.i then .next (tilePlaceTimeout s s.ev.i s.ev.j)
  else
  match s.warps.find s.ev.j with
  | some w =>
    match w.place, w.ovFirst with
    | some p, some t =>
      if w.st = .ready ∧ p.1 = s.ev.i ∧ t.first + 20000 ≤ s.now (coreDie p.1) then
        .next (trapWarp (s.setWarp s.ev.j { w with ovFirst := none }) s.ev.j { code := tOVABS, detail := 4 } (warpLanes w))
      else .next s
    | _, _ => .next s
  | none => .next s

/-! ## Pages with an uncorrectable error (R198) -/

/-- Reread the sectors of a page; none while a translation or a sluice holds them. -/
def rereadPage (s : State) (c : Nat) (o : Ovl) (slot : Nat) : Nat → LoadTo × State
  | 0 => (.done, s)
  | n + 1 =>
    let k := 64 - (n + 1)
    let va := o.image + 4096 * (slot - o.base) + 64 * k
    match translate s (cardSpace s o.card (coreDie c) (unitOf c)) va .exec with
    | (.trap a b, s1) => (.fail { code := a, detail := b, addr := va }, s1)
    | (.wait, s1) => (.wait, s1)
    | (.ok pa, s1) =>
      match readSector s1 c o.pid (pa / 64) with
      | (false, s2) => (.wait, s2)
      | (true, s2) =>
        if viewPoison s2 c (pa / 64) then (.fail { code := tECC, detail := 0, addr := pa / 64 * 64 }, s2)
        else
          let i := istore s2 c
          let b := i.bytes.writeN (4096 * slot + 64 * k) (viewBytes s2 c (pa / 64 * 64) 64)
          rereadPage (s2.setIst c { i with bytes := b }) c o slot n

def clearBad (s : State) (c slot : Nat) : State :=
  let i := istore s c
  s.setIst c { i with bad := i.bad.filter fun x => decide (x ≠ slot) }

/-- The lane and lanes of a warp's path whose next word or header lies in a slot of its core's store. -/
def fetchesIn (s : State) (c slot : Nat) (w : Warp) : Option (Nat × Word) :=
  let here := fun (a : OvAddr) => decide (tokSlot a.tok + a.off / 4096 = slot)
  if w.st ≠ .ready then none
  else
    match w.clause with
    | some x => if here w.word then (lowLane x.lanes).map fun l => (l, x.lanes &&& w.liveMask) else none
    | none =>
      match nextPath s w c with
      | some l => if here (laneGet zeroAddr w.pc l) then some (l, w.pathOf l) else none
      | none => none

/-- Warps of a core that fetch from a slot, and walkers of a tile core. -/
def slotFetchers (s : State) (c slot : Nat) : List Nat := warpsOf s c fun w => (fetchesIn s c slot w).isSome
def slotWalkers (s : State) (c slot : Nat) : List Nat :=
  walkersOf s c fun w => w.standing && decide (tokSlot w.pc.tok + w.pc.off / 4096 = slot)
def fetchesBad (s : State) (c slot : Nat) : Bool :=
  if c < 32 then !(slotFetchers s c slot).isEmpty else !(slotWalkers s c slot).isEmpty

/-- The executors that fetch from a page that cannot be read again take ECC. -/
def fetchersTrap (s : State) (c slot : Nat) (k : Cause) : State :=
  if c < 32 then
    (slotFetchers s c slot).foldl (fun (a : State) i =>
      match a.warps.find i with
      | some w =>
        match fetchesIn a c slot w with
        | some (l, m) =>
          if w.clause.isSome then trapWarp a i k m else trapWarp (a.setWarp i { w with rot := l }) i { k with lane := l } m
        | none => a
      | none => a) s
  else
    match slotWalkers s c slot with
    | e :: _ => tileTakes s (c - 32) e k
    | [] => s

/-- ISTORE_REFETCH (R198): a fetch has met the page; it is rewritten from its image, or the fetching context takes ECC. -/
def execIstoreRefetch (s : State) : Host.Outcome State Fault Refusal :=
  let c := s.ev.i
  let slot := s.ev.j
  match ovlOf s c slot with
  | some o =>
    if !((istore s c).bad.contains slot) ∨ o.st = .loading ∨ !(fetchesBad s c slot) then .next s
    else
      match rereadPage s c o slot 64 with
      | (.done, s1) => .next (clearBad s1 c slot)
      | (.wait, s1) => .next s1
      | (.fail k, s1) => .next (invalNow (fetchersTrap s1 c slot { code := tECC, detail := 0, addr := k.addr }) c o)
  | none => .next (clearBad s c slot)

end Sys2Proof.Machine
end

