-- ==== Sys2Proof/Machine/Kernel.lean ====
section
/-! DEFINITION. Releases before they run: header and card validity (R142, R163), save images and residency (R163, R185,
R186, R387), the order of cards (R166), and the warps, blocks and teams that a core takes (R152, R156, R184, R185). -/

namespace Sys2Proof.Machine

/-! ## Headers (R140, R142) -/

def dwz (l : List DWord) (n : Nat) : DWord := l.getD n 0

/-- HeaderValid of R142 but for the GRID condition. -/
def hdrValid (h : List DWord) (kind : Nat) : Bool :=
  let w := dwz h
  decide (bits (w 0) 31 0 = 0x4B484452 ∧ bits (w 0) 35 32 = 1 ∧ bits (w 0) 39 36 = kind ∧ bits (w 0) 63 40 = 0) &&
    (if kind = 0 then
       decide (bits (w 1) 12 5 ≤ 192 ∧ kSpm (w 1) ≤ (if kPair (w 1) then 2048 else 1024) ∧ bits (w 1) 31 26 = 0 ∧
         kNarg (w 1) ≤ bits (w 1) 12 5 ∧ bits (w 1) 63 40 = 0) &&
       decide (1 ≤ kBX (w 2) ∧ 1 ≤ kBY (w 2) ∧ 1 ≤ kBZ (w 2) ∧ kBX (w 2) * kBY (w 2) * kBZ (w 2) ≤ 2048 ∧ 1 ≤ kTX (w 2) ∧
         1 ≤ kTY (w 2) ∧ 1 ≤ kTZ (w 2) ∧ bits (w 2) 63 60 = 0)
     else decide (1 ≤ bits (w 1) 7 0 ∧ bits (w 1) 63 8 = 0 ∧ w 2 = 0)) &&
    canonical (w 3).toNat && decide ((w 3).toNat % 8 = 0) && canonical (w 4).toNat && decide ((w 4).toNat % 32 = 0) &&
    decide (w 5 = 0 ∧ w 6 = 0 ∧ w 7 = 0)

def gX (g : DWord) : Nat := bits g 15 0
def gY (g : DWord) : Nat := bits g 31 16
def gZ (g : DWord) : Nat := bits g 47 32

/-- Each GRID dimension is nonzero and a multiple of the team's. -/
def gridValid (h : List DWord) (g : DWord) : Bool :=
  let t := dwz h 2
  decide (gX g ≠ 0 ∧ gY g ≠ 0 ∧ gZ g ≠ 0 ∧ gX g % kTX t = 0 ∧ gY g % kTY t = 0 ∧ gZ g % kTZ t = 0)

/-- Blocks of a team, teams of a grid. -/
def teamBlocks (h : List DWord) : Nat := let t := dwz h 2; kTX t * kTY t * kTZ t
def gridTeams (h : List DWord) (g : DWord) : Nat :=
  let t := dwz h 2
  (gX g / kTX t) * (gY g / kTY t) * (gZ g / kTZ t)

/-- Warps of a block (R181). -/
def blockWarps (h : List DWord) : Nat := (kBX (dwz h 2) * kBY (dwz h 2) * kBZ (dwz h 2) + 31) / 32

/-! ## Residency (R185, R186) -/

def hdrN (h : List DWord) : Nat := 8 * (kNreg (dwz h 1) + 1)
def warpsPerPart (h : List DWord) : Nat := min 8 (512 / hdrN h)
def warpsPerCore (h : List DWord) : Nat := 16 * warpsPerPart h

/-- Blocks that one core, or one pair under PAIR, holds. -/
def blocksPerUnit (h : List DWord) : Nat :=
  let w := dwz h 1
  let n := if kPair w then (blockWarps h + 1) / 2 else blockWarps h
  let spm := if kPair w then (kSpm w + 1) / 2 else kSpm w
  let a := min 32 (warpsPerCore h / n)
  if spm = 0 then a else min a (1024 / spm)

/-- Cores or even cores of pairs among a list of cores. -/
def unitsOf (h : List DWord) (cores : List Nat) : List Nat :=
  if kPair (dwz h 1) then cores.filter fun c => decide (c % 2 = 0) && cores.contains (c + 1) else cores

/-- Blocks that a list of cores holds at once. -/
def capacity (h : List DWord) (cores : List Nat) : Nat := (unitsOf h cores).length * blocksPerUnit h

/-! ## Save images (R163, R172, R191, R387) -/

def visionImage (s : State) (c : Nat) (h : List DWord) (g : DWord) : Nat :=
  let cores := pidCores s (cardPid s c)
  let blocks := min (capacity h cores) (gX g * gY g * gZ g)
  let warp := 128 * hdrN h + 1024
  if cardLog2n s c = 0 then blocks * (blockWarps h * warp + 256 * kSpm (dwz h 1))
  else cores.length * warpsPerCore h * warp + capacity h cores * 256 * kSpm (dwz h 1)

def tileImage (s : State) (c : Nat) : Nat := 8192 + 98304 * cardF s c 0 28 24 + 16384 * 2

def pathImage (s : State) (c : Nat) (shade : List DWord) : Nat :=
  if shade = [] then 4096
  else
    4096 + 131072 + (pidCores s (cardPid s c)).length * min 32 (warpsPerCore shade) * (128 * hdrN shade + 1024)

def saveArea (s : State) (c : Nat) : Nat := cardF s c 7 43 16 * 65536
def saveRoom (s : State) (c : Nat) : Nat := cardF s c 7 15 0 * 65536

/-- A vision release refused with SHAPE: one team cannot be resident, or the image does not fit. -/
def visionShape (s : State) (c : Nat) (h : List DWord) (g : DWord) : Bool :=
  decide (capacity h (pidCores s (cardPid s c)) < teamBlocks h) || decide (saveRoom s c < visionImage s c h g)

/-! ## Card validity (R163) -/

def saveAreaOk (s : State) (c : Nat) : Bool :=
  let a := saveArea s c
  let n := saveRoom s c
  decide (n ≠ 0) && dramOk s a && dramOk s (a + n - 1) &&
    (pidQuarters s (cardPid s c)).contains (paQuarter a) && (pidQuarters s (cardPid s c)).contains (paQuarter (a + n - 1))

/-- Reserved fields by kind. -/
def cardRsvOk (s : State) (c : Nat) : Bool :=
  let w := cardWord s c
  let launch := cardIsLaunch s c
  decide (bits (w 0) 63 29 = 0 ∧ bit (w 0) 15 = false ∧ bits (w 5) 63 26 = 0 ∧ bits (w 6) 11 5 = 0 ∧ bits (w 11) 63 28 = 0) &&
    (decide (cardKind s c = 1) || decide (bits (w 0) 28 24 = 0)) &&
    (!launch || decide (w 1 = 0)) && (!(decide (cardKind s c = 2)) || decide (bits (w 3) 63 32 = 0))

/-- The checks that R140 makes on LAUNCH words, for a periodic card. -/
def cardFieldsOk (s : State) (c : Nat) : Bool :=
  let k := cardKind s c
  canonical (cardWord s c 8).toNat && decide ((cardWord s c 8).toNat % 64 = 0) && canonical (cardWord s c 10).toNat &&
    decide ((cardWord s c 10).toNat % 4 = 0) &&
    (if k = 0 then decide (cardF s c 11 27 24 ≤ 7 ∧ bits (cardWord s c 9) 63 48 = 0 ∧ cardF s c 11 23 0 = 0)
     else if k = 1 then
       decide (cardF s c 11 27 24 = 0 ∧ bits (cardWord s c 9) 63 8 = 0 ∧ bits (cardWord s c 9) 6 5 = 0)
     else true)

def cardValid (s : State) (c : Nat) : Bool :=
  let lines := cardF s c 5 15 0
  let window := cardF s c 5 25 16
  let lg := cardLog2n s c
  let dl := cardF s c 3 31 0
  let period := (cardWord s c 1).toNat
  decide (cardKind s c ≤ 2 ∧ cardClass s c ≤ 2 ∧ cardOvpol s c ≤ 2 ∧ cardDmpol s c ≤ 2 ∧ 1 ≤ cardF s c 0 23 16) &&
    (decide (lines = 0) || decide (1 ≤ window ∧ window ≤ 1000)) && (pidPart s (cardPid s c)).isSome &&
    satpOk (cardSatp s c) && decide (lg = 0 ∨ (6 ≤ lg ∧ lg ≤ 20)) && decide (1 ≤ dl) && saveAreaOk s c &&
    (decide (cardKind s c ≠ 1) ||
      decide (1000 ≤ cardBound s c ∧ cardBound s c ≤ 10000000 ∧ cardF s c 0 28 24 ≤ 16)) &&
    (cardIsLaunch s c || (decide (1000 ≤ period ∧ dl * 1000 ≤ period) && cardFieldsOk s c)) && cardRsvOk s c

/-! ## The order of cards (R166) -/

def cardRel (s : State) (c : Nat) : Nat := (cardWord s c 12).toNat

/-- Card a precedes card b. -/
def precedes (s : State) (a b : Nat) : Bool :=
  let k := fun (c : Nat) => (cardClass s c, cardDeadline s c, cardRel s c, c)
  let x := k a
  let y := k b
  decide (x.1 < y.1 ∨ (x.1 = y.1 ∧ (x.2.1 < y.2.1 ∨ (x.2.1 = y.2.1 ∧ (x.2.2.1 < y.2.2.1 ∨ (x.2.2.1 = y.2.2.1 ∧ x.2.2.2 < y.2.2.2))))))

/-- Cards that have ever been released. -/
def knownCards (s : State) : List Nat := s.ddx.cards.keys

/-- Whether a card waits for the DDX. -/
def waitsDdx (s : State) (c : Nat) : Bool := decide (cardState s c = stReady ∨ cardState s c = stPreempted)

def powerFits (s : State) (c : Nat) : Bool :=
  decide ((s.reg Reg.pwrAdm).toNat + cardPwr s c ≤ s.regF Reg.pwrCap 15 0)

/-- PWR_FULL falls once no admission waits on power any more (R164). -/
def sweepFull (s : State) : State :=
  if s.regBit Reg.ddxStatus 2 && !((knownCards s).any fun c => waitsDdx s c && !(powerFits s c)) then s.setRegF Reg.ddxStatus 2 2 0 else s

/-- A card's state changes, and PWR_ADM with it (R164). -/
def moveCard (s : State) (c st : Nat) : State :=
  let was := cardState s c
  let a := (s.reg Reg.pwrAdm).toNat
  let p := cardPwr s c
  let a1 := if was ≠ stRunning ∧ st = stRunning then a + p else if was = stRunning ∧ st ≠ stRunning then a - p else a
  sweepFull ((setCardState s c st).setReg Reg.pwrAdm (BitVec.ofNat 64 (min a1 65535)))

/-- The die on which the DDX and others translate for a card: the first of its partition. -/
def cardDie (s : State) (c : Nat) : Nat :=
  match (pidQuarters s (cardPid s c)).head? with
  | some q => q / 2
  | none => 0

/-! ## Cores and their work -/

def warpsAt (s : State) (core : Nat) : List (Nat × Warp) := s.warps.filter fun e => decide (e.2.place.map (·.1) = some core)

/-- The resident blocks of a core that hold a range of its scratchpad. -/
def spmHeld (s : State) (core : Nat) : Nat := ((blocksOn s core).filter fun e => decide (e.2.spm ≠ 0)).length

def partLoad (s : State) (core p : Nat) : Nat := (warpsAt s core).filter (fun e => decide (e.2.place = some (core, p))) |>.length

/-- Whether a core can take one more block's share: n warps of a header, with spm 256-byte units. -/
def coreTakes (s : State) (h : List DWord) (core n spm : Nat) : Bool :=
  decide ((blocksOn s core).length < 32) && decide ((warpsAt s core).length + n ≤ warpsPerCore h) &&
    (decide (spm = 0) || decide (spmHeld s core < 1024 / spm))

/-- The partition that the environment names if it has a free slot, else the first that has. -/
def pickPart (s : State) (h : List DWord) (core : Nat) (want : Option Nat) : Nat :=
  let ok := fun p => decide (partLoad s core p < warpsPerPart h)
  match want with
  | some p => if p < 16 ∧ ok p then p else ((List.range 16).find? ok).getD 0
  | none => ((List.range 16).find? ok).getD 0

/-! ## Warps at their start (R184, R154, R389) -/

/-- A warp with its registers at their start values. -/
def newWarp (card gen block wnum nreg : Nat) (args : List Word) (entry ch : Nat) (vacant : Word) : Warp :=
  { card := card, gen := gen, block := block, wnum := wnum, seq := 0, spawn := none, nreg := nreg, v := [],
    s := (args.zip (List.range args.length)).foldl (fun (t : Tbl Word) e => t.set e.2 e.1) [],
    p := List.replicate 7 0, flags := List.replicate 12 (0, 0),
    pc := List.replicate 32 { tok := 0, off := entry }, depth := List.replicate 32 0, vacant := vacant, helper := 0,
    exited := 0, dead := 0, wait := List.replicate 32 .none, fpflags := 0, deadsrc := false, ch := ch, tf := 0,
    st := .ready, trap := none, clause := none, susp := [], hold := none, rot := 31, yieldTo := [], ovFirst := none,
    ovWait := none, look := true, entry := true, resolving := none, place := none, saved := false, savedOn := none,
    ordDone := false, held := false, out := false, killed := false, badV := [], badU := [] }

/-- The DDX's sluice settings for a requester at every controller of a card's partition (R173). -/
def setSluices (s : State) (c r : Nat) : State :=
  let w := cardWord s c 5
  let cfg := setBits (setBits (setBits 0 31 31 1) 25 16 (bits w 25 16)) 15 0 (bits w 15 0)
  ((List.range 16).filter fun m => pidHasQuarter s (cardPid s c) (m / 4)).foldl (fun (a : State) m => sluReconfigure a m r cfg) s

def clearSluices (s : State) (r : Nat) : State :=
  (List.range 16).foldl (fun (a : State) m =>
    if a.regBit (Reg.sluCfg m r) 31 then sluReconfigure a m r (setBits (a.reg (Reg.sluCfg m r)) 31 31 0) else a) s

/-- A core begins to hold a card's work. -/
def takeCore (s : State) (c core : Nat) : State :=
  if (coreCard s core).isSome then s else setSluices s c core

/-- Place a warp record on a core. -/
def placeWarp (s : State) (h : List DWord) (wid core : Nat) (want : Option Nat) : State :=
  match s.warps.find wid with
  | some w =>
    let s1 := takeCore s w.card core
    s1.setWarp wid { w with place := some (core, pickPart s1 h core want), saved := false }
  | none => s

/-- Make one block with its warps on given cores: the lower half of a pair's warps on the first core. -/
def makeBlock (s : State) (c team linear : Nat) (coord : Nat × Nat × Nat) (cores : List Nat) (want : Nat → Option Nat) :
    State :=
  match s.ddx.rel.find c with
  | none => s
  | some r =>
    let b := s.fresh
    let n := blockWarps r.hdr
    let half := (n + 1) / 2
    let threads := kBX (dwz r.hdr 2) * kBY (dwz r.hdr 2) * kBZ (dwz r.hdr 2)
    let gen := cardGen s c
    let s1 := (List.range n).foldl (fun (a : State) i =>
      let core := if cores.length = 2 ∧ half ≤ i then cores.getD 1 0 else cores.getD 0 0
      let f := a.fresh
      let vac := maskOf fun l => decide (threads ≤ 32 * i + l)
      let w := newWarp c gen b.1 i (kNreg (dwz r.hdr 1)) r.args (dwz r.hdr 3).toNat (a.now (coreDie core)) vac
      placeWarp (f.2.setWarp f.1 w) r.hdr f.1 core (want i)) b.2
    let ws := (s1.warps.filter fun e => decide (e.2.block = b.1)).map (·.1)
    let blk : Block :=
      { card := c, gen := gen, team := team, kind := .grid, linear := linear, coord := coord, warps := ws, cores := cores,
        spm := 256 * kSpm (dwz r.hdr 1), mem := [], poison := [] }
    match s1.ddx.teams.find team with
    | some t => s1.withDdx { s1.ddx with blocks := s1.ddx.blocks.set b.1 blk, teams := s1.ddx.teams.set team { t with blocks := t.blocks ++ [b.1] } }
    | none => s1.withDdx { s1.ddx with blocks := s1.ddx.blocks.set b.1 blk }

def newTeam (s : State) (c owner : Nat) : Nat × State :=
  let i := s.fresh
  let t : Team := { card := c, gen := cardGen s c, owner := owner, phase := 0, blocks := [],
                    nodes := { cores := [], dies := [] } }
  (i.1, i.2.withDdx { i.2.ddx with teams := i.2.ddx.teams.set i.1 t })

/-- A one-warp block that is its own team: a continuation or spawned warp (R156, R389). -/
def makeSolo (s : State) (c : Nat) (h : List DWord) (args : List Word) (kind : BlockKind) (core : Nat) (want : Option Nat)
    (f : Warp → Warp) (entry : Nat) (vacant : Word) (die : Nat) : State :=
  let t := newTeam s c die
  let b := t.2.fresh
  let w := b.2.fresh
  let gen := cardGen s c
  let x := f (newWarp c gen b.1 0 (kNreg (dwz h 1)) args entry (s.now (coreDie core)) vacant)
  let blk : Block :=
    { card := c, gen := gen, team := t.1, kind := kind, linear := 0, coord := (0, 0, 0), warps := [w.1], cores := [core],
      spm := 0, mem := [], poison := [] }
  let s1 := placeWarp (w.2.setWarp w.1 x) h w.1 core want
  match s1.ddx.teams.find t.1 with
  | some y => s1.withDdx { s1.ddx with blocks := s1.ddx.blocks.set b.1 blk, teams := s1.ddx.teams.set t.1 { y with blocks := [b.1] } }
  | none => s1

end Sys2Proof.Machine
end

