-- ==== Sys2Proof/Machine/Cards.lean ====
section
/-! DEFINITION. Releases, their acceptance and their end (R80, R98, R140, R151, R157, R165, R176), HELD and pre-emption
(R167, R175, R177), and teardown. -/

namespace Sys2Proof.Machine

/-! ## Reading headers and arguments (R140) -/

def ddxSpace (s : State) (c : Nat) : Space := cardSpace s c (cardDie s c) 120

/-- Load n 32-bit words, each at its own address. -/
def loadWords32 (s : State) (sp : Space) (va : Nat) : Nat → (Except (Nat × Nat × Nat) (List Word)) × State
  | 0 => (.ok [], s)
  | n + 1 =>
    match readAt s sp va with
    | (.ok pa, s1) =>
      match loadWords32 s1 sp (va + 4) n with
      | (.ok l, s2) => (.ok (view32 s1 sp.requester pa :: l), s2)
      | (.error e, s2) => (.error e, s2)
    | (.trap c r, s1) => (.error (c, r, va), s1)
    | (.wait, s1) => (.error (0, 0, va), s1)

/-! ## Acceptance (R140, R152, R165) -/

/-- The dies of a card's partition. -/
def cardDies (s : State) (c : Nat) : List Nat := [0, 1].filter fun d => pidHasDie s (cardPid s c) d

/-- Ownership of teams at the launch (R152): team indices by die. -/
def ownTeams (s : State) (c ig n : Nat) : List (List Nat) :=
  match cardDies s c with
  | [0] => [List.range n, []]
  | [1] => [[], List.range n]
  | _ => [(List.range n).filter fun t => decide (t / 2 ^ ig % 2 = 0), (List.range n).filter fun t => decide (t / 2 ^ ig % 2 = 1)]

/-- The DDX accepts a release at nominal time t: the card goes READY. -/
def acceptRelease (s : State) (c t dl : Nat) (r : Release) : State :=
  let s1 := (s.setReg (Reg.card c + 8 * 12) (BitVec.ofNat 64 t)).setReg (Reg.card c + 8 * 13) (BitVec.ofNat 64 (t + dl))
  let s2 := setCardF (setCardF s1 c 14 6 4 0) c 14 2 0 (cardState s1 c)
  let s3 := moveCard s2 c stReady
  let s4 := s3.setRegF Reg.dtuStatus 4 4 0
  let un := if cardKind s c = 0 then ownTeams s4 c r.ig (gridTeams r.hdr r.grid) else [[], []]
  let s5 := s4.withDdx { s4.ddx with
    rel := s4.ddx.rel.set c { r with unplaced := un, seq := 0 }
    cards := s4.ddx.cards.set c { CardSt.none with ch := s4.now 3 }
    steals := (s4.ddx.steals.del c).del (1024 + c) }
  match r.launcher with
  | .periodic => s5
  | _ =>
    let tok := setBits (setBits (cardWord s5 c 11) 23 0 r.tok) 27 24 r.ig
    ((s5.setReg (Reg.card c + 8 * 9) r.grid).setReg (Reg.card c + 8 * 10) (BitVec.ofNat 64 r.argsVa)).setReg
      (Reg.card c + 8 * 11) tok

/-! ## The end of work and teardown (R80, R98, R130, R157) -/

/-- The launcher of work hears of its end. -/
def tellLauncher (s : State) (ok : Bool) : Launcher → State
  | .node g n =>
    match s.ddx.graphs.find g with
    | some x => s.withDdx { s.ddx with graphs := s.ddx.graphs.set g { x with nodes := setAt x.nodes n (.ended ok) } }
    | none => s
  | _ => s

/-- The DDX stores a done word once its release has completed and the word's home takes the store (R95, R140). -/
def storeDone (s : State) (x : DoneStore) : State :=
  if s.now 3 < x.horizon then s
  else
    match writeSector s 73 x.pid (secOf x.pa) false with
    | (false, s1) => s1
    | (true, s1) =>
      let w := homeWrite64 s1 73 x.pid x.pa x.v
      let s2 := raiseCh w.1 .ddx w.2
      tellLauncher (s2.withDdx { s2.ddx with dones := s2.ddx.dones.filter fun (y : DoneStore) => decide (y ≠ x) }) x.ok x.who

/-- The done words that can be stored now. -/
def storeDones (s : State) : State := s.ddx.dones.foldl storeDone s

def oweDone (s : State) (x : DoneStore) : State := storeDone (s.withDdx { s.ddx with dones := s.ddx.dones ++ [x] }) x

/-- The end of a release of generation g whose writes have the completion horizon given: the done word, and the launcher. -/
def tellEnd (s : State) (c g horizon : Nat) (ok : Bool) : State :=
  match s.ddx.rel.find c with
  | none => s
  | some r =>
    let s1 := s.withDdx { s.ddx with rel := s.ddx.rel.del c }
    match r.doneSig with
    | some (pa, v) =>
      oweDone s1 { horizon := horizon, pid := cardPid s c, pa := pa, v := if ok then v else v ^^^ (BitVec.ofNat 64 (2 ^ 63)),
                   card := c, gen := g, who := r.launcher, ok := ok }
    | none => tellLauncher s1 ok r.launcher

/-- The largest completion horizon of a card's work, ended or not. -/
def workHorizon (s : State) (c : Nat) : Nat :=
  let h0 := s.warps.foldl (fun (m : Nat) e =>
    if e.2.card = c then e.2.flags.foldl (fun (n : Nat) f => max n f.2) (max m e.2.ch) else m) (cardSt s c).ch
  let h1 := s.tiles.foldl (fun (m : Nat) e =>
    if e.2.card.map (fun (x : Ctx) => x.card) = some c then
      e.2.walkers.foldl (fun (n : Nat) (w : Walker) => max n (max w.ch w.wct)) m else m) h0
  s.pces.foldl (fun (m : Nat) e => if e.2.card.map (fun (x : Ctx) => x.card) = some c then max m e.2.ch else m) h1

/-- Reserved, unpublished records are discarded and counted (R157); those of a whole-device partition on its first die, like every count
of a card without a core of its own (assumption 15). -/
def endPool (s : State) (c : Nat) : State :=
  let p := poolOf s c
  let s1 := if p.resv = [] then s else lateDiscard s (cardDie s c) p.resv.length
  if (s1.ddx.pools.find c).isSome then setPool s1 c { p with resv := [], pub := [], freed := [], head := p.tail } else s1

/-- Everything of a card that stands in tables of the cores and the distributors goes (teardown, restart). -/
def clearWork (s : State) (c : Nat) : State :=
  let ws := (s.warps.filter fun e => decide (e.2.card = c)).map (·.1)
  let s1 := ws.foldl dropWarp s
  let s2 := s1.withDdx { s1.ddx with
    bins := s1.ddx.bins.filter fun (b : Bin) => decide (b.card ≠ c)
    queue := s1.ddx.queue.mapVals fun q => q.filter fun (x : QWarp) => decide (x.card ≠ c)
    blocks := s1.ddx.blocks.filter fun e => decide (e.2.card ≠ c)
    teams := s1.ddx.teams.filter fun e => decide (e.2.card ≠ c) }
  let tcs := (s2.tiles.filter fun e => decide (e.2.card.map (fun (x : Ctx) => x.card) = some c)).map (·.1)
  let s3 := tcs.foldl (fun (a : State) tc =>
    clearSluices (sweepOvls { a with tiles := a.tiles.del tc } (tc + 32)) (32 + tc)) s2
  let ds := (s3.pces.filter fun e => decide (e.2.card.map (fun (x : Ctx) => x.card) = some c)).map (·.1)
  ds.foldl (fun (a : State) d => let a1 := { a with pces := a.pces.del d }
    if d < 2 then clearSluices a1 (69 + d) else a1) s3

/-- Retire the generation (R80). -/
def nextGen (s : State) (c : Nat) : State := setCardF s c 14 31 16 ((cardGen s c + 1) % 65536)

/-- A normal end (R165): the generation retired, the overlays retagged, the card DONE. -/
def endWork (s : State) (c : Nat) : State :=
  let g := cardGen s c
  let s1 := clearWork (endPool s c) c
  let s2 := nextGen s1 c
  let s3 := retagCard s2 c g (cardGen s2 c)
  let s4 := tellEnd (moveCard s3 c stDone) c g (workHorizon s c) true
  setCardSt s4 c CardSt.none

/-- CTX_CMD ports that waited for a card's teardown are done (R401). -/
def ctxDone (s : State) (c : Nat) : State :=
  let ports := (s.ddx.ctxWait.filter fun e => decide (e.2 = c)).map (·.1)
  let s1 := ports.foldl (fun (a : State) p => a.setReg (Reg.ctxStat p) 0) s
  s1.withDdx { s1.ddx with ctxWait := s1.ddx.ctxWait.filter fun e => decide (e.2 ≠ c) }

/-- Steps 3 and on of a teardown. -/
def killNow (s0 : State) (c : Nat) : State :=
  let s := removeWaiters (ctxDone s0 c) fun q => decide (q.ctx = some (cardCtx s0 c))
  let s1 := clearWork (endPool s c) c
  let s2 := invalCardAll (nextGen s1 c) c
  let s3 := setCardF (moveCard s2 c stDone) c 14 6 6 1
  setCardSt (tellEnd s3 c (cardGen s0 c) (workHorizon s0 c) false) c CardSt.none

/-- Operations of a context in flight (step 2 of R80). -/
def inFlight (s : State) (x : Ctx) : Bool :=
  (s.ms.reqs.any fun (q : Req) => decide (q.ctx = some x)) || (s.ops.any fun e => decide (e.2.ctx = x)) ||
    s.lq.reqs.any fun (q : LReq) => decide (q.ctx = some x)

def finishTear (s : State) (c : Nat) : State :=
  let x := cardSt s c
  if x.tear && x.preempt.isNone && !(inFlight s (cardCtx s c)) then killNow s c else s

/-- Teardowns that in-flight operations held up. -/
def sweepTears (s : State) : State :=
  (knownCards s).foldl (fun (a : State) c => if (cardSt a c).tear then finishTear a c else a) s

/-- Remove a parked operation with its waiter: the instruction has not been performed (R129). A blocking operation that is still on its
way does not park any more. -/
def unpark (s : State) (wid : Nat) : State :=
  let mine := fun (q : LReq) => match q.who with
    | .warp w _ _ => decide (w = wid)
    | _ => false
  let s1 := removeWaiters s mine
  let left := s1.lq.reqs.filter fun (q : LReq) => !(mine q && q.reissue.isSome)
  let s2 := s1.withLq { s1.lq with reqs := left.map fun (q : LReq) => if mine q then { q with quit := true } else q }
  match s2.warps.find wid with
  | some w =>
    match w.hold with
    | some i =>
      match s2.ops.find i with
      | some o =>
        let blocked := (s.lq.waiters.any fun (x : Waiter) => mine x.q && !x.marked) ||
          s.lq.reqs.any fun (q : LReq) => mine q && q.reissue.isSome
        if blocked && decide (o.answers = []) then
          let w1 := match o.flag with
            | some n => (rewind w o 0).flagDec n 0
            | none => rewind w o 0
          (s2.delOp i).setWarp wid { w1 with hold := none, st := if w1.st = .parked then .ready else w1.st }
        else s2
      | none => s2
    | none => s2
  | none => s2

/-- The tile core that holds a card's work. -/
def tileOf (s : State) (c : Nat) : Option (Nat × TileCore) :=
  s.tiles.find? fun e => decide (e.2.card.map (fun (x : Ctx) => x.card) = some c)

/-- The checkpoint image of a tile card is being written (R323): its walkers stand at the selected occurrence. -/
def tileSaving (s : State) (c : Nat) : Bool :=
  (cardSt s c).preempt.isSome && (match tileOf s c with
    | some (_, t) => t.live.isSome && !t.walkers.isEmpty && !t.trapped && !t.heldStop &&
        t.walkers.all fun (w : Walker) => decide (w.st = .stopped)
    | none => false)

/-- Start a teardown (R80): no more issue, waiters removed, then wait for what is in flight. -/
def killCard (s : State) (c : Nat) : State :=
  let x := cardSt s c
  if x.preempt.isSome ∧ (cardKind s c ≠ 1 ∨ tileSaving s c) then setCardSt s c { x with tear := true }
  else
    let s1 := setCardSt s c { x with tear := true, preempt := none, toHeld := false }
    let ws := (s1.warps.filter fun e => decide (e.2.card = c)).map (·.1)
    let s2 := ws.foldl unpark s1
    let s3 := match tileOf s2 c with
      | some (tc, t) => s2.setTile tc (stopWalkers (tileNow s2 tc) t)
      | none => s2
    finishTear s3 c

/-- COMPLETION_ARRIVAL, with the teardowns that waited for it. -/
def execCompletionArrival (s : State) : Host.Outcome State Fault Refusal := .next (sweepTears (arrive s s.ev.j))

/-! ## Pre-emption and HELD (R165, R167, R169, R175, R177) -/

/-- The DDX decides to pre-empt a card. -/
def preemptCard (s : State) (c : Nat) (toHeld : Bool) : State :=
  let x := cardSt s c
  match x.preempt with
  | some _ => if toHeld then setCardSt s c { x with toHeld := true } else s
  | none => setCardSt s c { x with preempt := some (s.now 3), toHeld := toHeld }

/-- A card goes HELD (R177). -/
def goHeld (s : State) (c : Nat) : State :=
  let st := cardState s c
  if st = stReady ∨ st = stPreempted then moveCard s c stHeld
  else if st = stRunning then
    if cardKind s c ≠ 1 ∨ tileSaving s c then preemptCard s c true
    else
      match tileOf s c with
      | some (tc, t) => (moveCard s c stHeld).setTile tc { stopWalkers (tileNow s tc) t with heldStop := true }
      | none => moveCard s c stHeld
  else s

/-- An exception of a card under a policy: 0 a record and HELD, 1 a notice, 2 a report and HELD. -/
def cardException (s : State) (c code detail : Nat) (notice toGov : Bool) : State :=
  let s1 := if toGov then ddxReport s c code detail else ddxRec s c code detail notice
  if notice then s1 else goHeld s1 c

/-- Bytes of the images that a save of vision or path work writes: its saved warps, the scratchpad of its blocks, and the engine
(R191, R387). -/
def imageBytes (s : State) (c : Nat) : Nat :=
  let ws := s.warps.foldl (fun (n : Nat) e => if e.2.card = c then n + 128 * allot e.2 + 1024 else n) 0
  let bs := s.ddx.blocks.foldl (fun (n : Nat) e => if e.2.card = c then n + 256 * e.2.spm else n) 0
  let shade := match s.ddx.rel.find c with
    | some r => r.shade
    | none => []
  ws + bs + (if cardKind s c = 2 then 4096 + (if shade = [] then 0 else 131072) else 0)

/-- PREEMPT_SAVE_COMPLETE (R167): the last save of a vision or path card is complete, and its images stand in the save area. -/
def execPreemptSaveComplete (s : State) : Host.Outcome State Fault Refusal :=
  let c := s.ev.i
  let x := cardSt s c
  let placed := s.warps.any fun e => decide (e.2.card = c) && e.2.place.isSome
  let pceOn := s.pces.any fun e => decide (e.2.card.map (fun (y : Ctx) => y.card) = some c) && !e.2.stop
  if x.preempt.isSome ∧ cardState s c = stRunning ∧ cardKind s c ≠ 1 ∧ !placed ∧ !pceOn then
    match regionTakes s (saveArea s c) (imageBytes s c) with
    | none => .next s
    | some s =>
    let s := writeImage s (cardPid s c) (saveArea s c) (imageBytes s c / 64)
    let s1 := moveCard s c (if x.toHeld then stHeld else stPreempted)
    let s2 := setCardSt s1 c { x with preempt := none, toHeld := false, saved := true }
    let s3 := (s2.pces.filter fun e => decide (e.1 < 2 ∧ e.2.card.map (fun (y : Ctx) => y.card) = some c)).foldl
      (fun (a : State) e => clearSluices (State.setPce { a with pces := a.pces.del e.1 } (2 + c) e.2) (69 + e.1)) s2
    .next (if x.tear then finishTear s3 c else s3)
  else .next s

/-- DEADLINE_MISS (R175). -/
def execDeadlineMiss (s : State) : Host.Outcome State Fault Refusal :=
  let c := s.ev.i
  let st := cardState s c
  if c < 1024 ∧ 1 ≤ st ∧ st ≤ 4 ∧ cardDeadline s c ≤ s.now 3 ∧ bit (cardWord s c 14) 4 = false then
    let s1 := setCardF s c 14 4 4 1
    let s2 := setCardF s1 c 14 63 32 (satInc (cardF s1 c 14 63 32) 32)
    let pol := cardDmpol s c
    .next (cardException s2 c tDMISS 0 (decide (pol = 1)) (decide (pol = 2)))
  else .next s

/-- The card of a sluice's requester (R173). -/
def requesterCard (s : State) (r : Nat) : Option Nat :=
  if r < 32 then coreCard s r
  else if r < 56 then (s.tiles.find (r - 32)).bind fun (t : TileCore) => t.card.map fun (x : Ctx) => x.card
  else if r = 69 ∨ r = 70 then (s.pces.find (r - 69)).bind fun (p : Pce) => p.card.map fun (x : Ctx) => x.card
  else none

/-- SLUICE_OVERRUN_REPORT (R174): the DDX counts the window once; when RUN reaches OVLIMIT it sets OVR and applies OVPOL, once
until a RESUME or the next release. -/
def execSluiceOverrunReport (s : State) : Host.Outcome State Fault Refusal :=
  match s.ms.overruns.find? fun e => decide (e.1 = s.ev.i ∧ e.2.1 = s.ev.j) with
  | none => .next s
  | some e =>
    let s1 := s.withMs { s.ms with overruns := s.ms.overruns.filter fun x => decide (x ≠ e) }
    match requesterCard s1 e.2.1 with
    | none => .next s1
    | some c =>
      let k := e.2.2.1
      let x := cardSt s1 c
      let x1 := if x.wins.contains k then x else { x with wins := x.wins ++ [k] }
      let s2 := if x.wins.contains k then s1 else setCardF s1 c 15 63 32 (satInc (cardF s1 c 15 63 32) 32)
      if cardF s1 c 0 23 16 ≤ e.2.2.2 then
        let s3 := setCardSt (setCardF s2 c 14 5 5 1) c { x1 with bov := true }
        let pol := cardOvpol s c
        .next (if x.bov || decide (pol = 0) then s3 else cardException s3 c tBOV e.2.1 false (decide (pol = 2)))
      else .next (setCardSt s2 c x1)

/-! ## Release requests (R140, R159, R163, R165) -/

/-- The relative deadline in ns. -/
def relDeadline (s : State) (c dlrel : Nat) : Nat := 1000 * (if dlrel = 0 then cardF s c 3 31 0 else dlrel)

/-- Refused with SHAPE, for a prepared release. -/
def shapeRefused (s : State) (c : Nat) (r : Release) : Bool :=
  if cardKind s c = 0 then visionShape s c r.hdr r.grid
  else if cardKind s c = 1 then decide (saveRoom s c < tileImage s c)
  else decide (saveRoom s c < pathImage s c r.shade)

/-- Fields of a SIGNAL or LAUNCH body. -/
def pOp (p : Rec64) : Nat := bits p.w0 7 0
def lCard (p : Rec64) : Nat := bits p.w1 9 0

/-- A prepared release from the words of a LAUNCH. -/
def launchRel (p : Rec64) (hdr : List DWord) (args : List Word) (who : Launcher) (done : Option Nat) : Release :=
  { hdr := hdr, args := args, grid := p.w3, argsVa := p.w4.toNat, ig := bits p.w1 19 16, tok := bits p.w7 23 0,
    launcher := who, doneSig := done.map fun pa => (pa, p.w6), shade := [], obound := 0,
    unplaced := [[], []], seq := 0, dlrel := bits p.w1 63 32 }

/-- What becomes of a LAUNCH's reads. -/
inductive Prep
  | ok (r : Release)
  | err (n : Nat)
  | wait

def eBADPKT : Nat := 1
def eBADHDR : Nat := 2
def eCARD : Nat := 3
def eFAULT : Nat := 4
def eTIMEOUT : Nat := 5
def eGRAPH : Nat := 6
def eSHAPE : Nat := 7
def eLEAT : Nat := 8
def eMQ : Nat := 9

/-- The field checks of R140. -/
def launchFields (p : Rec64) : Bool :=
  let tile := bit p.w0 9
  decide (bits p.w0 31 11 = 0 ∧ bits p.w1 31 20 = 0 ∧ bits p.w1 15 10 = 0 ∧ bits p.w7 63 24 = 0 ∧ bits p.w3 63 48 = 0) &&
    canonical p.w2.toNat && decide (p.w2.toNat % 64 = 0) && canonical p.w4.toNat && decide (p.w4.toNat % 4 = 0) &&
    canonical p.w5.toNat && decide (p.w5.toNat % 8 = 0) && (bit p.w0 10 || decide (p.w5 = 0)) &&
    (if tile then
       decide (bits p.w1 19 16 = 0 ∧ bits p.w3 47 8 = 0 ∧ bits p.w3 6 5 = 0) && (!(bit p.w3 7) || decide (bits p.w3 4 0 = 0))
     else decide (bits p.w1 19 16 ≤ 7 ∧ bits p.w7 23 0 = 0))

/-- The card checks of R140, R141 and R163 for a PID. -/
def launchCardOk (s : State) (p : Rec64) (pid : Nat) : Bool :=
  let c := lCard p
  let kind := bits p.w0 9 9
  decide (cardPid s c = pid) && cardIsLaunch s c && decide (cardKind s c = kind) && cardValid s c &&
    (decide (kind = 0) || bit p.w3 7 || (pidTiles s (cardPid s c)).contains (bits p.w3 4 0))

/-- The reads of R140 through the card's space on a unit of a die: its queue processor, or the DDX. -/
def launchPrep (s : State) (p : Rec64) (die unit : Nat) (who : Launcher) : Prep × State :=
  let c := lCard p
  let kind := bits p.w0 9 9
  let sp := cardSpace s c die unit
  match loadWords s sp p.w2.toNat 8 with
  | (.error (0, _, _), s1) => (.wait, s1)
  | (.error _, s1) => (.err eFAULT, s1)
  | (.ok hdr, s1) =>
    if !(hdrValid hdr kind) || (decide (kind = 0) && !(gridValid hdr p.w3)) then (.err eBADHDR, s1)
    else
      match loadWords32 s1 sp p.w4.toNat (if kind = 0 then kNarg (dwz hdr 1) else 0) with
      | (.error (0, _, _), s2) => (.wait, s2)
      | (.error _, s2) => (.err eFAULT, s2)
      | (.ok args, s2) =>
        if bit p.w0 10 then
          match translate s2 sp p.w5.toNat .write with
          | (.ok pa, s3) => (.ok (launchRel p hdr args who (some pa)), s3)
          | (.trap _ _, s3) => (.err eFAULT, s3)
          | (.wait, s3) => (.wait, s3)
        else (.ok (launchRel p hdr args who none), s2)

/-- The DDX's decision on a prepared release: accepted, refused with SHAPE, or waiting for the card. -/
inductive Ruling
  | accepted (s : State)
  | shape
  | busy

def decideRelease (s : State) (c : Nat) (khdr : DWord) (r : Release) : Ruling :=
  if !(cardFree s c) then .busy
  else if shapeRefused s c r then .shape
  else .accepted (acceptRelease (s.setReg (Reg.card c + 8 * 8) khdr) c (s.now 3) (relDeadline s c r.dlrel) r)

/-! ## Work that has ended (R157, R165) -/

/-- The work of a running card is done. -/
def workDone (s : State) (c : Nat) : Bool :=
  match s.ddx.rel.find c with
  | none => false
  | some r =>
    let noWarps := !(s.warps.any fun e => decide (e.2.card = c))
    let noQueue := !(s.ddx.bins.any fun (b : Bin) => decide (b.card = c)) &&
      !(s.ddx.queue.any fun e => e.2.any fun (q : QWarp) => decide (q.card = c))
    let k := cardKind s c
    (if k = 0 then
       r.unplaced.all (fun l => decide (l = [])) && noWarps && noQueue && decide ((poolOf s c).pub = [])
     else if k = 1 then
       match tileOf s c with
       | some (_, t) => decide (t.walkers.length = 5) && t.walkers.all fun (w : Walker) => decide (w.st = .ended)
       | none => false
     else
       noWarps && noQueue && s.pces.any fun e => decide (e.2.card.map (fun (x : Ctx) => x.card) = some c) && decide (e.2.st = .drain)) &&
      !(inFlight s (cardCtx s c))

/-- The completion horizon of the engines of a tile program (R325). -/
def tileHorizon (s : State) (c : Nat) : Nat :=
  match tileOf s c with
  | some (_, t) => t.walkers.foldl (fun (m : Nat) (w : Walker) => max m (max w.ch w.wct)) 0
  | none => 0

/-- CARD_WORK_DONE (R165): with the release of R98, once the horizon of the ended work is reached. -/
def execCardWorkDone (s : State) : Host.Outcome State Fault Refusal :=
  let c := s.ev.i
  let x := cardSt s c
  if c < 1024 ∧ cardState s c = stRunning ∧ !x.tear ∧ (x.preempt.isNone ∨ cardKind s c = 1) ∧ workDone s c ∧ max x.ch (tileHorizon s c) ≤ s.now 3 then .next (endWork s c)
  else .next s

end Sys2Proof.Machine
end

