-- ==== Sys2Proof/Machine/Graphs.lean ====
section
/-! DEFINITION. SIGNAL effects (R146), task graphs (R148 to R151) and release requests at the DDX (R140, R159). -/

namespace Sys2Proof.Machine

/-! ## SIGNAL (R146) -/

def sKind (p : Rec64) : Nat := bits p.w0 9 8
def sScope (p : Rec64) : Nat := bits p.w0 12 10

def signalFields (p : Rec64) : Bool :=
  let k := sKind p
  decide (bits p.w0 31 13 = 0 ∧ p.w4 = 0 ∧ p.w5 = 0 ∧ p.w6 = 0 ∧ p.w7 = 0) &&
    (if k = 3 then decide (sScope p = 4 ∧ p.w1 = 0 ∧ bits p.w2 63 12 = 0 ∧ p.w3 = 0)
     else if k = 2 then decide ((sScope p = 4 ∨ sScope p = 5) ∧ bits p.w1 63 44 = 0 ∧ bits p.w1 5 0 = 0)
     else decide ((sScope p = 4 ∨ sScope p = 5) ∧ p.w1.toNat % 8 = 0 ∧ p.w3 = 0) && canonical p.w1.toNat)

/-- How a SIGNAL ends: performed, an error of R147, a wait, or an enqueue at its leat. -/
inductive Sig
  | done
  | err (n : Nat)
  | wait
  | leat

/-- Perform a SIGNAL for an agent whose release has been performed. -/
def signal (s : State) (p : Rec64) (sp : Space) (a : Agent) (who : LWho) (pid : Nat) : Sig × State :=
  let k := sKind p
  if k = 3 then (.done, raiseVec s (bits p.w2 3 0) (bits p.w2 11 4))
  else if k = 2 then
    (.leat, sendLeat s p.w1.toNat who (.enq (wordsBytes [p.w2, p.w3])) true 0 none none (some pid))
  else
    match translate s sp p.w1.toNat .write with
    | (.trap _ _, s1) => (.err eFAULT, s1)
    | (.wait, s1) => (.wait, s1)
    | (.ok pa, s1) =>
      match writeSector s1 sp.requester sp.pid (secOf pa) false with
      | (false, s2) => (.wait, s2)
      | (true, s2) =>
        if k = 1 ∧ poisoned s2 (secOf pa) then (.done, s2)
        else
          let x := homeWrite64 s2 sp.requester sp.pid pa (if k = 1 then mem64 s2 pa + p.w2 else p.w2)
          (.done, raiseCh x.1 a x.2)

/-! ## Node records (R148, R149) -/

def gF (s : State) (g hi lo : Nat) : Nat := s.regF (Reg.graphCfg g) hi lo
def nodeWord (s : State) (g n k : Nat) : DWord := s.reg (Reg.graphMem + 128 * (gF s g 15 0 + n) + 8 * k)

def nodeBody (s : State) (g n : Nat) : Rec64 :=
  let w := nodeWord s g n
  { w0 := w 0, w1 := w 1, w2 := w 2, w3 := w 3, w4 := w 4, w5 := w 5, w6 := w 6, w7 := w 7 }

def nodePred (s : State) (g n : Nat) : Nat := bits (nodeWord s g n 8) 7 0
def nodeNsucc (s : State) (g n : Nat) : Nat := bits (nodeWord s g n 8) 12 8

/-- Entry i of SUCC. -/
def nodeEntry (s : State) (g n i : Nat) : Nat := bits (nodeWord s g n (9 + i / 4)) (16 * (i % 4) + 15) (16 * (i % 4))
def nodeSucc (s : State) (g n : Nat) : List Nat := (List.range (nodeNsucc s g n)).map (nodeEntry s g n)

/-- A body is a LAUNCH or SIGNAL whose fields pass, with ASYNC = 0. -/
def bodyOk (p : Rec64) : Bool :=
  (decide (pOp p = 1) && launchFields p && !(bit p.w0 8)) || (decide (pOp p = 5) && signalFields p)

def nodeOk (s : State) (g n nn : Nat) : Bool :=
  bodyOk (nodeBody s g n) && decide (bits (nodeWord s g n 8) 63 13 = 0 ∧ nodeNsucc s g n ≤ 24 ∧ nodeWord s g n 15 = 0) &&
    (nodeSucc s g n).all (fun x => decide (x < nn)) &&
    (List.range 24).all fun i => decide (i < nodeNsucc s g n) || decide (nodeEntry s g n i = 0)

/-- Remove nodes without predecessors until none is left (acyclic) or none can be removed. -/
def acyclicFrom (succ : Nat → List Nat) : Nat → List Nat → Bool
  | 0, left => decide (left = [])
  | f + 1, left =>
    let free := left.filter fun n => !(left.any fun m => (succ m).contains n)
    if left = [] then true else if free = [] then false
    else acyclicFrom succ f (left.filter fun n => !(free.contains n))

def graphValid (s : State) (g : Nat) : Bool :=
  let nn := gF s g 31 16
  let nodes := List.range nn
  let all := nodes.flatMap (nodeSucc s g)
  decide (1 ≤ nn ∧ nn ≤ 1024 ∧ gF s g 15 0 + nn ≤ 32768) && nodes.all (fun n => nodeOk s g n nn) &&
    nodes.all (fun n => decide (nodePred s g n = (all.filter fun x => decide (x = n)).length)) &&
    acyclicFrom (nodeSucc s g) (nn + 1) nodes && (pidPart s (gF s g 35 32)).isSome && satpOk (s.reg (Reg.graphSatp g))

/-! ## Runs (R150, R151) -/

def setGraph (s : State) (g : Nat) (r : GraphRun) : State := s.withDdx { s.ddx with graphs := s.ddx.graphs.set g r }

def recWord (p : Rec64) (k : Nat) (v : DWord) : Rec64 :=
  if k = 1 then { p with w1 := v } else if k = 2 then { p with w2 := v } else if k = 3 then { p with w3 := v }
  else if k = 4 then { p with w4 := v } else if k = 5 then { p with w5 := v } else if k = 6 then { p with w6 := v }
  else { p with w7 := v }

/-- The patch list: refusal code 3 or 4, or the patched bodies. -/
def patchBodies (s : State) (pa nn : Nat) (bodies : List Rec64) : Nat → Nat → Except Nat (List Rec64)
  | 0, _ => .ok bodies
  | n + 1, i =>
    let a := pa + 16 * i
    if !(dramOk s a) ∨ poisoned s (secOf a) then .error 4
    else
      let w := mem64 s a
      let node := bits w 15 0
      let k := bits w 18 16
      if k = 0 ∨ bits w 63 19 ≠ 0 ∨ nn ≤ node then .error 3
      else
        match bodies[node]? with
        | some b => patchBodies s pa nn (setAt bodies node (recWord b k (mem64 s (a + 8)))) n (i + 1)
        | none => .error 3

/-- Release a node: its request goes to the DDX. -/
def releaseNode (s : State) (g n : Nat) : State :=
  match s.ddx.graphs.find g with
  | some r =>
    let i := s.fresh
    let body := (r.bodies[n]?).getD (nodeBody s g n)
    let s1 := setGraph i.2 g { r with nodes := setAt r.nodes n .ready }
    s1.withDdx { s1.ddx with asks := s1.ddx.asks ++ [{ id := i.1, src := .node g n, card := lCard body, pkt := body, rel := none }] }
  | none => s

def refuseTrig (s : State) (g code : Nat) : State := s.setRegF (Reg.graphStat g) 11 8 code

/-- The reads of a patch list at its homes, for the graph's PID; false while one holds them. -/
def readPatches (s : State) (g np pa : Nat) : Bool × State :=
  ((spanSecs pa (16 * np)).filter fun x => dramOk s (64 * x)).foldl (fun (a : Bool × State) x =>
    if a.1 then homeRead a.2 73 (gF s g 35 32) x else a) (true, s)

/-- A trigger (R151): the refusal code, 0 when accepted. A list of more than 256 entries is refused as a malformed one, with code 3
(assumption 53). -/
def triggerGraph (s : State) (g np pa : Nat) : Nat × State :=
  if !(s.regBit (Reg.graphCfg g) 63) then (1, refuseTrig s g 1)
  else if s.regF (Reg.graphStat g) 1 0 = 1 then (2, refuseTrig s g 2)
  else
    let nn := gF s g 31 16
    if 256 < np then (3, refuseTrig s g 3)
    else
      match patchBodies s pa nn ((List.range nn).map (nodeBody s g)) np 0 with
      | .error e => (e, refuseTrig s g e)
      | .ok bodies =>
        let s1 := (s.setRegF (Reg.graphStat g) 11 8 0).setRegF (Reg.graphStat g) 1 0 1
        let s2 := setGraph s1 g
          { counters := (List.range nn).map (nodePred s g), nodes := List.replicate nn .waiting, bodies := bodies, answers := [] }
        (0, ((List.range nn).filter fun n => decide (nodePred s g n = 0)).foldl (fun a n => releaseNode a g n) s2)

def NodeSt.pending : NodeSt → Bool
  | .ready | .blocked | .running | .ended _ => true
  | _ => false

/-- The run ends when no node is released or running. FAILNODE of a run that ends DONE is 0, and a GRAPH_DONE that is misaligned or
outside DRAM receives no store (assumption 53). -/
def endRun (s : State) (g : Nat) : State :=
  match s.ddx.graphs.find g with
  | some r =>
    if r.nodes.any NodeSt.pending then s
    else
      let failed := (List.range r.nodes.length).filter fun n => decide (r.nodes[n]? = some .failed)
      let runs := (s.regF (Reg.graphStat g) 63 32 + 1) % 2 ^ 32
      let s1 := (s.setRegF (Reg.graphStat g) 63 32 runs).setRegF (Reg.graphStat g) 1 0 (if failed = [] then 2 else 3)
      let s2 := s1.setRegF (Reg.graphStat g) 25 16 (failed.head?.getD 0)
      let done := (s2.reg (Reg.graphDone g)).toNat
      let s3 := if done ≠ 0 ∧ done % 8 = 0 ∧ dramOk s2 done then
          oweDone s2 { horizon := s2.ddx.ch, pid := gF s2 g 35 32, pa := done,
                       v := BitVec.ofNat 64 (runs + if failed = [] then 0 else 2 ^ 63), card := 1024, gen := 0, who := .periodic, ok := true }
        else s2
      s3.withDdx { s3.ddx with graphs := s3.ddx.graphs.del g }
  | none => s

/-- A node has completed or failed (R151 steps 4 and 6). -/
def nodeEnds (s : State) (g n : Nat) (ok : Bool) : State :=
  match s.ddx.graphs.find g with
  | some r =>
    let s1 := setGraph s g { r with nodes := setAt r.nodes n (if ok then .done else .failed), answers := r.answers.del n }
    let s2 :=
      if ok then
        (nodeSucc s1 g n).foldl (fun (a : State) m =>
          match a.ddx.graphs.find g with
          | some x =>
            let k := x.counters.getD m 0 - 1
            let a1 := setGraph a g { x with counters := setAt x.counters m k }
            if k = 0 then releaseNode a1 g m else a1
          | none => a) s1
      else s1
    endRun s2 g
  | none => s

/-- GRAPH_NODE_COMPLETE: the completion of a node's work or of its leat enqueue arrives. -/
def execGraphNodeComplete (s : State) : Host.Outcome State Fault Refusal :=
  let g := s.ev.i
  let n := s.ev.j
  match s.ddx.graphs.find g with
  | some r =>
    match r.nodes[n]?, r.answers.find n with
    | some (.ended ok), _ => .next (nodeEnds s g n ok)
    | some .running, some a => .next (nodeEnds s g n (decide (a.trap = none ∧ a.status = 0)))
    | _, _ => .next s
  | none => .next s

/-! ## Release requests at the DDX (R140, R151, R159) -/

def delAsk (s : State) (i : Nat) : State :=
  s.withDdx { s.ddx with asks := s.ddx.asks.filter fun (a : Ask) => decide (a.id ≠ i) }

def setNode (s : State) (g n : Nat) (x : NodeSt) : State :=
  match s.ddx.graphs.find g with
  | some r => setGraph s g { r with nodes := setAt r.nodes n x }
  | none => s

/-- The die of the processor that serves a queue's thread. -/
def actingDie (die th : Nat) : Nat := if th < 32 then die else 1 - die

/-- The DDX's answer to a queue: 0 accepted, else an error of R147. -/
def tellThread (s : State) (die th n : Nat) : State :=
  answerThread s (actingDie die th) th (LAns.st n)

/-- The DDX's ruling on a node's prepared release: a busy card is waited for. -/
def ruleNode (s : State) (a : Ask) (g n : Nat) (r : Release) : State :=
  match decideRelease s a.card a.pkt.w2 r with
  | .accepted s1 => setNode (delAsk s1 a.id) g n .running
  | .shape => nodeEnds (delAsk s a.id) g n false
  | .busy => setNode s g n .blocked

/-- A node's LAUNCH: its checks and reads are made once (R140); any error fails the node. -/
def askLaunchNode (s : State) (a : Ask) (g n : Nat) : State :=
  match a.rel with
  | some r => ruleNode s a g n r
  | none =>
    if !(launchFields a.pkt) || !(launchCardOk s a.pkt (gF s g 35 32)) then nodeEnds (delAsk s a.id) g n false
    else
      match launchPrep s a.pkt (cardDie s a.card) 120 (.node g n) with
      | (.wait, s1) => s1
      | (.err _, s1) => nodeEnds (delAsk s1 a.id) g n false
      | (.ok r, s1) =>
        let b := { a with rel := some r }
        ruleNode (s1.withDdx { s1.ddx with asks := s1.ddx.asks.map fun (x : Ask) => if x.id = a.id then b else x }) b g n r

def askSignalNode (s : State) (a : Ask) (g n : Nat) : State :=
  let pid := gF s g 35 32
  let die := match (pidQuarters s pid).head? with
    | some q => q / 2
    | none => 0
  if !(signalFields a.pkt) then nodeEnds (delAsk s a.id) g n false
  else if s.now 3 < s.ddx.ch then s
  else
    match signal s a.pkt (spaceOf (s.reg (Reg.graphSatp g)) die 120 pid) .ddx (.graph g n) pid with
    | (.done, s1) => nodeEnds (delAsk s1 a.id) g n true
    | (.err _, s1) => nodeEnds (delAsk s1 a.id) g n false
    | (.leat, s1) => setNode (delAsk s1 a.id) g n .running
    | (.wait, s1) => s1

/-- An earlier node of the same run has been released and not been tried yet: nodes are released in order (R151). -/
def nodeFirst (s : State) (a : Ask) (g : Nat) : Bool :=
  s.ddx.asks.any fun (x : Ask) => decide (x.id < a.id) && (match x.src with
    | .node h m => decide (h = g) && (match s.ddx.graphs.find g with
      | some r => decide (r.nodes[m]? = some .ready)
      | none => false)
    | _ => false)

/-- DDX_RELEASE_REQUEST: while EN is 0 nothing is accepted (R165). -/
def execDdxReleaseRequest (s : State) : Host.Outcome State Fault Refusal :=
  match s.ddx.asks.find? fun (a : Ask) => decide (a.id = s.ev.i) with
  | none => .next s
  | some a =>
    if !(s.regBit Reg.ddxCtl 0) ∨ s.gov.holdPids.contains (cardPid s a.card) then .next s
    else
      match a.src with
      | .queue die q seq th =>
        if s.ddx.ids.any fun e => decide (e.1 = die ∧ e.2.1 = q ∧ e.2.2.1 = seq) then .next (tellThread (delAsk s a.id) die th 0)
        else
          match a.rel with
          | none => .next (delAsk s a.id)
          | some r =>
            match decideRelease s a.card a.pkt.w2 r with
            | .busy => .next s
            | .shape => .next (tellThread (delAsk s a.id) die th eSHAPE)
            | .accepted s1 =>
              let s2 := delAsk s1 a.id
              .next (tellThread (s2.withDdx { s2.ddx with ids := s2.ddx.ids ++ [(die, q, seq, a.card, cardGen s2 a.card)] })
                die th 0)
      | .node g n =>
        if nodeFirst s a g then .next s
        else .next (if pOp a.pkt = 1 then askLaunchNode s a g n else askSignalNode s a g n)
      | .periodic => .next (delAsk s a.id)

end Sys2Proof.Machine
end

