-- ==== Sys2Proof/Machine/Ddx.lean ====
section
/-! DEFINITION. The deadline dispatcher (R164 to R168, R176, R178, R179), and the saving and restoring of vision work
(R169, R171). -/

namespace Sys2Proof.Machine

/-! ## Periodic releases (R165, R176) -/

def nextRel (s : State) (c : Nat) : Nat := (cardWord s c 2).toNat
def advanceRel (s : State) (c : Nat) : State :=
  s.setReg (Reg.card c + 16) (BitVec.ofNat 64 (nextRel s c + (cardWord s c 1).toNat))
def countSkip (s : State) (c : Nat) : State := setCardF s c 15 31 0 (satInc (cardF s c 15 31 0) 32)

/-- A periodic release refused (R176): detail 1 header, 2 SHAPE, 3 arguments. -/
def refusePeriodic (s : State) (c detail : Nat) : State :=
  let s1 := countSkip (setCardF (setCardF s c 14 7 7 0) c 14 4 4 1) c
  let s2 := advanceRel (setCardF s1 c 14 63 32 (satInc (cardF s1 c 14 63 32) 32)) c
  (ddxRec s2 c tDMISS detail false).setRegF Reg.ddxStatus 1 1 1

def releasePeriodic (s : State) (c : Nat) (r : Release) : State :=
  if shapeRefused s c r then refusePeriodic s c 2
  else advanceRel (acceptRelease s c (nextRel s c) (1000 * cardF s c 3 31 0) r) c

def cardRelease (s : State) (c : Nat) (hdr : List DWord) (args : List Word) : Release :=
  { hdr := hdr, args := args, grid := cardWord s c 9, argsVa := (cardWord s c 10).toNat, ig := cardF s c 11 27 24,
    tok := cardF s c 11 23 0, launcher := .periodic, doneSig := none, shade := [], obound := 0,
    unplaced := [[], []], seq := 0, dlrel := 0 }

/-- The shading header of a path program, as far as the DDX can read it for the image of R387. -/
def pathShade (s : State) (c : Nat) : List DWord × State :=
  let sp := ddxSpace s c
  match loadWords s sp (cardWord s c 8).toNat 8 with
  | (.ok h, s1) =>
    if dwz h 3 = 0 then ([], s1)
    else
      match loadWords s1 sp (dwz h 3).toNat 8 with
      | (.ok k, s2) => (k, s2)
      | (_, s2) => ([], s2)
  | (_, s1) => ([], s1)

/-- PERIODIC_RELEASE: released, skipped or refused at Reached(NEXTREL). -/
def execPeriodicRelease (s : State) : Host.Outcome State Fault Refusal :=
  let c := s.ev.i
  if !(decide (c < 1024) && cardActive s c && !(cardIsLaunch s c) && decide (nextRel s c ≤ s.now 3)) ||
      s.gov.holdPids.contains (cardPid s c) then .next s
  else if !(s.regBit Reg.ddxCtl 0) || !(cardFree s c) then .next (countSkip (advanceRel s c) c)
  else if cardKind s c = 2 then
    let x := pathShade s c
    .next (releasePeriodic x.2 c { cardRelease x.2 c [] [] with shade := x.1 })
  else
    match loadWords s (ddxSpace s c) (cardWord s c 8).toNat 8 with
    | (.error (0, _, _), s1) => .next s1
    | (.error _, s1) => .next (refusePeriodic s1 c 1)
    | (.ok hdr, s1) =>
      if !(hdrValid hdr (cardKind s1 c)) ∨ (cardKind s1 c = 0 ∧ !(gridValid hdr (cardWord s1 c 9))) then
        .next (refusePeriodic s1 c 1)
      else
        match loadWords32 s1 (ddxSpace s1 c) (cardWord s1 c 10).toNat (if cardKind s1 c = 0 then kNarg (dwz hdr 1) else 0) with
        | (.error (0, _, _), s2) => .next s2
        | (.error _, s2) => .next (refusePeriodic s2 c 3)
        | (.ok args, s2) => .next (releasePeriodic s2 c (cardRelease s2 c hdr args))

/-! ## Dispatch (R166, R167, R178, R179) -/

/-- Blocks that can still be added on a core or pair for a card. -/
def roomOn (s : State) (h : List DWord) (c core : Nat) : Nat :=
  let w := dwz h 1
  let cores := if kPair w then [core, core + 1] else [core]
  let share := fun (x : Nat) => if !(kPair w) then blockWarps h else if x = core then (blockWarps h + 1) / 2 else blockWarps h / 2
  let spm := if kPair w then (kSpm w + 1) / 2 else kSpm w
  if cores.any fun x => (match coreCard s x with
      | some d => decide (d ≠ c)
      | none => false) then 0
  else
    let one := fun (x : Nat) =>
      let blocks := 32 - (blocksOn s x).length
      let a := if share x = 0 then blocks else min blocks ((warpsPerCore h - (warpsAt s x).length) / share x)
      if spm = 0 then a else min a (1024 / spm - spmHeld s x)
    cores.foldl (fun m x => min m (one x)) 4096

def roomFor (s : State) (h : List DWord) (c : Nat) (cores : List Nat) : Nat :=
  (unitsOf h cores).foldl (fun a x => a + roomOn s h c x) 0

/-- The tile core that a tile release names, or none under ANY. -/
def tileWanted (s : State) (c : Nat) : Option Nat :=
  match s.ddx.rel.find c with
  | some r => if bit r.grid 7 then none else some (bits r.grid 4 0)
  | none => none

def tileFits (s : State) (c tc : Nat) : Bool :=
  (pidTiles s (cardPid s c)).contains tc && (match tileWanted s c with
    | some t => decide (t = tc)
    | none => true)

def relHeader (s : State) (c : Nat) : List DWord :=
  match s.ddx.rel.find c with
  | some r => r.work
  | none => []

/-- Cores of a card's partition on a die. -/
def dieCores (s : State) (c d : Nat) : List Nat := (pidCores s (cardPid s c)).filter fun x => decide (coreDie x = d)

/-- Room for one team: on one die where a team fits on the cores of one, else over the partition. -/
def teamRoom (s : State) (h : List DWord) (c : Nat) : Bool :=
  (cardDies s c).any fun d =>
    decide (teamBlocks h ≤ roomFor s h c (if teamBlocks h ≤ capacity h (dieCores s c d) then dieCores s c d else pidCores s (cardPid s c)))

/-- Room for one warp that is its own team. -/
def soloRoom (s : State) (h : List DWord) (c : Nat) : Bool :=
  (pidCores s (cardPid s c)).any fun x => coreTakes s h x 1 0 && (match coreCard s x with
    | some d => decide (d = c)
    | none => true)

/-- A team of the card's grid stands saved. -/
def gridSaved (s : State) (c : Nat) : Bool :=
  s.ddx.blocks.any fun e => decide (e.2.card = c ∧ e.2.kind = .grid) && e.2.warps.any fun i => (match s.warps.find i with
    | some w => w.place.isNone
    | none => false)

/-- A team of the card's grid waits to be placed or restored. -/
def teamsWait (s : State) (c : Nat) : Bool :=
  gridSaved s c || (match s.ddx.rel.find c with
    | some r => r.unplaced.any fun l => !l.isEmpty
    | none => false)

/-- Whether a free resource serves a card: `res` is the tile core offered. -/
def served (s : State) (c res : Nat) : Bool :=
  let k := cardKind s c
  if k = 0 then if teamsWait s c then teamRoom s (relHeader s c) c else soloRoom s (relHeader s c) c
  else if k = 1 then tileFits s c res && (s.tiles.find res).isNone
  else
    match s.pces.find (cardDie s c) with
    | none => true
    | some p => decide (p.card.map (fun (x : Ctx) => x.card) = some c)

/-- Some free resource serves a card. -/
def anyServes (s : State) (c : Nat) : Bool :=
  if cardKind s c = 1 then (pidTiles s (cardPid s c)).any fun tc => served s c tc else served s c 0

/-- Whether a running card holds a resource that a waiting card could use. -/
def holdsFor (s : State) (victim c : Nat) : Bool :=
  let k := cardKind s c
  if k = 0 then (pidCores s (cardPid s c)).any fun x => decide (coreCard s x = some victim)
  else if k = 1 then
    s.tiles.any fun e => tileFits s c e.1 && decide (e.2.card.map (fun (x : Ctx) => x.card) = some victim)
  else decide (((s.pces.find (cardDie s c)).bind fun (p : Pce) => p.card.map fun (x : Ctx) => x.card) = some victim)

/-- The latest key among cards. -/
def latest (s : State) (l : List Nat) : Option Nat :=
  l.foldl (fun (a : Option Nat) c =>
    match a with
    | none => some c
    | some b => if precedes s b c then some c else a) none

/-- The cards in RUNNING; those among them that are being saved or torn down, and those that are not. -/
def allRunning (s : State) : List Nat := (knownCards s).filter fun c => decide (cardState s c = stRunning)
def leaves (s : State) (c : Nat) : Bool := (cardSt s c).preempt.isSome || (cardSt s c).tear
def runningCards (s : State) : List Nat := (allRunning s).filter fun c => !(leaves s c)

def opPoint (s : State) (d : Nat) : Nat := s.regF (Reg.opStat d) 1 0
def cardClk (s : State) (c : Nat) : Nat := cardF s c 0 14 13

/-- The dies that a card's work runs on: those of its cores, of the tile core offered, of its engine. -/
def opDies (s : State) (c res : Nat) : List Nat :=
  if cardKind s c = 0 then cardDies s c else if cardKind s c = 1 then [coreDie (32 + res)] else [cardDie s c]

/-- The dies that a running card's work runs on. -/
def runDies (s : State) (c : Nat) : List Nat :=
  match tileOf s c with
  | some (tc, _) => [coreDie (32 + tc)]
  | none => if cardKind s c = 2 then [cardDie s c] else cardDies s c

/-- Whether a die may move to an operating point: no HRT card that runs there declares a lower one (R179). -/
def opMay (s : State) (d n : Nat) : Bool :=
  ((allRunning s).filter fun c => (runDies s c).contains d).all fun c => decide (cardClass s c ≠ 0) || decide (n ≤ cardClk s c)

def opOk (s : State) (c res : Nat) : Bool :=
  decide (cardClass s c ≠ 0) || (opDies s c res).all fun d => decide (opPoint s d ≤ cardClk s c)

/-- Ask for the operating point that an HRT card needs, on dies below their limit. -/
def askOp (s : State) (c res : Nat) : State :=
  (opDies s c res).foldl (fun (a : State) d =>
    if opPoint a d ≤ cardClk a c ∨ a.regF Reg.tlim 7 0 ≤ a.regF (Reg.opStat d) 15 8 then a
    else a.withDdx { a.ddx with opNext := a.ddx.opNext.set d (cardClk a c) }) s

/-- A tile core with nothing in it. -/
def TileCore.blank (x : Ctx) (now : Nat) : TileCore :=
  { card := some x, since := now, acc := [], bad := [], wf := [], handles := [], fifo := List.replicate 6 [], walkers := [],
    samples := [], span := 0, spanAt := none, trapped := false, trapAt := none, heldStop := false, live := none, soft := none, formed := [],
    restoring := false, entry := false, resumeAt := 0 }

def Pce.blank (x : Ctx) : Pce :=
  { st := .start, stop := false, card := some x, idx := 0, cmd := none, surf := [], pos := 0, cur := (0, 0), startPt := (0, 0),
    open_ := false, segs := [], move := 0, priv := [], gathered := false, spawns := [], ch := 0, back := .header, ecc := none }

/-- Dispatch a card: RUNNING, its resource taken, its sluices set. -/
def startCard (s : State) (c res : Nat) : State :=
  let s2 := moveCard s c stRunning
  let x := cardCtx s2 c
  if cardKind s c = 1 then setSluices (s2.setTile res (TileCore.blank x (tileNow s2 res))) c (32 + res)
  else if cardKind s c = 2 then
    let d := cardDie s2 c
    let p := match s2.pces.find (2 + c) with
      | some p => { p with stop := false }
      | none => { Pce.blank x with ch := s2.now d }
    setSluices (State.setPce (endUnit { s2 with pces := s2.pces.del (2 + c) } d) d p) c (69 + d)
  else s2

/-- The work of a running card may still be placed or moved. -/
def workMoves (s : State) (c : Nat) : Bool :=
  decide (cardState s c = stRunning) && (cardSt s c).preempt.isNone && !(cardSt s c).tear

/-- A warp that is its own team waits for a core: a continuation or spawned warp in a launch queue, or a saved one. -/
def soloWaits (s : State) (c : Nat) : Bool :=
  (s.ddx.queue.any fun e => e.2.any fun (q : QWarp) => decide (q.card = c)) ||
    s.warps.any fun e => decide (e.2.card = c) && e.2.place.isNone && (match s.ddx.blocks.find e.2.block with
      | some b => decide (b.kind ≠ .grid)
      | none => false)

/-- A card waits for a free resource of kind k, which serves it (R167): to be dispatched on it, or, running, for a vision core that a
team of its grid, a continuation warp or a spawned warp is to be placed on. -/
def waitsFor (s : State) (c k res : Nat) : Bool :=
  (waitsDdx s c && decide (cardKind s c = k) && served s c res && powerFits s c && opOk s c res) ||
    (decide (k = 0) && workMoves s c &&
      ((teamsWait s c && teamRoom s (relHeader s c) c) || (soloWaits s c && soloRoom s (relHeader s c) c)))

/-- Two cards may want one resource of kind k: their partitions share a quarter, or path cards the engine of their die (R20, R376). -/
def sharesKind (s : State) (k d c : Nat) : Bool :=
  if k = 2 then decide (cardDie s d = cardDie s c)
  else (pidQuarters s (cardPid s d)).any fun q => (pidQuarters s (cardPid s c)).contains q

/-- Another card comes first for a resource: it precedes, and waits for a resource of that kind which both may want. -/
def comesFirst (s : State) (d c res : Nat) : Bool :=
  decide (d ≠ c) && precedes s d c && waitsFor s d (cardKind s c) res && sharesKind s (cardKind s c) d c

/-- The card of the latest key, running, that holds a resource the card could use. -/
def victimFor (s : State) (c : Nat) : Option Nat :=
  latest s ((knownCards s).filter fun d => decide (cardState s d = stRunning) && holdsFor s d c)

/-- The power that the cards being saved or torn down give back: room that is already being made (R178). -/
def powerLeaving (s : State) : Nat := ((allRunning s).filter (leaves s)).foldl (fun n c => n + cardPwr s c) 0

/-- DISPATCH: a grant by order key, with room made by pre-emption (R167, R178). -/
def execDispatch (s : State) : Host.Outcome State Fault Refusal :=
  let c := s.ev.i
  let res := s.ev.j
  if !(decide (c < 1024)) || !(s.regBit Reg.ddxCtl 0) || !(waitsDdx s c) || (cardSt s c).tear then .next s
  else if !(opOk s c res) then .next (askOp s c res)
  else if !(powerFits s c) then
    let be := (runningCards s).filter fun d => decide (cardClass s d = 2) && precedes s c d
    let srt := (runningCards s).filter fun d => decide (cardClass s d = 1) && decide (cardClass s c = 0)
    let s1 := s.setRegF Reg.ddxStatus 2 2 1
    if (s.reg Reg.pwrAdm).toNat + cardPwr s c ≤ s.regF Reg.pwrCap 15 0 + powerLeaving s then .next s1
    else
    match latest s be, latest s srt with
    | some v, _ => .next (preemptCard s1 v false)
    | none, some v => .next (preemptCard s1 v false)
    | none, none => .next s1
  else if served s c res then
    if (knownCards s).any fun d => comesFirst s d c res then .next s else .next (startCard s c res)
  else if anyServes s c then .next s
  else
    match victimFor s c with
    | some v => if precedes s c v && !(cardSt s v).tear then .next (preemptCard s v false) else .next s
    | none => .next s

/-- OP_CHANGE_DONE (R179). A move that an HRT card dispatched since then does not permit is not made. -/
def execOpChangeDone (s : State) : Host.Outcome State Fault Refusal :=
  match s.ddx.opNext.find s.ev.i with
  | some n =>
    let s1 := s.withDdx { s.ddx with opNext := s.ddx.opNext.del s.ev.i }
    .next (if opMay s s.ev.i n then s1.setRegF (Reg.opStat s.ev.i) 1 0 n else s1)
  | none => .next s

/-- THERMAL_STEP (R179): a die at or above TLIM, 100 us after the last step. Each step at TLIM + 5 pre-empts one card, and each at
TLIM + 10 reports THERM (assumption 58). -/
def execThermalStep (s : State) : Host.Outcome State Fault Refusal :=
  let d := s.ev.i
  let t := s.regF (Reg.opStat d) 15 8
  let lim := s.regF Reg.tlim 7 0
  let due := match s.ddx.therm.find d with
    | some x => decide (x + 100000 ≤ s.now 3)
    | none => true
  if 2 ≤ d ∨ t < lim ∨ !due then .next s
  else
    let s1 := s.withDdx { s.ddx with therm := s.ddx.therm.set d (s.now 3) }
    let on := (runningCards s).filter fun c => (runDies s c).contains d
    let s2 := if opPoint s d < 3 ∧ opMay s d (opPoint s d + 1) then s1.withDdx { s1.ddx with opNext := s1.ddx.opNext.set d (opPoint s d + 1) } else s1
    let s3 :=
      if lim + 5 ≤ t then
        match latest s2 (on.filter fun c => decide (cardClass s c = 2)), latest s2 (on.filter fun c => decide (cardClass s c = 1)) with
        | some v, _ => preemptCard s2 v false
        | none, some v => preemptCard s2 v false
        | none, none => s2
      else s2
    .next (if lim + 10 ≤ t then s3.withDdx { s3.ddx with reports := s3.ddx.reports ++ [(256, 0, d)] } else s3)

/-! ## Placement of teams (R152, R153, R168) -/

/-- A card that comes first may take the free core: it waits to be dispatched on it, or it runs and has work to place (R167). -/
def coreWanted (s : State) (c core : Nat) : Bool :=
  (knownCards s).any fun d => decide (d ≠ c) && precedes s d c && (pidCores s (cardPid s d)).contains core && waitsFor s d 0 0 &&
    (!(waitsDdx s d) || s.regBit Reg.ddxCtl 0)

/-- Whether a card may put work on a core: in its partition, holding no other card's work. -/
def coreOpen (s : State) (c core : Nat) : Bool :=
  (pidCores s (cardPid s c)).contains core &&
    (match coreCard s core with
     | some d => decide (d = c)
     | none => !(coreWanted s c core))

/-- The cores of a block that starts at a core. -/
def blockCores (h : List DWord) (core : Nat) : List Nat := if kPair (dwz h 1) then [core, core + 1] else [core]

/-- Whether a block's shares fit on its cores. -/
def blockFits (s : State) (h : List DWord) (c core : Nat) : Bool :=
  let n := blockWarps h
  let w := dwz h 1
  if kPair w then
    decide (core % 2 = 0) && coreOpen s c core && coreOpen s c (core + 1) && coreTakes s h core ((n + 1) / 2) ((kSpm w + 1) / 2) &&
      coreTakes s h (core + 1) (n / 2) ((kSpm w + 1) / 2)
  else coreOpen s c core && coreTakes s h core n (kSpm w)

/-- Place the blocks of a team one after another on the cores given; none when one does not fit. -/
def placeBlocks (s : State) (c : Nat) (h : List DWord) (team : Nat) (want : Nat → Option Nat) :
    List (Nat × (Nat × Nat × Nat)) → List Nat → Option State
  | [], _ => some s
  | _ :: _, [] => none
  | (lin, xyz) :: t, core :: cs =>
    if blockFits s h c core then placeBlocks (makeBlock s c team lin xyz (blockCores h core) want) c h team want t cs else none

/-- Linear indices and coordinates of the blocks of team t. -/
def teamCoords (h : List DWord) (g : DWord) (t : Nat) : List (Nat × (Nat × Nat × Nat)) :=
  let k := dwz h 2
  let nx := gX g / kTX k
  let ny := gY g / kTY k
  let a := t % nx
  let b := t / nx % ny
  let c := t / nx / ny
  (List.range (teamBlocks h)).map fun i =>
    let x := a * kTX k + i % kTX k
    let y := b * kTY k + i / kTX k % kTY k
    let z := c * kTZ k + i / kTX k / kTY k
    (x + gX g * (y + gY g * z), (x, y, z))

/-- TEAM_PLACE: the distributor of a die places the first of its unplaced teams of a card, whole. `ids` holds the core
of each block. -/
def execTeamPlace (s : State) : Host.Outcome State Fault Refusal :=
  let d := s.ev.i
  let c := s.ev.j
  match s.ddx.rel.find c with
  | none => .next s
  | some r =>
    match r.unplaced.getD d [] with
    | [] => .next s
    | t :: rest =>
      let n := teamBlocks r.hdr
      let cores := s.ev.ids.take n
      let mine := (pidCores s (cardPid s c)).filter fun x => decide (coreDie x = d)
      if !(workMoves s c) ∨ cores.length ≠ n ∨ (n ≤ capacity r.hdr mine ∧ cores.any fun x => decide (coreDie x ≠ d)) then .next s
      else
        let tm := newTeam s c d
        match placeBlocks tm.2 c r.hdr tm.1 (fun i => s.ev.ids[n + i]?) (teamCoords r.hdr r.grid t) cores with
        | some s1 =>
          match s1.ddx.rel.find c with
          | some r1 => .next (s1.withDdx { s1.ddx with rel := s1.ddx.rel.set c { r1 with unplaced := setAt r1.unplaced d rest } })
          | none => .next s1
        | none => .next s

/-- A thief asks the other distributor (R153). -/
def stealNow (s : State) (d c : Nat) (r : Release) : State :=
  let o := 1 - d
  let l := r.unplaced.getD o []
  let n := l.length
  if n < 2 then s.withDdx { s.ddx with steals := s.ddx.steals.set (1024 * d + c) (s.now d, decide (n = 0)) }
  else
    let keep := l.take (n - n / 2)
    let got := l.drop (n - n / 2)
    s.withDdx { s.ddx with
      rel := s.ddx.rel.set c { r with unplaced := setAt (setAt r.unplaced o keep) d got }
      steals := s.ddx.steals.del (1024 * d + c) }

/-- A distributor asks once it has nothing to place, and again 1 us after an answer of NONE with n not 0 (R153). -/
def stealDue (s : State) (d c : Nat) (again : Bool) : Bool :=
  match s.ddx.steals.find (1024 * d + c) with
  | none => !again
  | some x => again && !x.2 && decide (x.1 + 1000 ≤ s.now d)

def runSteal (s : State) (again : Bool) : State :=
  let d := s.ev.i
  let c := s.ev.j
  match s.ddx.rel.find c with
  | none => s
  | some r =>
    let mine := (pidCores s (cardPid s c)).filter fun x => decide (coreDie x = d)
    let due : Bool := stealDue s d c again
    if d < 2 ∧ workMoves s c ∧ cardDies s c = [0, 1] ∧ (r.unplaced.getD d []).isEmpty = true ∧ due = true ∧ teamBlocks r.hdr ≤ roomFor s r.hdr c mine then
      stealNow s d c r
    else s

def execSteal (s : State) : Host.Outcome State Fault Refusal := .next (runSteal s false)
def execStealRetry (s : State) : Host.Outcome State Fault Refusal := .next (runSteal s true)

/-! ## Continuation warps (R154 to R156) -/

def queueOf (s : State) (d : Nat) : List QWarp := Tbl.get [] s.ddx.queue d
def setQueue (s : State) (d : Nat) (q : List QWarp) : State := s.withDdx { s.ddx with queue := s.ddx.queue.set d q }
def queueRoom (s : State) (d : Nat) : Bool := decide ((queueOf s d).length < 256)

/-- Close a bin: it becomes one warp of the launch queue. -/
def closeBin (s : State) (b : Bin) : State :=
  let s1 := s.withDdx { s.ddx with bins := s.ddx.bins.filter fun (x : Bin) => decide (x ≠ b) }
  setQueue s1 b.die (queueOf s1 b.die ++ [{ card := b.card, gen := cardGen s1 b.card, entry := b.entry, recs := b.recs, spawn := none, order := 0 }])

/-- Put a record into its bin, opening one if none has its key. -/
def binRecord (s : State) (d c : Nat) (w : List DWord) : State :=
  let e := (dwz w 0).toNat
  match s.ddx.bins.find? fun (b : Bin) => decide (b.die = d ∧ b.card = c ∧ b.entry = e) with
  | some b =>
    let b1 := { b with recs := b.recs ++ [w] }
    let s1 := s.withDdx { s.ddx with bins := s.ddx.bins.map fun (x : Bin) => if x = b then b1 else x }
    if 32 ≤ b1.recs.length then closeBin s1 b1 else s1
  | none =>
    let mine := s.ddx.bins.filter fun (b : Bin) => decide (b.die = d)
    let s1 := if 64 ≤ mine.length then
        (match mine.foldl (fun (a : Option Bin) (b : Bin) =>
            match a with
            | none => some b
            | some x => if b.t0 < x.t0 then some b else a) none with
         | some b => closeBin s b
         | none => s)
      else s
    s1.withDdx { s1.ddx with bins := s1.ddx.bins ++ [{ die := d, card := c, entry := e, recs := [w], t0 := s1.now d }] }

/-- CONT_RECORD_READ: the oldest published record of a die, which is the card's, while the launch queue has room. The records of a card
that does not run are left out until it runs, and a record that cannot be read is dropped (assumption 62). -/
def execContRecordRead (s : State) : Host.Outcome State Fault Refusal :=
  let d := s.ev.i
  let c := s.ev.j
  if !(queueRoom s d) ∨ cardState s c ≠ stRunning ∨ firstPub s d ≠ some c then .next s
  else
    match poolTake (poolOf s c) d with
    | none => .next s
    | some (i, p) =>
      match loadWords s (cardSpace s c d (130 + d)) (recordVa s c i) 8 with
      | (.ok w, s1) => .next (binRecord (setPool s1 c p) d c w)
      | (.error (0, _, _), s1) => .next s1
      | (.error _, s1) => .next (setPool s1 c p)

/-- BIN_TIMEOUT: 2 us after a bin's first record. -/
def execBinTimeout (s : State) : Host.Outcome State Fault Refusal :=
  let mine := s.ddx.bins.filter fun (b : Bin) => decide (b.die = s.ev.i)
  match mine[s.ev.j]? with
  | some b => if b.t0 + 2000 ≤ s.now s.ev.i ∧ queueRoom s s.ev.i then .next (closeBin s b) else .next s
  | none => .next s

/-- Registers v0 to v13 of a continuation lane (R154). -/
def contRegs (recs : List (List DWord)) (w : Warp) : Warp :=
  (recs.zip (List.range recs.length)).foldl (fun (a : Warp) e =>
    (List.range 7).foldl (fun (b : Warp) m =>
      (b.vSet (2 * m) e.2 (lo32 (dwz e.1 (m + 1)))).vSet (2 * m + 1) e.2 (hi32 (dwz e.1 (m + 1)))) a) w

/-- Whether one more solo warp fits on a core for a card: on a core of the distributor's die, or for a spawned warp on any core of the
card's partition (R390). -/
def soloFits (s : State) (h : List DWord) (c core d : Nat) : Bool :=
  decide ((coreDie core = d ∨ cardKind s c = 2) ∧ core < 32) && workMoves s c && coreOpen s c core && coreTakes s h core 1 0

def nextSeq (s : State) (c : Nat) : Nat × State :=
  match s.ddx.rel.find c with
  | some r => (r.seq, s.withDdx { s.ddx with rel := s.ddx.rel.set c { r with seq := r.seq + 1 } })
  | none => (0, s)

/-- CONT_WARP_PLACE: the first continuation warp of the launch queue that the core can take. -/
def execContWarpPlace (s : State) : Host.Outcome State Fault Refusal :=
  let d := s.ev.i
  let core := s.ev.j
  match (queueOf s d).find? fun (q : QWarp) => q.spawn.isNone && soloFits s (relHeader s q.card) q.card core d with
  | none => .next s
  | some q =>
    match s.ddx.rel.find q.card with
    | none => .next s
    | some r =>
      let n := nextSeq (setQueue s d ((queueOf s d).filter fun x => decide (x ≠ q))) q.card
      let vac := maskOf fun l => decide (q.recs.length ≤ l)
      .next (makeSolo n.2 q.card r.work r.args .cont core s.ev.opt (fun w => { contRegs q.recs w with seq := n.1 }) q.entry vac d)

/-! ## Saving vision work (R169, R171) -/

/-- Whether a warp stands at a save point: a clause boundary, a word that a register hazard on an access in flight holds (R171), an
answer that it waits for, or a stop. -/
def atSavePoint (s : State) (wid : Nat) (w : Warp) : Bool :=
  decide (w.st = .trapped ∨ w.st = .parked) || w.hold.isSome ||
    (match w.clause with
     | none => true
     | some c => wordHeld s wid w c)

/-- Save a warp: its waiter removed, its place given up, its image kept. -/
def saveWarp (s : State) (wid : Nat) : State :=
  let s1 := unpark s wid
  match s1.warps.find wid with
  | some w =>
    let core := warpCore w
    let s2 := s1.setWarp wid { w with place := none, saved := true, savedOn := some core, yieldTo := [], ovFirst := none,
                                      ovWait := none, entry := false, resolving := some 0 }
    sweepCore (sweepOvls s2 core) core
  | none => s1

/-- VISION_PREEMPT: a warp of a card that is being stopped is saved at a save point, outside an ordered section. -/
def execVisionPreempt (s : State) : Host.Outcome State Fault Refusal :=
  match s.warps.find s.ev.i with
  | some w =>
    if w.place.isSome ∧ stopping s w ∧ (!w.held ∨ w.st = .trapped) ∧ atSavePoint s s.ev.i w then .next (saveWarp s s.ev.i)
    else .next s
  | none => .next s

/-- ORDBOUND of a card: its own, or OBOUND for a path card (R378). -/
def ordBound (s : State) (c : Nat) : Nat :=
  if cardKind s c = 2 then
    match s.ddx.rel.find c with
    | some r => r.obound
    | none => 0
  else cardBound s c

/-- ORDBOUND_EXPIRY: the warp takes WDOG and is saved as a trapped warp that holds its section (R169, R393). -/
def execOrdboundExpiry (s : State) : Host.Outcome State Fault Refusal :=
  match s.warps.find s.ev.i with
  | some w =>
    match (cardSt s w.card).preempt with
    | some t =>
      if w.place.isSome ∧ w.held ∧ w.st ≠ .trapped ∧ t + ordBound s w.card ≤ s.now 3 then
        .next (saveWarp (trapWarp s s.ev.i { code := tWDOG, detail := 0 } (warpLanes w)) s.ev.i)
      else .next s
    | none => .next s
  | none => .next s

/-- Restore the blocks of a team on the cores given; none when one does not fit. -/
def restoreBlocks (s : State) (c : Nat) (h : List DWord) (want : Nat → Option Nat) : List Nat → List Nat → Option State
  | [], _ => some s
  | _ :: _, [] => none
  | b :: t, core :: cs =>
    match s.ddx.blocks.find b with
    | none => restoreBlocks s c h want t (core :: cs)
    | some x =>
      let fits := if x.kind = .grid then blockFits s h c core else soloFits s h c core (coreDie core)
      if !fits then none
      else
        let cores := if x.kind = .grid then blockCores h core else [core]
        let half := (blockWarps h + 1) / 2
        let s1 := s.withDdx { s.ddx with blocks := s.ddx.blocks.set b { x with cores := cores } }
        let s2 := x.warps.foldl (fun (a : State) i =>
          match a.warps.find i with
          | some w => placeWarp a h i (if cores.length = 2 ∧ half ≤ w.wnum then cores.getD 1 0 else cores.getD 0 0) (want w.wnum)
          | none => a) s1
        restoreBlocks s2 c h want t cs

/-- VISION_RESTORE: the first saved team of a running card is placed whole on the cores in `ids`, once every access of its
warps in flight has completed (R168, R171). -/
def execVisionRestore (s : State) : Host.Outcome State Fault Refusal :=
  let c := s.ev.i
  let saved := fun (t : Team) => decide (t.card = c) && (teamWarps s t).any fun i => (match s.warps.find i with
    | some w => w.place.isNone
    | none => false)
  match s.ddx.teams.find? fun e => saved e.2 with
  | none => .next s
  | some (_, t) =>
    let flying := (teamWarps s t).any fun i => (s.ops.any fun e => decide (e.2.wid = i)) ||
      (s.ms.reqs.any fun (q : Req) => decide (q.agent = .warp i)) || s.lq.reqs.any fun (q : LReq) => (match q.who with
        | .warp w _ _ => decide (w = i)
        | _ => false)
    let h := match s.ddx.rel.find c with
      | some r => r.work
      | none => []
    if !(workMoves s c) ∨ flying then .next s
    else
      match restoreBlocks s c h (fun i => s.ev.ids[t.blocks.length + i]?) t.blocks s.ev.ids with
      | some s1 =>
        match s1.ddx.teams.find? fun e => decide (e.2 = t) with
        | some (i, t1) => .next (setTeam s1 i { t1 with nodes := { cores := [], dies := [] } })
        | none => .next s1
      | none => .next s

end Sys2Proof.Machine
end

