-- ==== Sys2Proof/Machine/PathGeo.lean ====
section
/-! DEFINITION. The geometry of the path coverage engine (R58 to R60, R361 to R375): splitting and flattening of curves,
the cutting of lines at cell boundaries, and the resolve of a row. -/

namespace Sys2Proof.Machine

abbrev Pt := Int × Int

/-- Round(n / d, integer, RNE) for d above 0. -/
def divRne (n : Int) (d : Nat) : Int :=
  let q := n / (d : Int)
  let r := 2 * (n % (d : Int))
  if r < (d : Int) then q else if (d : Int) < r then q + 1 else if q % 2 = 0 then q else q + 1

/-! ## Curves (R364, R365) -/

def mid (a b : Pt) : Pt := (divRne (a.1 + b.1) 2, divRne (a.2 + b.2) 2)

/-- Path coordinates to split coordinates, and a vertex back (R59, Emit). -/
def toSplit (p : Pt) : Pt := (64 * p.1, 64 * p.2)
def emitPt (p : Pt) : Pt := (divRne p.1 64, divRne p.2 64)

/-- Largest second difference of three points. -/
def bend (a b c : Pt) : Nat := max (a.1 - 2 * b.1 + c.1).natAbs (a.2 - 2 * b.2 + c.2).natAbs

/-- Vertices of a quadratic piece; n is what is left of the depth limit 6. -/
def flatQuad : Nat → Pt → Pt → Pt → List Pt
  | 0, _, _, p2 => [emitPt p2]
  | n + 1, p0, p1, p2 =>
    if bend p0 p1 p2 ≤ 4096 then [emitPt p2]
    else
      let m01 := mid p0 p1
      let m12 := mid p1 p2
      let c := mid m01 m12
      flatQuad n p0 m01 c ++ flatQuad n c m12 p2

/-- Vertices of a cubic piece; n is what is left of the depth limit 8. -/
def flatCubic : Nat → Pt → Pt → Pt → Pt → List Pt
  | 0, _, _, _, p3 => [emitPt p3]
  | n + 1, p0, p1, p2, p3 =>
    if 3 * max (bend p0 p1 p2) (bend p1 p2 p3) ≤ 4096 then [emitPt p3]
    else
      let m01 := mid p0 p1
      let m12 := mid p1 p2
      let m23 := mid p2 p3
      let a := mid m01 m12
      let b := mid m12 m23
      let c := mid a b
      flatCubic n p0 m01 a c ++ flatCubic n c b m23 p3

/-- Vertices of a segment from the current point: the points it gives, [] for a line to the subpath's start. -/
def flatten (cur start : Pt) (seg : List Pt) : List Pt :=
  match seg with
  | [] => [start]
  | [p] => [p]
  | [c, p] => flatQuad 6 (toSplit cur) (toSplit c) (toSplit p)
  | c :: d :: p :: _ => flatCubic 8 (toSplit cur) (toSplit c) (toSplit d) (toSplit p)

/-! ## Lines (R368) -/

/-- Cuts of a line on the boundaries of one coordinate u, in order from A: distance of the cut from A in u, the
boundary, and the rounded other coordinate. -/
def cutsOn (a b oa ob : Int) : List (Nat × Int × Int) :=
  let lo := min a b / 256 + 1
  let hi := (max a b - 1) / 256
  let ns := (List.range (hi - lo + 1).toNat).map fun (i : Nat) => 256 * (lo + (i : Int))
  let len := (b - a).natAbs
  (if a ≤ b then ns else ns.reverse).map fun n =>
    let t := (n - a).natAbs
    (t, n, divRne (oa * (len : Int) + (t : Int) * (ob - oa)) len)

/-- Both kinds of cut in order along the line, a grid point once; dx and dy are the line's extents. -/
def mergeCuts (dx dy : Nat) : Nat → List (Nat × Int × Int) → List (Nat × Int × Int) → List Pt
  | 0, _, _ => []
  | _ + 1, [], ys => ys.map fun y => (y.2.2, y.2.1)
  | _ + 1, xs, [] => xs.map fun x => (x.2.1, x.2.2)
  | n + 1, x :: xs, y :: ys =>
    let l := x.1 * dy
    let r := y.1 * dx
    if l < r then (x.2.1, x.2.2) :: mergeCuts dx dy n xs (y :: ys)
    else if r < l then (y.2.2, y.2.1) :: mergeCuts dx dy n (x :: xs) ys
    else (x.2.1, y.2.1) :: mergeCuts dx dy n xs ys

/-- One piece's cell and its area and cover. -/
structure Piece where
  col : Int
  row : Int
  area : Int
  cover : Int
  deriving DecidableEq, Repr

def pieceOf (p q : Pt) : Piece :=
  let row := (p.2 + q.2) / 512
  let col := (p.1 + q.1) / 512
  let dy := q.2 - p.2
  { col := col, row := row, area := divRne (dy * (512 - (p.1 - 256 * col) - (q.1 - 256 * col))) 2, cover := 256 * dy }

/-- The pieces of a line that contribute. -/
def linePieces (a b : Pt) : List Piece :=
  let xs := cutsOn a.1 b.1 a.2 b.2
  let ys := cutsOn a.2 b.2 a.1 b.1
  let pts := mergeCuts (b.1 - a.1).natAbs (b.2 - a.2).natAbs (xs.length + ys.length + 1) xs ys
  (((a :: pts).zip (pts ++ [b])).filter fun e => decide (e.1.2 ≠ e.2.2)).map fun e => pieceOf e.1 e.2

/-- The pieces of the polyline from a point through vertices. -/
def polyPieces : Pt → List Pt → List Piece
  | _, [] => []
  | a, v :: vs => linePieces a v ++ polyPieces v vs

/-- Clipping to a window (R369): cell column and row, area and cover. -/
def clip (x0 y0 : Int) (w h : Nat) (p : Piece) : Option (Nat × Nat × Int × Int) :=
  let i := p.col - x0
  let j := p.row - y0
  if j < 0 ∨ (h : Int) ≤ j ∨ (w : Int) ≤ i then none
  else if i < 0 then some (0, j.toNat, p.cover, p.cover)
  else some (i.toNat, j.toNat, p.area, p.cover)

/-! ## Resolve (R372, R373, R385) -/

def fillRule (rule : Nat) (a : Int) : Int :=
  if rule = 0 then min (a.natAbs : Int) 65536
  else if rule = 1 then
    let u := a.natAbs % 131072
    if u ≤ 65536 then (u : Int) else 131072 - (u : Int)
  else min (max a (-65536)) 65536

/-- Coverages of a row from its cells' area and cover words, from the left. -/
def resolveRow (rule : Nat) : Nat → List (Nat × Nat) → List Int
  | _, [] => []
  | acc, (area, cover) :: t =>
    fillRule rule (signExt ((acc + area) % 2 ^ 32) 32) :: resolveRow rule ((acc + cover) % 2 ^ 32) t

/-- The stored element: I32, or U8 scaled to 255. -/
def elemOf (u8 : Bool) (v : Int) : Int := if u8 then divRne (v * 255) 65536 else v

/-! ## Records (R361 to R363) -/

/-- KIND, PT and the point of a record that passes RESERVED, KIND and COORD, else the detail. -/
def recordOf (a b : DWord) : Except Nat (Nat × Nat × Pt) :=
  let k := bits a 3 0
  let x := bits a 63 32
  let y := bits b 31 0
  let wide := fun (v : Nat) => decide (v < 2 ^ 23 ∨ 2 ^ 32 - 2 ^ 23 ≤ v)
  if bits a 31 6 ≠ 0 ∨ bits b 63 32 ≠ 0 then .error 2
  else if 4 < k then .error 1
  else if !(wide x && wide y) || decide (k = 4 ∧ (x ≠ 0 ∨ y ≠ 0)) then .error 3
  else .ok (k, bits a 5 4, (signExt x 32, signExt y 32))

/-- What the check of a subpath carries: records so far, the curve in progress with its points, whether CLOSE has
come, and the segments done. -/
structure PathScan where
  n : Nat
  curve : Option (Nat × List Pt)
  closed : Bool
  segs : List (List Pt)
  deriving DecidableEq, Repr

/-- One more record of a subpath after its MOVE, `last` when it ends the path: SEQUENCE, which a segment cut short by the end of the
path is too, and then LONG, after the record's own checks (R363). -/
def PathScan.take (c : PathScan) (last : Bool) (a b : DWord) : Except Nat PathScan :=
  match recordOf a b with
  | .error e => .error e
  | .ok (k, pt, p) =>
    let seq : Except Nat PathScan :=
      match c.curve with
      | some (k0, ps) =>
        if k ≠ k0 ∨ pt ≠ ps.length then .error 4
        else if pt + 1 = k then .ok { c with n := c.n + 1, curve := none, segs := c.segs ++ [ps ++ [p]] }
        else .ok { c with n := c.n + 1, curve := some (k0, ps ++ [p]) }
      | none =>
        if pt ≠ 0 ∨ c.closed ∨ k = 0 then .error 4
        else if k = 4 then .ok { c with n := c.n + 1, closed := true, segs := c.segs ++ [[]] }
        else if k = 1 then .ok { c with n := c.n + 1, segs := c.segs ++ [[p]] }
        else .ok { c with n := c.n + 1, curve := some (k, [p]) }
    match seq with
    | .error e => .error e
    | .ok c1 => if last && c1.curve.isSome then .error 4 else if 65536 < c1.n then .error 5 else .ok c1

end Sys2Proof.Machine
end

