-- ==== Sys2Proof/Machine/Path.lean ====
section
/-! DEFINITION. The path coverage engines (R376 to R390): release start, the commands PCLR, PFILL and PRSV unit by unit,
their completion, the stop of R387, and spawned warps. -/

namespace Sys2Proof.Machine

/-! ## Reads and translations -/

def pceSpace (s : State) (d c : Nat) : Space := cardSpace s c d (140 + d)

/-- Read 64-bit words; a poisoned sector is an ECC with its physical address. -/
def readChecked (s : State) (sp : Space) (va : Nat) : Nat → (Except (Nat × Nat × Nat) (List DWord)) × State
  | 0 => (.ok [], s)
  | n + 1 =>
    match translate s sp va .read with
    | (.ok pa, s0) =>
      match unitSector s0 (sp.unit - 140) sp.pid false (secOf pa) with
      | (false, s1) => (.error (0, 0, va), s1)
      | (true, s1) =>
        if viewPoison s1 sp.requester (secOf pa) then (.error (tECC, 0, 64 * secOf pa), s1)
        else
          match readChecked s1 sp ((va + 8) % 2 ^ 64) n with
          | (.ok l, s2) => (.ok (view64 s1 sp.requester pa :: l), s2)
          | (.error e, s2) => (.error e, s2)
    | (.trap c r, s1) => (.error (c, r, va), s1)
    | (.wait, s1) => (.error (0, 0, va), s1)

/-- A failed read or translation: a trap, or a wait for a first touch. -/
def pceFail (s : State) (d : Nat) (e : Nat × Nat × Nat) (back : PceBack) : State :=
  if e.1 = 0 then s else trapPce (endUnit s d) d { code := e.1, detail := e.2.1, addr := e.2.2 } back

/-- Addresses in each page of a range: its first address, then the starts of its other pages. -/
def rangePages (va n : Nat) : List Nat :=
  va :: ((List.range ((va + n - 1) / 4096 - va / 4096)).map fun i => 4096 * (va / 4096 + i + 1) % 2 ^ 64)

/-- Translate addresses; the first that fails. -/
def checkPages (s : State) (sp : Space) (a : Acc) : List Nat → Option (Nat × Nat × Nat) × State
  | [] => (none, s)
  | va :: t =>
    match translate s sp va a with
    | (.ok _, s1) => checkPages s1 sp a t
    | (.trap c r, s1) => (some (c, r, va), s1)
    | (.wait, s1) => (some (0, 0, va), s1)

/-- Translate addresses to physical ones, all or none. -/
def translateAll (s : State) (sp : Space) (a : Acc) : List Nat → (Except (Nat × Nat × Nat) (List Nat)) × State
  | [] => (.ok [], s)
  | va :: t =>
    match translate s sp va a with
    | (.ok pa, s1) =>
      match translateAll s1 sp a t with
      | (.ok l, s2) => (.ok (pa :: l), s2)
      | (.error e, s2) => (.error e, s2)
    | (.trap c r, s1) => (.error (c, r, va), s1)
    | (.wait, s1) => (.error (0, 0, va), s1)

/-- Whether an engine may work: its card runs it and nothing stops or tears it down. -/
def pceGo (s : State) (p : Pce) : Bool :=
  match p.card with
  | some x => ctxLive s x && !p.stop && (cardSt s x.card).preempt.isNone && !(cardSt s x.card).tear &&
      decide (cardState s x.card = stRunning)
  | none => false

def pceCard (p : Pce) : Nat :=
  match p.card with
  | some x => x.card
  | none => 0

/-- Requests that the engine of a die has issued and that have not been performed. -/
def pceBusy (s : State) (d : Nat) : Bool := s.ms.reqs.any fun (q : Req) => decide (q.agent = .pce d)

/-! ## Release start (R377, R378) -/

def pathHdrOk (h : List DWord) : Bool :=
  let w := dwz h
  decide (bits (w 0) 31 0 = 0x50484452 ∧ bits (w 0) 63 32 = 1 ∧ 1 ≤ (w 1).toNat ∧ (w 1).toNat ≤ 4096) &&
    canonical (w 2).toNat && decide ((w 2).toNat % 64 = 0) && canonical (w 3).toNat && decide ((w 3).toNat % 64 = 0) &&
    decide (bits (w 4) 63 32 = 0 ∧ w 5 = 0 ∧ w 6 = 0 ∧ w 7 = 0)

def shadeOk (h : List DWord) : Bool :=
  let w := dwz h
  hdrValid h 0 && decide (kBX (w 2) = 32 ∧ kBY (w 2) = 1 ∧ kBZ (w 2) = 1 ∧ kTX (w 2) = 1 ∧ kTY (w 2) = 1 ∧ kTZ (w 2) = 1 ∧
    kSpm (w 1) = 0) && !(kPair (w 1))

/-- The release goes on with its program header, shading header and argument snapshot. -/
def pceOpen (s : State) (d : Nat) (p : Pce) (h shade : List DWord) (args : List Word) : State :=
  let c := pceCard p
  match s.ddx.rel.find c with
  | some r =>
    let r1 := { r with hdr := h, shade := shade, args := args, obound := bits (dwz h 4) 31 0 }
    ((endUnit s d).withDdx { s.ddx with rel := s.ddx.rel.set c r1 }).setPce d { p with st := .command, idx := 0 }
  | none => s

/-- PCE_RELEASE_START: both headers are read with acquire and checked. -/
def execPceReleaseStart (s : State) : Host.Outcome State Fault Refusal :=
  let d := s.ev.i
  match s.pces.find d with
  | none => .next s
  | some p =>
    if 2 ≤ d ∨ p.st ≠ .start ∨ !(pceGo s p) then .next s
    else
      let sp := pceSpace s d (pceCard p)
      let va := (cardWord s (pceCard p) 8).toNat
      match readChecked s sp va 8 with
      | (.error e, s1) => .next (pceFail s1 d e .header)
      | (.ok h, s1) =>
        if !(pathHdrOk h) then .next (pceFail s1 d (tPATH, 8, va) .header)
        else if dwz h 3 = 0 then .next (pceOpen s1 d p h [] [])
        else
          match readChecked s1 sp (dwz h 3).toNat 8 with
          | (.error e, s2) => .next (pceFail s2 d e .header)
          | (.ok k, s2) =>
            if !(shadeOk k) then .next (pceFail s2 d (tPATH, 8, (dwz h 3).toNat) .header)
            else
              match loadWords32 s2 sp (cardWord s2 (pceCard p) 10).toNat (kNarg (dwz k 1)) with
              | (.error e, s3) => .next (pceFail s3 d e .header)
              | (.ok args, s3) => .next (pceOpen s3 d p h k args)

/-! ## Surfaces and commands (R379 to R381) -/

def cOp (r : Rec64) : Nat := bits r.w0 3 0
def cSpawn (r : Rec64) : Bool := bit r.w0 4
def cNrec (r : Rec64) : Nat := bits r.w3 23 0

/-- The record checks of R381, detail 7 COMMAND. -/
def cmdOk (r : Rec64) : Bool :=
  decide (1 ≤ cOp r ∧ cOp r ≤ 3 ∧ bits r.w0 31 5 = 0 ∧ r.w1.toNat % 64 = 0 ∧ bits r.w3 63 24 = 0 ∧ r.w4 = 0 ∧ r.w5 = 0 ∧
    r.w6 = 0 ∧ r.w7 = 0) &&
    (if cOp r = 2 then decide (r.w2.toNat % 16 = 0 ∧ cNrec r ≠ 0) else decide (r.w2 = 0 ∧ r.w3 = 0) && !(cSpawn r))

def sfRstride (f : List DWord) : Nat := bits (dwz f 1) 47 0
def sfX0 (f : List DWord) : Int := signExt (bits (dwz f 2) 31 0) 32
def sfY0 (f : List DWord) : Int := signExt (bits (dwz f 2) 63 32) 32
def sfW (f : List DWord) : Nat := bits (dwz f 3) 15 0
def sfH (f : List DWord) : Nat := bits (dwz f 3) 31 16
def sfOstride (f : List DWord) : Nat := bits (dwz f 5) 47 0
def sfRule (f : List DWord) : Nat := bits (dwz f 6) 1 0
def sfU8 (f : List DWord) : Bool := bit (dwz f 6) 2
def sfClr (f : List DWord) : Bool := bit (dwz f 6) 3
def sfElem (f : List DWord) : Nat := if sfU8 f then 1 else 4

/-- A valid descriptor (R380), for PRSV with its further conditions. -/
def surfOk (f : List DWord) (prsv : Bool) : Bool :=
  let b := (dwz f 0).toNat
  let o := (dwz f 4).toNat
  canonical b && decide (b % 8 = 0 ∧ sfRstride f % 8 = 0 ∧ 8 * sfW f ≤ sfRstride f) &&
    decide (-32768 ≤ sfX0 f ∧ sfX0 f ≤ 32767 ∧ -32768 ≤ sfY0 f ∧ sfY0 f ≤ 32767 ∧ sfX0 f + (sfW f : Int) ≤ 32768 ∧
      sfY0 f + (sfH f : Int) ≤ 32768) &&
    decide (1 ≤ sfW f ∧ sfW f ≤ 4096 ∧ 1 ≤ sfH f ∧ sfH f ≤ 4096 ∧ sfRule f ≠ 3) &&
    decide (bits (dwz f 1) 63 48 = 0 ∧ bits (dwz f 3) 63 32 = 0 ∧ bits (dwz f 5) 63 48 = 0 ∧ bits (dwz f 6) 63 4 = 0 ∧ dwz f 7 = 0) &&
    (!prsv || (canonical o && decide (o % sfElem f = 0 ∧ sfOstride f % sfElem f = 0 ∧ sfElem f * sfW f ≤ sfOstride f) &&
      !(sfU8 f && decide (sfRule f = 2))))

/-- The conditions of a PFILL with SPAWN = 1 (R384). -/
def spawnOk (f : List DWord) (shade : List DWord) : Bool :=
  decide (shade ≠ [] ∧ sfX0 f % 2 = 0 ∧ sfY0 f % 2 = 0 ∧ sfW f % 2 = 0 ∧ sfH f % 2 = 0 ∧ sfW f * sfH f ≤ 16384)

/-- Virtual address of a cell, and of an output element. -/
def cellVa (f : List DWord) (i j : Nat) : Nat := ((dwz f 0).toNat + j * sfRstride f + 8 * i) % 2 ^ 64
def outVa (f : List DWord) (i j : Nat) : Nat := ((dwz f 4).toNat + j * sfOstride f + sfElem f * i) % 2 ^ 64

/-- Access of the cells by a command (R73, R383 to R385). -/
def cellAcc (op : Nat) (f : List DWord) : Acc := if op = 3 then (if sfClr f then .rw else .read) else .write

/-- Step 2 of R382: every page of the footprint, of PFILL's records and of PRSV's output. -/
def cmdPages (s : State) (sp : Space) (r : Rec64) (f : List DWord) : Option (Nat × Nat × Nat) × State :=
  let rows := List.range (sfH f)
  let x := checkPages s sp (cellAcc (cOp r) f) (rows.flatMap fun j => rangePages (cellVa f 0 j) (8 * sfW f))
  match x.1 with
  | some e => (some e, x.2)
  | none =>
    if cOp r = 2 then checkPages x.2 sp .read (rangePages r.w2.toNat (16 * cNrec r))
    else if cOp r = 3 then checkPages x.2 sp .write (rows.flatMap fun j => rangePages (outVa f 0 j) (sfElem f * sfW f))
    else (none, x.2)

/-- The start of a command (R382): record, descriptor and translations checked before any access. -/
def pceBegin (s : State) (d : Nat) (p : Pce) (r : Rec64) : State :=
  let s0 := s.setPce d { p with cmd := some r, surf := [] }
  let sp := pceSpace s d (pceCard p)
  let va := r.w1.toNat
  if !(cmdOk r) then pceFail s0 d (tPATH, 7, 0) .command
  else
    match readChecked s0 sp va 8 with
    | (.error e, s1) => pceFail s1 d e .command
    | (.ok f, s1) =>
      let shade := match s.ddx.rel.find (pceCard p) with
        | some rl => rl.shade
        | none => []
      if !(surfOk f (decide (cOp r = 3))) then pceFail s1 d (tPATH, 6, va) .command
      else if cSpawn r && !(spawnOk f shade) then pceFail s1 d (tPATH, 9, 0) .command
      else
        match cmdPages s1 sp r f with
        | (some e, s2) => pceFail s2 d e .command
        | (none, s2) =>
          (endUnit s2 d).setPce d { p with
            st := .running, cmd := some r, surf := f, pos := 0, cur := (0, 0), startPt := (0, 0), open_ := false
            segs := [], move := 0, priv := [], gathered := false, spawns := [], ecc := none }

/-- A turn of an engine with a command: its start, or one more unit of it. -/
def runPce (s : State) (r : Rec64) (step : State → Nat → Pce → State) : Host.Outcome State Fault Refusal :=
  match s.focus with
  | .pce d =>
    match s.pces.find d with
    | some p =>
      if !(pceGo s p) then .next s
      else if p.st = .command then .next (pceBegin s d p r)
      else if p.st = .running then .next (step s d p)
      else .next s
    | none => .next s
  | _ => .next s

/-- Engine writes of bytes grouped by sector; `bad` names the addresses whose sector is to be marked. -/
def pceWrites (s : State) (d : Nat) (p : Pce) (bs : List (Nat × Byte)) (bad : Nat → Bool) : State :=
  let secs := bs.foldl (fun (a : List Nat) b => insertNat (secOf b.1) a) []
  secs.foldl (fun (a : State) sec =>
    let here := bs.filter fun b => decide (secOf b.1 = sec)
    issueEngine a (.pce d) (69 + d) (cardPid a (pceCard p)) p.card d (200 + d) sec here (here.any fun b => bad b.1) none) s

/-! ## PCLR (R383) -/

/-- One cell of a PCLR. -/
def pclrCell (s : State) (d : Nat) (p : Pce) : State :=
  let w := sfW p.surf
  match translateAll s (pceSpace s d (pceCard p)) .write [cellVa p.surf (p.pos % w) (p.pos / w)] with
  | (.ok [pa], s1) =>
    let s2 := pceWrites s1 d p (bytesAt pa (leBytes 8 0)) fun _ => false
    s2.setPce d { p with pos := p.pos + 1, st := if p.pos + 1 < w * sfH p.surf then .running else .wait }
  | (.ok _, s1) => s1
  | (.error e, s1) => pceFail s1 d e .here

def execPclr (r : Rec64) (s : State) : Host.Outcome State Fault Refusal := runPce s r pclrCell

/-! ## PFILL (R384) -/

def recVa (p : Pce) (i : Nat) : Nat :=
  match p.cmd with
  | some r => (r.w2.toNat + 16 * i) % 2 ^ 64
  | none => 0

/-- Check the records of a subpath after its MOVE; the segments and the record that follows. -/
def scanPath (s : State) (sp : Space) (p : Pce) : Nat → Nat → PathScan → (Except (Nat × Nat × Nat) (PathScan × Nat)) × State
  | 0, i, c => (.ok (c, i), s)
  | n + 1, i, c =>
    match readChecked s sp (recVa p i) 2 with
    | (.error e, s1) => (.error e, s1)
    | (.ok w, s1) =>
      if c.curve.isNone ∧ bits (dwz w 0) 3 0 = 0 then (.ok (c, i), s1)
      else
        match c.take (decide (n = 0)) (dwz w 0) (dwz w 1) with
        | .error k => (.error (tPATH, k, recVa p i), s1)
        | .ok c1 => scanPath s1 sp p n (i + 1) c1

/-- The MOVE and the whole of a subpath, checked before any update (R363). -/
def beginSubpath (s : State) (d : Nat) (p : Pce) (n : Nat) : State :=
  let sp := pceSpace s d (pceCard p)
  let p1 := { p with move := p.pos }
  let s0 := s.setPce d p1
  match readChecked s0 sp (recVa p p.pos) 2 with
  | (.error e, s1) => pceFail s1 d e .move
  | (.ok w, s1) =>
    match recordOf (dwz w 0) (dwz w 1) with
    | .error k => pceFail s1 d (tPATH, k, recVa p p.pos) .move
    | .ok (k, pt, q) =>
      if k ≠ 0 ∨ pt ≠ 0 then pceFail s1 d (tPATH, 4, recVa p p.pos) .move
      else
        match scanPath s1 sp p (n - p.pos - 1) (p.pos + 1) { n := 1, curve := none, closed := false, segs := [] } with
        | (.error e, s2) => pceFail s2 d e .move
        | (.ok (c, i), s2) => (endUnit s2 d).setPce d { p1 with pos := i, cur := q, startPt := q, open_ := true, segs := c.segs }

/-- Reductions of the pieces given, already clipped to cells: area, then cover (R370). -/
def pfillAdds (s : State) (d : Nat) (p : Pce) : List ((Nat × Nat × Int × Int) × Nat) → State
  | [] => s
  | (e, pa) :: t =>
    let red := fun (a : State) (at_ : Nat) (v : Int) =>
      issueReq a (.pce d) (69 + d) (cardPid a (pceCard p)) p.card d (200 + d)
        (.red .add false 4 at_ (BitVec.ofNat 64 (narrow v 32))) (secOf at_) 0 none
    pfillAdds (red (red s pa e.2.2.1) (pa + 4) e.2.2.2) d p t

/-- The private buffer with the pieces added (R384). -/
def addPriv (w : Nat) (t : Tbl (Int × Int)) (l : List (Nat × Nat × Int × Int)) : Tbl (Int × Int) :=
  l.foldl (fun (a : Tbl (Int × Int)) e =>
    let k := e.2.1 * w + e.1
    let v := Tbl.get (0, 0) a k
    a.set k (v.1 + e.2.2.1, v.2 + e.2.2.2)) t

/-- Add the polyline from the current point through vertices, and go on with the engine given. -/
def pfillLines (s : State) (d : Nat) (p : Pce) (vs : List Pt) (after : Pce) : State :=
  let f := p.surf
  let l := (polyPieces p.cur vs).filterMap (clip (sfX0 f) (sfY0 f) (sfW f) (sfH f))
  match translateAll s (pceSpace s d (pceCard p)) .write (l.map fun e => cellVa f e.1 e.2.1) with
  | (.error e, s1) => pceFail s1 d e .here
  | (.ok pas, s1) =>
    let spawn := match p.cmd with
      | some r => cSpawn r
      | none => false
    (pfillAdds s1 d p (l.zip pas)).setPce d { after with priv := if spawn then addPriv (sfW f) p.priv l else p.priv }

/-- One unit of a PFILL: the check of a subpath, a segment, or the closing line. -/
def pfillUnit (s : State) (d : Nat) (p : Pce) : State :=
  match p.cmd with
  | none => s
  | some r =>
    if p.open_ then
      match p.segs with
      | [] => pfillLines s d p [p.startPt] { p with open_ := false, cur := p.startPt }
      | g :: t =>
        let vs := flatten p.cur p.startPt g
        pfillLines s d p vs { p with segs := t, cur := vs.getLast?.getD p.cur }
    else if p.pos < cNrec r then beginSubpath s d p (cNrec r)
    else s.setPce d { p with st := if cSpawn r then .spawn else .wait }

def execPfill (r : Rec64) (s : State) : Host.Outcome State Fault Refusal := runPce s r pfillUnit

/-! ## PRSV (R385) -/

/-- The elements of a row in order, with what is known to be poisoned from the first poisoned cell on. -/
def badFrom (bad : Bool) : List Bool → List Bool
  | [] => []
  | b :: t => (bad || b) :: badFrom (bad || b) t

/-- One row of a PRSV. -/
def prsvRow (s : State) (d : Nat) (p : Pce) : State :=
  let f := p.surf
  let j := p.pos
  let sp := pceSpace s d (pceCard p)
  let cols := List.range (sfW f)
  match translateAll s sp (cellAcc 3 f) (cols.map fun i => cellVa f i j) with
  | (.error e, s1) => pceFail s1 d e .here
  | (.ok pas, s1) =>
    match translateAll s1 sp .write (cols.map fun i => outVa f i j) with
    | (.error e, s2) => pceFail s2 d e .here
    | (.ok outs, s0) =>
      match cellSectors s0 d sp.pid (pas.map secOf) with
      | (false, s1) => s1
      | (true, s1) =>
      match if sfClr f then rewriteSectors s1 (69 + d) sp.pid (pas.foldl (fun (a : List Nat) x => insertNat (secOf x) a) []) else (true, s1) with
      | (false, s2) => s2
      | (true, s2) =>
      let vs := (resolveRow (sfRule f) 0 (pas.map fun pa => ((mem32 s2 pa).toNat, (mem32 s2 (pa + 4)).toNat))).map (elemOf (sfU8 f))
      let poi := pas.map fun pa => poisoned s2 (secOf pa)
      let bad := (outs.zip (badFrom false poi)).filterMap fun e => if e.2 then some e.1 else none
      let first := ((pas.zip poi).find? fun e => e.2).map (·.1)
      let n := sfElem f
      let bs := (outs.zip vs).flatMap fun e => bytesAt e.1 (leBytes n (narrow e.2 (8 * n)))
      let s3 := if sfClr f then pas.foldl (fun (a : State) pa =>
          let x := homeWrite64 a (69 + d) sp.pid pa 0
          raiseCh x.1 (.pce d) x.2) s2 else s2
      let s4 := pceWrites (endUnit s3 d) d p bs fun a => bad.any fun b => decide (b ≤ a ∧ a < b + n)
      match s4.pces.find d with
      | some q =>
        s4.setPce d { q with pos := j + 1, ecc := if q.ecc.isSome then q.ecc else first,
                             st := if j + 1 < sfH f then .running else .wait }
      | none => s4

def execPrsv (r : Rec64) (s : State) : Host.Outcome State Fault Refusal := runPce s r prsvRow

/-! ## Completion (R382) -/

/-- The engine goes on with the next command, or its list is at an end. -/
def pceAdvance (s : State) (d : Nat) (p : Pce) : State :=
  let c := pceCard p
  let n := match s.ddx.rel.find c with
    | some r => (dwz r.hdr 1).toNat
    | none => 0
  let p1 := { p with idx := p.idx + 1, cmd := none, surf := [], segs := [], open_ := false, ecc := none, spawns := [], priv := [] }
  if p.idx + 1 < n then s.setPce d { p1 with st := .command }
  else cardHorizon (s.setPce d { p1 with st := .drain }) c p.ch

/-- PCE_COMMAND_COMPLETE: every write and reduction of the command has been performed; a PRSV that met a poisoned cell
then raises ECC. -/
def execPceCommandComplete (s : State) : Host.Outcome State Fault Refusal :=
  let d := s.ev.i
  match s.pces.find d with
  | some p =>
    if d < 2 ∧ p.st = .wait ∧ pceGo s p ∧ !(pceBusy s d) then
      match p.ecc with
      | some a => .next (trapPce s d { code := tECC, detail := 0, addr := a } .next)
      | none => .next (pceAdvance s d p)
    else .next s
  | none => .next s

/-- PCE_STOP (R387): a card that is being stopped; its engine stands at a stopping point and its writes are performed. -/
def execPceStop (s : State) : Host.Outcome State Fault Refusal :=
  let d := s.ev.i
  match s.pces.find d with
  | some p =>
    if d < 2 ∧ !p.stop ∧ (cardSt s (pceCard p)).preempt.isSome ∧ !(pceBusy s d) then .next ((endUnit s d).setPce d { p with stop := true })
    else .next s
  | none => .next s

/-! ## Spawning (R388 to R390) -/

/-- Warps of eight quads. -/
def gatherWarps (prim : Nat) (cov : Int × Int → Int) : Nat → List (Int × Int) → List Spawn
  | 0, _ => []
  | _ + 1, [] => []
  | n + 1, q :: t =>
    let here := (q :: t).take 8
    let px := (List.range 32).map fun l =>
      match here[l / 4]? with
      | some (x, y) =>
        let x' := x + ((l % 2 : Nat) : Int)
        let y' := y + ((l / 2 % 2 : Nat) : Int)
        some (x', y', cov (x', y'))
      | none => none
    { prim := prim, quads := here, px := px } :: gatherWarps prim cov n ((q :: t).drop 8)

/-- The warps of a PFILL with SPAWN = 1, from the private buffer. -/
def pceGather (p : Pce) : List Spawn :=
  let f := p.surf
  let w := sfW f
  let rows := (List.range (sfH f)).map fun j => resolveRow (sfRule f) 0 ((List.range w).map fun i =>
    let v := Tbl.get (0, 0) p.priv (j * w + i)
    (narrow v.1 32, narrow v.2 32))
  let cov := fun (q : Int × Int) => (rows.getD (q.2 - sfY0 f).toNat []).getD (q.1 - sfX0 f).toNat 0
  let quads := (List.range (sfH f / 2)).flatMap fun j => (List.range (w / 2)).map fun i =>
    (sfX0 f + ((2 * i : Nat) : Int), sfY0 f + ((2 * j : Nat) : Int))
  let on := quads.filter fun q => decide (cov q ≠ 0 ∨ cov (q.1 + 1, q.2) ≠ 0 ∨ cov (q.1, q.2 + 1) ≠ 0 ∨ cov (q.1 + 1, q.2 + 1) ≠ 0)
  gatherWarps p.idx cov on.length on

/-- PCE_SPAWN: the buffer is resolved, then the warps go to the launch queue one by one, after a release at device
scope, while the queue has room. -/
def execPceSpawn (s : State) : Host.Outcome State Fault Refusal :=
  let d := s.ev.i
  match s.pces.find d with
  | none => .next s
  | some p =>
    if 2 ≤ d ∨ p.st ≠ .spawn ∨ !(pceGo s p) ∨ pceBusy s d ∨ s.now d < p.ch then .next s
    else
      let p1 := if p.gathered then p else { p with gathered := true, spawns := pceGather p }
      match p1.spawns with
      | [] => .next (s.setPce d { p1 with st := .wait })
      | w :: t =>
        if !(queueRoom s d) then .next (s.setPce d p1)
        else
          let c := pceCard p
          let entry := match s.ddx.rel.find c with
            | some r => (dwz r.work 3).toNat
            | none => 0
          let q : QWarp := { card := c, gen := cardGen s c, entry := entry, recs := [], spawn := some w, order := 0 }
          .next ((setQueue s d (queueOf s d ++ [q])).setPce d { p1 with spawns := t })

/-- The start values of a spawned warp (R389). -/
def spawnRegs (x : Spawn) (w : Warp) : Warp :=
  let set4 := fun (a : Warp) (l : Nat) =>
    match x.px.getD l none with
    | some (px, py, v) =>
      (((a.vSet 0 l (BitVec.ofInt 32 px)).vSet 1 l (BitVec.ofInt 32 py)).vSet 2 l (BitVec.ofInt 32 v)).vSet 3 l (BitVec.ofNat 32 x.prim)
    | none => a
  let w1 := (List.range 32).foldl set4 w
  { w1 with spawn := some x, helper := maskOf fun l => match x.px.getD l none with
    | some (_, _, v) => decide (v = 0)
    | none => false }

/-- SPAWNED_WARP_PLACE: the oldest spawned warp of a card, once no saved warp of the card waits, on a core with room. -/
def execSpawnedWarpPlace (s : State) : Host.Outcome State Fault Refusal :=
  let d := s.ev.i
  let core := s.ev.j
  let first := fun (q : QWarp) => ((queueOf s d).find? fun (x : QWarp) => x.spawn.isSome && decide (x.card = q.card)) = some q
  let free := fun (q : QWarp) => !(s.warps.any fun e => decide (e.2.card = q.card) && e.2.place.isNone)
  match (queueOf s d).find? fun (q : QWarp) =>
      q.spawn.isSome && decide (first q) && free q && soloFits s (relHeader s q.card) q.card core d with
  | none => .next s
  | some q =>
    match q.spawn, s.ddx.rel.find q.card with
    | some x, some r =>
      let n := nextSeq (setQueue s d ((queueOf s d).filter fun y => decide (y ≠ q))) q.card
      let vac := maskOf fun l => (x.px.getD l none).isNone
      .next (makeSolo n.2 q.card r.work r.args .spawn core s.ev.opt (fun w => { spawnRegs x w with seq := n.1 }) q.entry vac d)
    | _, _ => .next s

end Sys2Proof.Machine
end

