-- ==== Sys2Proof/Machine/Qp.lean ====
section
/-! DEFINITION. The queue processors (R134 to R147) and their adoption (R158 to R161): dequeues into the shadow, the
packets, halts, and the resumption of a queue from its shadow. -/

namespace Sys2Proof.Machine

/-! ## Threads -/

def qCfg (s : State) (d th : Nat) : DWord := s.reg (Reg.mqCfg (thDie d th) (th % 32))
def qPid (s : State) (d th : Nat) : Nat := bits (qCfg s d th) 51 48
def qCb (s : State) (d th : Nat) : Nat := 64 * bits (qCfg s d th) 43 6
def qSpace (s : State) (d th : Nat) : Space :=
  spaceOf (s.reg (Reg.mqSatp (thDie d th) (th % 32))) d (100 + d) (qPid s d th)

def qpAdopting (s : State) (d : Nat) : Bool := s.regBit (Reg.qpStatus d) 1
def qpOut (s : State) (d : Nat) : Bool := s.regBit (Reg.qpStatus d) 2

/-- Die d's control engines have left reset: in minimal mode those of MINQ's die only (R417). -/
def ctlUp (s : State) (d : Nat) : Bool := !s.gov.minimal || decide (s.regF Reg.govMode 7 6 / 2 = d)

/-- Die d's queue processor has left reset: in minimal mode only that of MINQ's die, and only with its firmware placed (R417). -/
def qpUp (s : State) (d : Nat) : Bool := !s.gov.minimal || (!s.gov.qpHeld && ctlUp s d)

/-- Whether a thread may take a step: its processor is enabled and serves its queue. -/
def qpRuns (s : State) (d th : Nat) : Bool :=
  decide (d < 2 ∧ th < 64) && s.regBit (Reg.qpCtl d) 0 && !s.gov.holdReset && (s.gov.qpRestart.find d).isNone &&
    qpUp s d && (if th < 32 then !(qpOut s d) else qpAdopting s d)

/-- Packet k of a shadow. -/
def shadowPkt (s : State) (d th k : Nat) : Rec64 :=
  let a := shadowPa s d th + 64 + 64 * k
  { w0 := mem64 s a, w1 := mem64 s (a + 8), w2 := mem64 s (a + 16), w3 := mem64 s (a + 24), w4 := mem64 s (a + 32),
    w5 := mem64 s (a + 40), w6 := mem64 s (a + 48), w7 := mem64 s (a + 56) }

/-- Sequence number of the packet being performed: that of its dequeue. -/
def Thread.pktSeq (t : Thread) : Nat := (t.seq + 2 ^ 32 + t.idx + 1 - t.have_) % 2 ^ 32

/-- A release at device or system scope has completed (R95). -/
def qpReleased (s : State) (d : Nat) : Bool := decide (Tbl.get 0 s.qpch d ≤ s.now d)

/-- The STAGE that a thread owes its shadow is written there with release, once the processor's horizon is reached and the shadow's home
and its sluice take the write (R97, R158, R174). -/
def flushStage (s : State) (d th : Nat) : State :=
  match (thread s d th).owes with
  | none => s
  | some (stage, pos) =>
    if !(qpReleased s d) then s
    else
      match writeSector s (71 + d) (qPid s d th) (secOf (shadowPa s d th)) false with
      | (false, s1) => s1
      | (true, s1) =>
        let x := homeWrite s1 (71 + d) (qPid s1 d th) (shadowPa s1 d th) (leBytes 8 (thread s1 d th).seq ++ leBytes 8 (stage + 8 * pos))
        raiseCh (setThread x.1 d th { thread x.1 d th with owes := none }) (.qp d) x.2

/-- A thread's STAGE changes: the shadow receives it with release (R158). -/
def qpStage (s : State) (d th stage pos : Nat) : State :=
  flushStage (setThread s d th { thread s d th with owes := some (stage, pos) }) d th

/-- A thread that owes its shadow nothing goes on. -/
def qpOwesNot (s : State) (d th : Nat) : Bool × State :=
  let s1 := flushStage s d th
  ((thread s1 d th).owes.isNone, s1)

/-- The reads of some packets of the shadow, at its home: each sector once for the packet under way (R174). -/
def qpReads (s : State) (d th : Nat) : List Nat → Bool × State
  | [] => (true, s)
  | k :: l =>
    let sec := secOf (shadowPa s d th + 64 + 64 * k)
    if (thread s d th).seen.contains sec then qpReads s d th l
    else
      match homeRead s (71 + d) (qPid s d th) sec with
      | (true, s1) => qpReads (setThread s1 d th { thread s1 d th with seen := sec :: (thread s1 d th).seen }) d th l
      | x => x

/-- Halt with an error (R138, R147): vector 2 of the PID's cluster (R404). -/
def qpHalt (s : State) (d th n : Nat) (p : Rec64) : State :=
  let t := thread s d th
  let s1 := setThread s d th { t with st := .halted, blk := none, err := n, tag := bits p.w0 63 32, issued := false, ans := none, prep := none }
  raiseVec (qpStage s1 d th 4 t.idx) (pidCluster s1 (qPid s d th)) 2

/-- A thread that leaves its packets: FETCH, with nothing in the shadow. -/
def Thread.fresh (t : Thread) : Thread :=
  { t with st := .fetch, blk := none, idx := 0, armLeft := 0, have_ := 0, gather := 0, asked := false, issued := false, ans := none, prep := none
           owes := none, seen := [] }

/-- The packet has completed: the next of its arm, or FETCH. -/
def qpDone (s : State) (d th : Nat) : State :=
  let t := thread s d th
  if t.armLeft = 0 then qpStage (setThread s d th t.fresh) d th 0 0
  else
    let s1 := setThread s d th
      { t with st := .exec, blk := none, idx := t.idx + 1, armLeft := t.armLeft - 1, issued := false, ans := none, prep := none, seen := [] }
    qpStage s1 d th 1 (t.idx + 1)

/-- Block on something; STAGE BLOCKED unless an effect has been sent. -/
def qpBlock (s : State) (d th : Nat) (b : Blocked) : State :=
  let t := thread s d th
  let s1 := setThread s d th { t with st := .blocked, blk := some b }
  if t.issued then s1 else qpStage s1 d th 3 t.idx

/-- Send an effect: STAGE ISSUED first, with release; the effect once that has completed. -/
def qpIssue (s : State) (d th : Nat) (act : State → State) : State :=
  let t := thread s d th
  let s1 := if t.issued then s else qpStage (setThread s d th { t with issued := true }) d th 2 t.idx
  if (thread s1 d th).owes.isNone && qpReleased s1 d then act s1 else s1

/-- A packet's turn at the thread that performs it: its shadow has what it is owed, and the packet is read. -/
def runQp (s : State) (act : State → Nat → Nat → Thread → State) : Host.Outcome State Fault Refusal :=
  match s.focus with
  | .qp d th =>
    let t := thread s d th
    if qpRuns s d th ∧ t.st = .exec then
      match qpOwesNot s d th with
      | (false, s1) => .next s1
      | (true, s1) =>
        match qpReads s1 d th [t.idx] with
        | (false, s2) => .next s2
        | (true, s2) => .next (act s2 d th (thread s2 d th))
    else .next s
  | _ => .next s

/-! ## NOP (R139) -/

def nopFields (p : Rec64) : Bool :=
  decide (bits p.w0 31 8 = 0 ∧ p.w1 = 0 ∧ p.w2 = 0 ∧ p.w3 = 0 ∧ p.w4 = 0 ∧ p.w5 = 0 ∧ p.w6 = 0 ∧ p.w7 = 0)

def execPktNop (p : Rec64) (s : State) : Host.Outcome State Fault Refusal :=
  runQp s fun s d th _ => if nopFields p then qpDone s d th else qpHalt s d th eBADPKT p

/-! ## LAUNCH (R140, R141) -/

/-- What an accepted LAUNCH or TRIGGER of a queue started: card and generation, or 1024 + graph and run. -/
def acceptedAs (s : State) (d th : Nat) : Option (Nat × Nat) :=
  let t := thread s d th
  (s.ddx.ids.find? fun e => decide (e.1 = thDie d th ∧ e.2.1 = th % 32 ∧ e.2.2.1 = t.pktSeq)).map fun e => e.2.2.2

/-- After the DDX's answer: the error, or completion, or the wait for the work's end. -/
def launchAnswered (s : State) (d th : Nat) (p : Rec64) (a : LAns) : State :=
  if a.status ≠ 0 then qpHalt s d th a.status p
  else if bit p.w0 8 then qpDone s d th
  else
    match acceptedAs s d th with
    | some (c, g) => qpBlock (setThread s d th { thread s d th with ans := none }) d th (.work c g)
    | none => qpDone s d th

/-- A prepared release waits for its card, and goes to the DDX. -/
def launchSend (s : State) (d th : Nat) (p : Rec64) (r : Release) : State :=
  if (acceptedAs s d th).isNone && !(cardFree s (lCard p)) then qpBlock s d th .card
  else
    qpIssue s d th fun s1 =>
      let i := s1.fresh
      let s2 := i.2.withDdx { i.2.ddx with asks := i.2.ddx.asks ++
        [{ id := i.1, src := r.launcher, card := lCard p, pkt := p, rel := some r }] }
      qpBlock s2 d th .ask

/-- The checks and the reads of R140, made once for each execution of the packet. -/
def launchStart (s : State) (d th : Nat) (p : Rec64) : State :=
  let t := thread s d th
  match t.prep with
  | some r => launchSend s d th p r
  | none =>
    if !(launchFields p) then qpHalt s d th eBADPKT p
    else if !(launchCardOk s p (qPid s d th)) then qpHalt s d th eCARD p
    else
      match launchPrep s p d (100 + d) (.queue (thDie d th) (th % 32) t.pktSeq th) with
      | (.wait, s1) => s1
      | (.err n, s1) => qpHalt s1 d th n p
      | (.ok r, s1) => launchSend (setThread s1 d th { thread s1 d th with prep := some r }) d th p r

def execLaunch (p : Rec64) (s : State) : Host.Outcome State Fault Refusal :=
  runQp s fun s d th t =>
    match t.blk, t.ans with
    | some (.work _ _), _ => qpDone s d th
    | some .ask, some a => launchAnswered s d th p a
    | _, _ => launchStart s d th p

/-! ## WAIT and PRED (R143 to R145) -/

def wCmp (p : Rec64) : Nat := bits p.w0 10 8

def testFields (p : Rec64) : Bool :=
  decide (wCmp p ≤ 5 ∧ bits p.w0 15 12 = 0 ∧ p.w5 = 0 ∧ p.w6 = 0 ∧ p.w7 = 0 ∧ p.w1.toNat % 8 = 0) && canonical p.w1.toNat

def waitFields (p : Rec64) : Bool := testFields p && decide (bits p.w0 31 16 = 0 ∧ (p.w1 ≠ 0 ∨ p.w4 ≠ 0))

def predFields (p : Rec64) : Bool :=
  testFields p && decide (bits p.w0 11 11 = 0 ∧ p.w4 = 0 ∧ bits p.w0 23 16 + bits p.w0 31 24 + 1 ≤ 16)

/-- The comparison of a loaded word. -/
def testWord (p : Rec64) (x : DWord) : Bool :=
  let a := x &&& p.w2
  let v := p.w3
  let sg := fun (y : DWord) => signExt y.toNat 64
  match wCmp p with
  | 0 => decide (a = v)
  | 1 => decide (a ≠ v)
  | 2 => decide (v.toNat ≤ a.toNat)
  | 3 => decide (a.toNat < v.toNat)
  | 4 => decide (sg v ≤ sg a)
  | _ => decide (sg a < sg v)

/-- Test(): its outcome, a fault, or a wait; and the sector read, which is read at its home: an evaluation after a store sees it (R144). -/
inductive Tested
  | val (b : Bool) (sec : Nat)
  | fault
  | wait

def runTest (s : State) (d th : Nat) (p : Rec64) : Tested × State :=
  match translate s (qSpace s d th) p.w1.toNat .read with
  | (.ok pa, s1) =>
    match homeRead s1 (71 + d) (qPid s1 d th) (secOf pa) with
    | (true, s2) => (.val (testWord p (mem64 s2 pa)) (secOf pa), s2)
    | (false, s2) => (.wait, s2)
  | (.trap _ _, s1) => (.fault, s1)
  | (.wait, s1) => (.wait, s1)

/-- An evaluation of a WAIT with an address; `next` is the time of the next 1 us evaluation. -/
def waitEval (s : State) (d th : Nat) (p : Rec64) (next : Nat) : State :=
  match runTest s d th p with
  | (.fault, s1) => qpHalt s1 d th eFAULT p
  | (.wait, s1) => s1
  | (.val true _, s1) => qpDone s1 d th
  | (.val false sec, s1) => qpBlock s1 d th (.cond next sec false)

/-- TIMEOUT has been reached. -/
def waitOverdue (s : State) (d : Nat) (p : Rec64) : Bool := decide (p.w4 ≠ 0 ∧ p.w4.toNat ≤ s.now d)

def waitTimesOut (s : State) (d th : Nat) (p : Rec64) : State :=
  if p.w1 ≠ 0 ∧ bit p.w0 11 then qpHalt s d th eTIMEOUT p else qpDone s d th

def execWait (p : Rec64) (s : State) : Host.Outcome State Fault Refusal :=
  runQp s fun s d th _ =>
    if !(waitFields p) then qpHalt s d th eBADPKT p
    else if p.w1 = 0 then
      (if waitOverdue s d p then waitTimesOut s d th p else qpBlock s d th (.cond 0 0 false))
    else
      let s1 := waitEval s d th p (s.now d + 1000)
      if (thread s1 d th).st = .blocked ∧ waitOverdue s1 d p then waitTimesOut s1 d th p else s1

/-- A blocked WAIT's evaluation by an event. -/
def runBlockedWait (s : State) (due : Nat → Bool → Rec64 → Bool) (act : State → Nat → Nat → Rec64 → Nat → State) :
    Host.Outcome State Fault Refusal :=
  let d := s.ev.i
  let th := s.ev.j
  let t := thread s d th
  match t.blk with
  | some (.cond next _ noted) =>
    let p := shadowPkt s d th t.idx
    if qpRuns s d th ∧ t.st = .blocked ∧ due next noted p then
      match qpOwesNot s d th with
      | (true, s1) => .next (act s1 d th p next)
      | (false, s1) => .next s1
    else .next s
  | _ => .next s

/-- WAIT_NOTIFY: a notification of the sector has arrived. -/
def execWaitNotify (s : State) : Host.Outcome State Fault Refusal :=
  runBlockedWait s (fun _ noted p => noted && decide (p.w1 ≠ 0)) fun s d th p next => waitEval s d th p next

/-- WAIT_POLL: the evaluation of every 1 us. -/
def execWaitPoll (s : State) : Host.Outcome State Fault Refusal :=
  runBlockedWait s (fun next _ p => decide (p.w1 ≠ 0 ∧ next ≤ s.now s.ev.i)) fun s d th p next => waitEval s d th p (next + 1000)

def execWaitTimeout (s : State) : Host.Outcome State Fault Refusal :=
  runBlockedWait s (fun _ _ p => waitOverdue s s.ev.i p) fun s d th p _ => waitTimesOut s d th p

/-! ## TRIGGER (R146) -/

def tNp (p : Rec64) : Nat := bits p.w2 8 0

def trigFields (p : Rec64) : Bool :=
  decide (bits p.w0 15 9 = 0 ∧ bits p.w0 31 22 = 0 ∧ p.w1.toNat % 16 = 0 ∧ tNp p ≤ 256 ∧ bits p.w2 63 9 = 0 ∧
    p.w1.toNat % 4096 + 16 * tNp p ≤ 4096 ∧ p.w3 = 0 ∧ p.w4 = 0 ∧ p.w5 = 0 ∧ p.w6 = 0 ∧ p.w7 = 0) && canonical p.w1.toNat

/-- An accepted trigger: completed, or the wait for the run's end. -/
def trigAccepted (s : State) (d th : Nat) (p : Rec64) (g run : Nat) : State :=
  if bit p.w0 8 && decide (s.regF (Reg.graphStat g) 63 32 = run) then qpBlock s d th (.graphRun g run) else qpDone s d th

def trigSend (s : State) (d th : Nat) (p : Rec64) (pa : Nat) : State :=
  let g := bits p.w0 21 16
  match acceptedAs s d th with
  | some (_, run) => trigAccepted s d th p g run
  | none =>
    match readPatches s g (tNp p) pa with
    | (false, s1) => s1
    | (true, s) =>
    let run := s.regF (Reg.graphStat g) 63 32
    match triggerGraph s g (tNp p) pa with
    | (0, s1) =>
      let s2 := s1.withDdx { s1.ddx with ids := s1.ddx.ids ++ [(thDie d th, th % 32, (thread s1 d th).pktSeq, 1024 + g, run)] }
      trigAccepted s2 d th p g run
    | (2, s1) => qpBlock s1 d th (.graphFree g)
    | (_, s1) => qpHalt s1 d th eGRAPH p

def execTrigger (p : Rec64) (s : State) : Host.Outcome State Fault Refusal :=
  runQp s fun s d th t =>
    match t.blk with
    | some (.graphRun _ _) => qpDone s d th
    | _ =>
      if !(trigFields p) then qpHalt s d th eBADPKT p
      else
        match translate s (qSpace s d th) p.w1.toNat .read with
        | (.ok pa, s1) => qpIssue s1 d th fun s2 => trigSend s2 d th p pa
        | (.trap _ _, s1) => qpHalt s1 d th eFAULT p
        | (.wait, s1) => s1

/-! ## SIGNAL (R146) -/

/-- A SIGNAL of a thread: STAGE ISSUED and the release, then the effect. -/
def runSignal (s : State) (p : Rec64) : Host.Outcome State Fault Refusal :=
  runQp s fun s d th _ =>
    if !(signalFields p) then qpHalt s d th eBADPKT p
    else
      qpIssue s d th fun s1 =>
        match signal s1 p (qSpace s1 d th) (.qp d) (.qp d th) (qPid s1 d th) with
        | (.done, s2) => qpDone s2 d th
        | (.err n, s2) => qpHalt s2 d th n p
        | (.wait, s2) => s2
        | (.leat, s2) => qpBlock s2 d th .leat

def execSignalStore (p : Rec64) (s : State) : Host.Outcome State Fault Refusal := runSignal s p
def execSignalAdd (p : Rec64) (s : State) : Host.Outcome State Fault Refusal := runSignal s p
def execSignalIntr (p : Rec64) (s : State) : Host.Outcome State Fault Refusal := runSignal s p

/-- The leat's answer to an ENQ: performed, or the error LEAT. -/
def enqAnswered (s : State) (d th : Nat) (p : Rec64) (a : LAns) : State :=
  if a.trap = none ∧ a.status = 0 then qpDone s d th else qpHalt s d th eLEAT p

def execSignalEnq (p : Rec64) (s : State) : Host.Outcome State Fault Refusal :=
  match s.focus with
  | .qp d th =>
    match (thread s d th).blk, (thread s d th).ans with
    | some .leat, some a => runQp s fun s d th _ => enqAnswered s d th p a
    | _, _ => runSignal s p
  | _ => .next s

/-! ## PRED (R145) -/

/-- The field checks of a packet in an arm. -/
def armFields (p : Rec64) : Bool :=
  match pOp p with
  | 0 => nopFields p
  | 1 => launchFields p
  | 2 => waitFields p
  | 4 => trigFields p
  | 5 => signalFields p
  | _ => false

/-- The prefetch reads of an arm's LAUNCH: faults are no errors. -/
def prefetch (s : State) (d : Nat) (p : Rec64) : State :=
  if pOp p = 1 then (loadWords s (cardSpace s (lCard p) d (100 + d)) p.w2.toNat 8).2 else s

/-- Take the arm that Test() selects. -/
def takeArm (s : State) (d th : Nat) (p : Rec64) (yes : Bool) : State :=
  let nt := bits p.w0 23 16
  let ne := bits p.w0 31 24
  let t := thread s d th
  qpDone (setThread s d th (if yes then { t with armLeft := nt } else { t with idx := nt, armLeft := ne })) d th

def execPred (p : Rec64) (s : State) : Host.Outcome State Fault Refusal :=
  runQp s fun s d th t =>
    let n := 1 + bits p.w0 23 16 + bits p.w0 31 24
    if t.idx ≠ 0 ∨ !(predFields p) then qpHalt s d th eBADPKT p
    else if t.have_ < n then
      setThread s d th { t with st := .fetch, gather := n - t.have_ }
    else
      match qpReads s d th (List.range n) with
      | (false, s1) => s1
      | (true, s) =>
      let arms := (List.range (n - 1)).map fun k => shadowPkt s d th (k + 1)
      if !(arms.all armFields) then qpHalt s d th eBADPKT p
      else
        let s1 := arms.foldl (fun a q => prefetch a d q) s
        match runTest s1 d th p with
        | (.fault, s2) => qpHalt s2 d th eFAULT p
        | (.wait, s2) => s2
        | (.val b _, s2) => takeArm s2 d th p b

/-! ## FETCH (R135, R128) -/

/-- The dequeue's answer: EXEC, more of a PRED's arms, or a halt with ERR 9. -/
def fetched (s : State) (d th : Nat) (a : LAns) : State :=
  let t := thread s d th
  if a.trap.isSome ∨ a.status ≠ 0 then
    qpHalt (setThread s d th { t with idx := 0 }) d th eMQ { w0 := 0, w1 := 0, w2 := 0, w3 := 0, w4 := 0, w5 := 0, w6 := 0, w7 := 0 }
  else
    let s1 := raiseCh s (.qp d) a.wct
    let t1 := { t with ans := none, asked := false, gather := t.gather - 1 }
    setThread s1 d th (if 1 < t.gather then t1 else { t1 with st := .exec, blk := none })

/-- QP_PACKET_FETCH: the dequeue is sent; the offer to it is accepted; the packet is in the shadow. -/
def execQpPacketFetch (s : State) : Host.Outcome State Fault Refusal :=
  let d := s.ev.i
  let th := s.ev.j
  let t := thread s d th
  if !(qpRuns s d th) ∨ t.st ≠ .fetch then .next s
  else
    match qpOwesNot s d th with
    | (false, s1) => .next s1
    | (true, s) =>
    let t := thread s d th
    match t.ans with
    | some a => .next (fetched s d th a)
    | none =>
      if !t.asked then
        let s1 := setThread s d th { t with asked := true }
        .next (sendLeat s1 (qCb s d th) (.qp d th) .deq true (shadowPa s d th + 64 + 64 * t.have_) none none (some (qPid s d th)))
      else
        let mine := s.lq.waiters.find? fun (w : Waiter) => decide (w.q.who = .qp d th) && w.q.op.isDeq && !w.marked
        match mine.bind fun (w : Waiter) => s.lq.offers.find? fun (o : Offer) => decide (o.wid = w.id) with
        | some o =>
          if o.onTime s then
            let s1 := answerOffer s o true
            match (thread s1 d th).ans with
            | some a => .next (fetched s1 d th a)
            | none => .next s1
          else .next s
        | none => .next s

/-! ## BLOCKED (R138) -/

/-- Whether what a thread is blocked on has come. -/
def blockOver (s : State) (t : Thread) (p : Rec64) : Blocked → Bool
  | .cond _ _ _ => false
  | .card => cardFree s (lCard p)
  | .work c g => decide (cardGen s c ≠ g) && !(s.ddx.dones.any fun (x : DoneStore) => decide (x.card = c ∧ x.gen = g))
  | .ask => t.ans.isSome
  | .graphFree g => decide (s.regF (Reg.graphStat g) 1 0 ≠ 1)
  | .graphRun g n => decide (s.regF (Reg.graphStat g) 63 32 ≠ n)
  | .leat => t.ans.isSome

/-- A thread that goes OFF. -/
def Thread.halted (t : Thread) (kept : Bool) : Thread :=
  { t.fresh with st := .off, stop := false, kept := kept, have_ := if kept then t.have_ else 0 }

def execQpBlockedResume (s : State) : Host.Outcome State Fault Refusal :=
  let d := s.ev.i
  let th := s.ev.j
  let t := thread s d th
  match t.blk with
  | some b =>
    if t.st = .blocked ∧ blockOver s t (shadowPkt s d th t.idx) b then
      if t.stop then .next (setThread s d th (t.halted false))
      else if qpRuns s d th then
        match qpOwesNot s d th with
        | (false, s1) => .next s1
        | (true, s1) => .next (setThread s1 d th { thread s1 d th with st := .exec })
      else .next s
    else .next s
  | none => .next s

/-! ## STOP (R138, R128) -/

def ofThread (d th : Nat) (q : LReq) : Bool := decide (q.who = .qp d th)

/-- Remove a thread's waiters, and its dequeue on its way. -/
def dropDeq (s : State) (d th : Nat) : State :=
  let s1 := removeWaiters s (ofThread d th)
  s1.withLq { s1.lq with reqs := s1.lq.reqs.filter fun (q : LReq) => !(ofThread d th q && (q.op.isDeq || q.reissue.isSome)) }

/-- A release request of the thread is at the DDX. -/
def askOf (d th : Nat) (a : Ask) : Bool :=
  match a.src with
  | .queue q i _ x => decide (q = thDie d th ∧ i = th % 32 ∧ x = th)
  | _ => false

/-- STOP, or EN cleared: OFF, once the requests of the current step, an enqueue or a release, have been performed. -/
def stopThread (s : State) (d th : Nat) : State :=
  let t := thread s d th
  match t.st with
  | .off | .adopted => s
  | _ =>
    let s2 := dropDeq s d th
    if s2.lq.reqs.any (ofThread d th) || s2.ddx.asks.any (askOf d th) then setThread s2 d th { t with stop := true }
    else
      let begun := decide (t.have_ ≠ 0 ∧ t.idx = 0) && decide (bits (mem64 s2 (shadowPa s2 d th + 8)) 2 0 = 1)
      setThread s2 d th (t.halted begun)

/-! ## Adoption (R158 to R161) -/

/-- Resume a thread from its shadow under the table of R160. -/
def resumeShadow (s0 : State) (d th : Nat) (old : Thread) : State :=
  let pa := shadowPa s0 d th
  let s := (homeRead s0 (71 + d) (qPid s0 d th) (secOf pa)).2
  let seq := bits (mem64 s pa) 31 0
  let w := mem64 s (pa + 8)
  let stage := bits w 2 0
  let pos := bits w 7 3
  let p0 := shadowPkt s d th 0
  let nt := bits p0.w0 23 16
  let n := if pOp p0 = 3 ∧ predFields p0 then 1 + nt + bits p0.w0 31 24 else 1
  let base : Thread := { Thread.empty with seq := seq, err := old.err, tag := old.tag, unsure := old.unsure }
  let put := fun (t : Thread) => setThread s d th t
  if stage = 0 then put { base with st := .fetch }
  else
    let full := { base with idx := pos, armLeft := (if pos = 0 then 0 else if pos ≤ nt then nt - pos else n - 1 - pos)
                            have_ := if pos = 0 then max 1 old.have_ else n }
    if stage = 4 then raiseVec (put { full with st := .halted }) (pidCluster s (qPid s d th)) 2
    else if stage = 2 then
      let p := shadowPkt s d th pos
      let once := decide (pOp p = 5 ∧ (sKind p = 1 ∨ sKind p = 2))
      if once then qpDone (put { full with st := .exec, unsure := true }) d th
      else put { full with st := .exec, issued := true }
    else put { full with st := .exec }

/-- Waiters of a processor's threads leave the controllers. -/
def dropQpWaiters (s : State) (d : Nat) : State :=
  let cbs := (s.lq.waiters.filter fun (w : Waiter) => match w.q.who with
    | .qp x _ => decide (x = d)
    | _ => false).map fun (w : Waiter) => w.q.cb
  let s1 := s.withLq { s.lq with waiters := s.lq.waiters.filter fun (w : Waiter) => match w.q.who with
    | .qp x _ => decide (x ≠ d)
    | _ => true }
  cbs.foldl (fun a cb => if (offered a cb).isNone then serve a cb else a) s1

/-- ADOPT: the surviving processor sets ADOPTING; the failed one's queues are adopted out. -/
def adoptQueues (s : State) (d : Nat) : State :=
  let o := 1 - d
  let s1 := (s.setRegF (Reg.qpStatus d) 1 1 1).setRegF (Reg.qpStatus o) 2 2 1
  let s2 := dropQpWaiters s1 o
  (List.range 32).foldl (fun (a : State) i => setThread a o i { thread a o i with st := .adopted, asked := false, ans := none }) s2

/-- ADOPT_START_THREADS: after the bound of R108, the threads of the mirrored queues with EN = 1 resume. -/
def execAdoptStartThreads (s : State) : Host.Outcome State Fault Refusal :=
  let d := s.ev.i
  let o := 1 - d
  if 2 ≤ d ∨ !(qpAdopting s d) ∨ !(s.regBit (Reg.qpCtl d) 0) ∨ s.now d < s.regF (Reg.qpAdopt d) 61 0 + 132800 then .next s
  else
    let gone := fun (q : LReq) => match q.who with
      | .qp x _ => decide (x = o)
      | _ => false
    let s1 := s.withLq { s.lq with reqs := s.lq.reqs.filter fun q => !(gone q) }
    .next ((List.range 32).foldl (fun (a : State) i =>
      if a.regBit (Reg.mqCfg o i) 63 ∧ (a.th.find (thKey d (32 + i))).isNone ∧ (thread a o i).st = .adopted then
        resumeShadow a d (32 + i) (thread a o i)
      else a) s1)

/-- The adopting processor finishes its steps, its fence has completed, and it clears ADOPTING. -/
def handBack (s : State) (d : Nat) : State :=
  let ths := (List.range 32).map fun i => 32 + i
  let s1 := ths.foldl (fun (a : State) th =>
    let t := thread a d th
    let b := dropDeq a d th
    if t.st = .blocked ∧ t.blk = some .leat ∧ t.ans = none ∧ !(b.lq.reqs.any (ofThread d th)) then qpStage b d th 3 t.idx else b) s
  let busy := s1.lq.reqs.any fun (q : LReq) => match q.who with
    | .qp x th => decide (x = d ∧ 32 ≤ th)
    | _ => false
  let s2 := ths.foldl (fun (a : State) th =>
    match (thread a d th).blk, (thread a d th).ans with
    | some .leat, some r => enqAnswered a d th (shadowPkt a d th (thread a d th).idx) r
    | _, _ => a) s1
  let s2 := ths.foldl (fun (a : State) th => flushStage a d th) s2
  if busy ∨ (ths.any fun th => (thread s2 d th).owes.isSome) ∨ !(qpReleased s2 d) then s2
  else
    let s3 := ths.foldl (fun (a : State) th =>
      let t := thread a d th
      let old := thread a (1 - d) (th - 32)
      let a1 := match a.th.find (thKey d th) with
        | some _ => setThread a (1 - d) (th - 32) { old with err := t.err, tag := t.tag, unsure := t.unsure, seq := t.seq, have_ := t.have_ }
        | none => a
      let a2 := { a1 with th := a1.th.del (thKey d th) }
      a2.withDdx { a2.ddx with asks := a2.ddx.asks.filter fun (x : Ask) => match x.src with
        | .queue _ _ _ y => decide (y ≠ th)
        | _ => true }) s2
    s3.setRegF (Reg.qpStatus d) 1 1 0

/-- HANDBACK_RESUME: ADOPTING has cleared; the restarted processor resumes each queue from its shadow. -/
def execHandbackResume (s : State) : Host.Outcome State Fault Refusal :=
  let d := s.ev.i
  let o := 1 - d
  if 2 ≤ d ∨ !(qpOut s d) ∨ (s.gov.qpRestart.find d).isSome ∨ s.regF (Reg.qpAdopt o) 63 62 ≠ 2 then .next s
  else if qpAdopting s o then .next (handBack s o)
  else
    let s1 := s.setRegF (Reg.qpStatus d) 2 2 0
    .next ((List.range 32).foldl (fun (a : State) i =>
      if (thread a d i).st ≠ .adopted then a
      else if a.regBit (Reg.mqCfg d i) 63 then resumeShadow a d i (thread a d i)
      else setThread a d i { thread a d i with st := .off }) s1)

end Sys2Proof.Machine
end

