-- ==== Sys2Proof/Machine/Bus.lean ====
section
/-! DEFINITION. Writes of device registers (R5, R6, R25, R26): the merging of halves, REGISTER_WRITE, and the rows of
registers with an effect of their own, but for the context commands and the Governor's mailbox. -/

namespace Sys2Proof.Machine

/-! ## The write of one register -/

/-- The register with the written bits of `rw` replaced. -/
def mergeReg (s : State) (q : RegPart) (rw : Nat) : DWord :=
  let m : DWord := BitVec.ofNat 64 (rw &&& q.mask)
  (s.reg q.reg &&& ~~~m) ||| (q.val &&& m)

/-- Whether a writer's access reaches a register: the engines are out of reset, its die has power, the debug port is
open (R25, R436). -/
def busReaches (s : State) (b : BusWrite) : Bool :=
  let win := b.pa.toNat / 0x100000000
  (match b.src with
   | .gov => true
   | .debug => s.debugOpen
   | .svc _ | .qp _ => !s.gov.holdReset) &&
    !((win = 0xF01 && s.dieOff.contains 0) || (win = 0xF02 && s.dieOff.contains 1))

/-- RW and W1C fields of a register by its map (R5). -/
def plainWrite (s : State) (src : Writer) (q : RegPart) : State :=
  match regInfo q.reg with
  | none => s
  | some r =>
    if r.wo ∨ (r.gov ∧ src ≠ .gov) then s
    else s.setReg q.reg (mergeReg s q r.rw &&& ~~~(q.val &&& BitVec.ofNat 64 (r.w1c &&& q.mask)))

/-- THERM of DDX_STATUS (R164). -/
def thermFlag (s : State) : State :=
  let hot := [0, 1].any fun d => decide (s.regF Reg.tlim 7 0 ≤ s.regF (Reg.opStat d) 15 8)
  s.setRegF Reg.ddxStatus 3 3 (if hot then 1 else 0)

def clampN (lo hi v : Nat) : Nat := if v < lo then lo else if hi < v then hi else v

/-- PWR_ADM (R164). -/
def powerAdm (s : State) : State :=
  s.setReg Reg.pwrAdm (BitVec.ofNat 64 (min 65535 ((allRunning s).foldl (fun (n : Nat) c => n + cardPwr s c) (s.regF Reg.pwrBase 15 0))))

/-! ## Queue configuration (R137, R138) -/

/-- The check of a queue when EN is set, and its start. -/
def enableThread (s : State) (d i : Nat) : State :=
  let t := thread s d i
  let pid := qPid s d i
  let sh := shadowPa s d i
  let ok := satpOk (s.reg (Reg.mqSatp d i)) && dramOk s sh && dramOk s (sh + 2047) && pidHasDie s pid d
  if !ok then setThread s d i { t.halted false with err := eMQ }
  else
    let s1 := s.withDdx { s.ddx with ids := s.ddx.ids.filter fun e => !(decide (e.1 = d ∧ e.2.1 = i)) }
    if t.kept then setThread s1 d i { t with st := .exec, err := 0, seq := 0, kept := false }
    else qpStage (setThread s1 d i { t.fresh with err := 0, seq := 0, unsure := false }) d i 0 0

/-- A write of MQ_CFG: EN starts a thread that is OFF; its clearing stops the thread. -/
def mqCfgWrite (s : State) (d i : Nat) (v : DWord) : State :=
  let s1 := s.setReg (Reg.mqCfg d i) v
  let t := thread s d i
  if bit v 63 then (if t.st = .off ∧ !t.stop then enableThread s1 d i else s1)
  else if t.st = .adopted then setThread (stopThread s1 (1 - d) (32 + i)) d i (t.halted false)
  else stopThread s1 d i

/-! ## Graph configuration (R149) -/

def graphCfgWrite (s : State) (g : Nat) (v : DWord) : State :=
  if s.regF (Reg.graphStat g) 1 0 = 1 then s
  else
    let s1 := s.setReg (Reg.graphCfg g) v
    if bit v 63 && !(graphValid s1 g) then (s1.setRegF (Reg.graphCfg g) 63 63 0).setRegF (Reg.graphStat g) 11 8 1 else s1

/-! ## Stream-port enable (R71, R133) -/

/-- SP_PID: setting EN restarts SEQ; clearing it returns the buffers that the port kept. -/
def spPidWrite (s : State) (n : Nat) (v : DWord) : State :=
  let was := s.regBit (Reg.spPid n) 4
  let s1 := s.setReg (Reg.spPid n) v
  match s1.sp.find n with
  | none => s1
  | some x =>
    if bit v 4 && !was then s1.setSp n { x with seq := 0 }
    else if was && !(bit v 4) then
      let y := s1.setSp n { x with kept := [], giving := x.giving ++ x.kept.map fun e => (e.1, e.2, true) }
      x.kept.foldl (fun (a : State) e =>
        sendLeat a (a.reg (Reg.spFreeq n)).toNat (.sp n) (.enq (wordsBytes [BitVec.ofNat 64 e.1, BitVec.ofNat 64 e.2])) false 0 none none
          (some (a.regF (Reg.spPid n) 3 0))) y
    else s1

/-! ## Commands that name nothing -/

def lqBusy (s : State) (d c : Nat) : Bool := s.regBit (Reg.lqStat d c) 31

/-- A code without a row in a command register (R132, R164, R209, R401, R407). -/
def badCommand (s : State) (src : Writer) (q : RegPart) : State :=
  let o := q.reg % 0x100000000
  let win := q.reg / 0x100000000
  if q.reg = Reg.ddxCmd then s.setRegF Reg.ddxStatus 1 1 1
  else if q.reg = Reg.govCmd then (if s.regBit Reg.govStat 31 then s else s.setReg Reg.govStat 1)
  else if win = 0xF00 ∧ 0x01000100 ≤ o ∧ o < 0x01000180 ∧ o % 0x20 = 0x18 then
    let st := q.reg + 4
    if s.regBit st 31 then s else s.setReg st 4
  else if (win = 0xF01 ∨ win = 0xF02) ∧ o = 0x408 then
    (if bit q.val 31 then s.setRegF (q.reg + 4) 1 1 1 else plainWrite s src q)
  else if (win = 0xF01 ∨ win = 0xF02) ∧ 0x800 ≤ o ∧ o < 0x900 ∧ o % 0x40 = 0x20 then
    (if s.regBit (q.reg + 4) 31 then s else s.setReg (q.reg + 4) 5)
  else if (win = 0xF01 ∨ win = 0xF02) ∧ 0x01000000 ≤ o ∧ o < 0x02C00000 ∧ o % 0x100000 = 0x40208 then
    (if bit q.val 63 ∧ !(s.regBit (q.reg + 8) 31) then s.setReg (q.reg + 8) (BitVec.ofNat 64 ovBADARG) else s)
  else s

/-- The effect of one register's write without a row of its own. -/
def partWrite (s : State) (src : Writer) (q : RegPart) : State :=
  let o := q.reg % 0x100000000
  let win := q.reg / 0x100000000
  let s1 := plainWrite s src q
  if win = 0xF00 then
    if q.reg = Reg.pwrCap then sweepFull (s1.setRegF Reg.pwrCap 15 0 (clampN 900 3000 (s1.regF Reg.pwrCap 15 0)))
    else if q.reg = Reg.pwrBase then sweepFull (powerAdm s1)
    else if q.reg = Reg.tlim then thermFlag (s1.setRegF Reg.tlim 7 0 (clampN 60 115 (s1.regF Reg.tlim 7 0)))
    else if q.reg = Reg.ddxCmd ∨ q.reg = Reg.govCmd ∨ (0x01000100 ≤ o ∧ o < 0x01000180 ∧ o % 0x20 = 0x18) then badCommand s src q
    else if 0x01008000 ≤ o ∧ o < 0x01009000 ∧ o % 0x40 = 0 then
      graphCfgWrite s ((o - 0x01008000) / 0x40) (mergeReg s q 0x8000000FFFFFFFFF)
    else if 0x02000000 ≤ o ∧ o < 0x02090000 ∧ o % 0x10000 = 0x40 then spPidWrite s ((o - 0x02000000) / 0x10000) (mergeReg s q 0x1F)
    else if q.reg = Reg.govPol then
      s1.setReg Reg.govPol (BitVec.ofNat 64 ((List.range 16).foldl (fun (n : Nat) p =>
        n + (if s1.regF Reg.govPol (2 * p + 1) (2 * p) = 1 then 4 ^ p else 0)) 0))
    else s1
  else if win = 0xF01 ∨ win = 0xF02 then
    let d := win - 0xF01
    if 0x200 ≤ o ∧ o < 0x400 then poolLow s1 d ((o - 0x200) / 0x20)
    else if 0x05020100 ≤ o ∧ o < 0x05020900 then
      let i := (o - 0x05020100) / 0x40
      let y := o % 0x40
      if y = 0 then mqCfgWrite s d i (mergeReg s q 0x800F0FFFFFFFFFC0)
      else if (y = 8 ∨ y = 0x10) ∧ s.regBit (Reg.mqCfg d i) 63 then s
      else s1
    else if o = 0x408 ∨ (0x800 ≤ o ∧ o < 0x900 ∧ o % 0x40 = 0x20) ∨
        (0x01000000 ≤ o ∧ o < 0x02C00000 ∧ o % 0x100000 = 0x40208) then badCommand s src q
    else s1
  else s1

/-- A service core's access of a wrong size or alignment (R25). -/
def busFaults (b : BusWrite) : Option Nat :=
  match b.src with
  | .svc c => if (b.size = 4 ∧ b.pa.toNat % 4 = 0) ∨ (b.size = 8 ∧ b.pa.toNat % 8 = 0) then none else some c.val
  | _ => none

/-- A register write: `act` for the registers of the row, their own effect for any other register it touches. -/
def busRow (s : State) (b : BusWrite) (mine : RegPart → Bool) (act : State → RegPart → State) :
    Host.Outcome State Fault Refusal :=
  if !(busReaches s b) then .next s
  else
    match busFaults b with
    | some sc => .next (svcFault s sc cStoreAccess b.pa.toNat)
    | none => .next ((busParts b).foldl (fun (a : State) q => if mine q then act a q else partWrite a b.src q) s)

/-- REGISTER_WRITE. -/
def execRegisterWrite (b : BusWrite) (s : State) : Host.Outcome State Fault Refusal :=
  busRow s b (fun _ => false) fun a _ => a

/-! ## Device time (R31, R34) -/

def loadTime (s : State) (q : RegPart) : State :=
  let t := q.val.toNat
  if q.bytes = 8 ∧ s.regBit Reg.dtuStatus 4 ∧ !(s.regBit Reg.dtuStatus 5) ∧ s.time.hub < t then
    (s.setRegF Reg.dtuStatus 5 5 1).withTime { s.time with hub := t, loading := [0, 1, 2] }
  else s.setRegF Reg.dtuStatus 3 3 1

def execDtuLoadWrite (b : BusWrite) (s : State) : Host.Outcome State Fault Refusal :=
  busRow s b (fun q => decide (q.reg = Reg.dtuLoad)) loadTime

def adjustRate (s : State) (q : RegPart) : State :=
  let v := signExt (bits q.val 31 0) 32
  let lim : Int := 2147484
  let w := if v < -lim then -lim else if lim < v then lim else v
  let s1 := s.setReg Reg.dtuAdj (BitVec.ofNat 64 (narrow w 32))
  if w = v then s1 else s1.setRegF Reg.dtuStatus 1 1 1

def execDtuAdjWrite (b : BusWrite) (s : State) : Host.Outcome State Fault Refusal :=
  busRow s b (fun q => decide (q.reg = Reg.dtuAdj)) adjustRate

/-! ## Leases and shoot-downs (R76, R83) -/

def execLeaseCfgWrite (b : BusWrite) (s : State) : Host.Outcome State Fault Refusal :=
  busRow s b (fun q => decide (0x600 ≤ q.off ∧ q.off < 0x640)) fun a q => a.setReg q.reg (BitVec.ofNat 64 (clampN 2 512 (bits q.val 9 0)))

/-- GO of SHOOT_CTL: accepted unless a shoot-down is in progress. -/
def shootGo (scope : Nat) (s : State) (q : RegPart) : State :=
  let d := q.die
  if s.regBit (Reg.shootStat d) 0 then s.setRegF (Reg.shootStat d) 1 1 1
  else shootStart (s.setReg q.reg (BitVec.ofNat 64 (bits q.val 17 0))) d scope

def isShoot (q : RegPart) : Bool := decide (q.off = 0x408)

def execShootPage (b : BusWrite) (s : State) : Host.Outcome State Fault Refusal := busRow s b isShoot (shootGo 0)
def execShootAsid (b : BusWrite) (s : State) : Host.Outcome State Fault Refusal := busRow s b isShoot (shootGo 1)
def execShootAll (b : BusWrite) (s : State) : Host.Outcome State Fault Refusal := busRow s b isShoot (shootGo 2)

/-! ## Leat command ports (R132) -/

def isLqCmd (q : RegPart) : Bool := decide (0x800 ≤ q.off ∧ q.off < 0x900 ∧ q.off % 0x40 = 0x20)

/-- Forward an operation of a port, with its element buffer. -/
def lqForward (op : State → Nat → Nat → LOp) (s : State) (q : RegPart) : State :=
  let d := q.die
  let c := (q.off - 0x800) / 0x40
  if lqBusy s d c then s
  else
    let s1 := s.setReg (Reg.lqStat d c) (BitVec.ofNat 64 (2 ^ 31))
    sendLeat s1 (64 * bits (s.reg (Reg.lqPa d c)) 63 6) (.port d c) (op s d c) false (s.reg (Reg.lqBuf d c)).toNat none none none

def execLqEnq (b : BusWrite) (s : State) : Host.Outcome State Fault Refusal :=
  busRow s b isLqCmd (lqForward fun _ _ _ => .enq [])
def execLqDeq (b : BusWrite) (s : State) : Host.Outcome State Fault Refusal :=
  busRow s b isLqCmd (lqForward fun _ _ _ => .deq)
def execLqResv (b : BusWrite) (s : State) : Host.Outcome State Fault Refusal :=
  busRow s b isLqCmd (lqForward fun a d c => .res (a.reg (Reg.lqArg0 d c)).toNat)
def execLqDone (b : BusWrite) (s : State) : Host.Outcome State Fault Refusal :=
  busRow s b isLqCmd (lqForward fun a d c => .done (a.reg (Reg.lqArg0 d c)).toNat)
def execLqInit (b : BusWrite) (s : State) : Host.Outcome State Fault Refusal :=
  busRow s b isLqCmd (lqForward fun a d c => .init (a.reg (Reg.lqArg0 d c)) (a.reg (Reg.lqArg1 d c)) (a.reg (Reg.lqBuf d c)))
def execLqDrain (b : BusWrite) (s : State) : Host.Outcome State Fault Refusal :=
  busRow s b isLqCmd (lqForward fun _ _ _ => .drain)
def execLqClose (b : BusWrite) (s : State) : Host.Outcome State Fault Refusal :=
  busRow s b isLqCmd (lqForward fun _ _ _ => .close)
def execLqReopen (b : BusWrite) (s : State) : Host.Outcome State Fault Refusal :=
  busRow s b isLqCmd (lqForward fun _ _ _ => .reopen)
def execLqRepair (b : BusWrite) (s : State) : Host.Outcome State Fault Refusal :=
  busRow s b isLqCmd (lqForward fun a d c => .repair (a.reg (Reg.lqArg0 d c)).toNat)
def execLqQuery (b : BusWrite) (s : State) : Host.Outcome State Fault Refusal :=
  busRow s b isLqCmd (lqForward fun _ _ _ => .query)

/-! ## Mapped queues and adoption (R137, R138, R160, R161) -/

def mqIdx (q : RegPart) : Nat := (q.off - 0x05020100) / 0x40

def execMqEnable (b : BusWrite) (s : State) : Host.Outcome State Fault Refusal :=
  busRow s b (fun q => decide (0x05020100 ≤ q.off ∧ q.off < 0x05020900 ∧ q.off % 0x40 = 0)) fun a q =>
    mqCfgWrite a q.die (mqIdx q) (mergeReg a q 0x800F0FFFFFFFFFC0)

def isMqCtl (q : RegPart) : Bool := decide (0x05020100 ≤ q.off ∧ q.off < 0x05020900 ∧ q.off % 0x40 = 0x20)

/-- SKIP of a halted thread: what the shadow holds is discarded. -/
def mqSkip (s : State) (d i : Nat) : State :=
  let t := thread s d i
  if t.st = .halted then qpStage (setThread s d i t.fresh) d i 0 0 else s

/-- RETRY of a halted thread: its packet is performed again; FETCH when the shadow holds none. -/
def mqRetry (s : State) (d i : Nat) : State :=
  let t := thread s d i
  if t.st = .halted then
    setThread s d i (if t.have_ = 0 then t.fresh else { t with st := .exec, blk := none, ans := none, issued := false })
  else s

def mqStop (s : State) (d i : Nat) : State :=
  let t := thread s d i
  if t.st = .adopted then setThread (stopThread s (1 - d) (32 + i)) d i (t.halted false) else stopThread s d i

def execMqSkip (b : BusWrite) (s : State) : Host.Outcome State Fault Refusal :=
  busRow s b isMqCtl fun a q => mqSkip a q.die (mqIdx q)
def execMqRetry (b : BusWrite) (s : State) : Host.Outcome State Fault Refusal :=
  busRow s b isMqCtl fun a q => mqRetry a q.die (mqIdx q)
def execMqStop (b : BusWrite) (s : State) : Host.Outcome State Fault Refusal :=
  busRow s b isMqCtl fun a q => mqStop a q.die (mqIdx q)

def isQpAdopt (q : RegPart) : Bool := decide (q.off = 0x05020008)

def execAdopt (b : BusWrite) (s : State) : Host.Outcome State Fault Refusal :=
  busRow s b isQpAdopt fun a q => adoptQueues (plainWrite a b.src q) q.die

def execHandback (b : BusWrite) (s : State) : Host.Outcome State Fault Refusal :=
  busRow s b isQpAdopt fun a q =>
    let a1 := plainWrite a b.src q
    if qpAdopting a1 q.die then handBack a1 q.die else a1

/-! ## Task graphs and job cards (R149, R151, R162, R165) -/

def graphIdx (q : RegPart) : Nat := (q.off - 0x01008000) / 0x40

def execGraphValidate (b : BusWrite) (s : State) : Host.Outcome State Fault Refusal :=
  busRow s b (fun q => decide (0x01008000 ≤ q.off ∧ q.off < 0x01009000 ∧ q.off % 0x40 = 0)) fun a q =>
    graphCfgWrite a (graphIdx q) (mergeReg a q 0x8000000FFFFFFFFF)

def execGraphTrigger (b : BusWrite) (s : State) : Host.Outcome State Fault Refusal :=
  busRow s b (fun q => decide (0x01008000 ≤ q.off ∧ q.off < 0x01009000 ∧ q.off % 0x40 = 0x10)) fun a q =>
    (triggerGraph a (graphIdx q) (bits q.val 63 55) (16 * bits q.val 43 4)).2

/-- A write of a job-card word: an RW word of an IDLE or DONE card, else WERR. -/
def cardWrite (s : State) (q : RegPart) : State :=
  let c := (q.off - 0x01800000) / 128
  let k := q.off % 128 / 8
  if k < 12 ∧ cardFree s c then s.setReg q.reg (mergeReg s q all64') else s.setRegF Reg.ddxStatus 0 0 1
where
  all64' : Nat := 2 ^ 64 - 1

def execJobCardWrite (b : BusWrite) (s : State) : Host.Outcome State Fault Refusal :=
  busRow s b (fun q => decide (0x01800000 ≤ q.off ∧ q.off < 0x01820000)) cardWrite

def isDdxCmd (q : RegPart) : Bool := decide (q.reg = Reg.ddxCmd)
def cmdError (s : State) : State := s.setRegF Reg.ddxStatus 1 1 1
def setActive (s : State) (c n : Nat) : State := setCardF s c 14 7 7 n

def activateCard (s : State) (c : Nat) : State :=
  if s.gov.holdPids.contains (cardPid s c) then s.withGov { s.gov with heldActs := s.gov.heldActs ++ [c] }
  else if cardFree s c ∧ !(cardIsLaunch s c) ∧ cardValid s c ∧ s.now 3 < nextRel s c then
    let s1 := setActive s c 1
    if (s1.ddx.cards.find c).isSome then s1 else setCardSt s1 c CardSt.none
  else cmdError s

def execActivate (b : BusWrite) (s : State) : Host.Outcome State Fault Refusal :=
  busRow s b isDdxCmd fun a q => activateCard a (bits q.val 9 0)

def execRetire (b : BusWrite) (s : State) : Host.Outcome State Fault Refusal :=
  busRow s b isDdxCmd fun a q => setActive a (bits q.val 9 0) 0

def execDdxKill (b : BusWrite) (s : State) : Host.Outcome State Fault Refusal :=
  busRow s b isDdxCmd fun a q =>
    let c := bits q.val 9 0
    if cardFree a c then cmdError a else killCard a c

/-- RESUME of a held card (R165): in place for tile work, else by a dispatch to come. -/
def resumeCard (s0 : State) (c : Nat) : State :=
  if cardState s0 c ≠ stHeld then cmdError s0
  else
    let s := setCardSt s0 c { cardSt s0 c with bov := false }
    match tileOf s c with
    | some (tc, t) =>
      if t.heldStop then
        (moveCard s c stRunning).setTile tc (startWalkers (tileNow s tc) { t with heldStop := false, span := 0 })
      else moveCard s c stPreempted
    | none => moveCard s c (if (cardSt s c).saved then stPreempted else stReady)

def execDdxResume (b : BusWrite) (s : State) : Host.Outcome State Fault Refusal :=
  busRow s b isDdxCmd fun a q => resumeCard a (bits q.val 9 0)

/-! ## Sluices and instruction stores (R173, R174, R209, R212) -/

def execSluCfgWrite (b : BusWrite) (s : State) : Host.Outcome State Fault Refusal :=
  busRow s b (fun q => decide (0x04000000 ≤ q.off ∧ q.off < 0x04100000 ∧ 0x1000 ≤ q.off % 0x20000 ∧ q.off % 0x20 = 0)) fun a q =>
    sluReconfigure a (8 * q.die + (q.off - 0x04000000) / 0x20000) ((q.off % 0x20000 - 0x1000) / 0x20) q.val

def isOvlCmd (q : RegPart) : Bool := decide (0x01000000 ≤ q.off ∧ q.off < 0x02C00000 ∧ q.off % 0x100000 = 0x40208)

/-- The package number of the core whose register it is. -/
def ovlCore (q : RegPart) : Nat :=
  if q.off < 0x02000000 then 16 * q.die + (q.off - 0x01000000) / 0x100000
  else 32 + 12 * q.die + (q.off - 0x02000000) / 0x100000

/-- OVL_CMD with GO, while not BUSY and with no reserved bit set. -/
def ovlCommand (act : State → Nat → DWord → State) (s : State) (q : RegPart) : State :=
  let c := ovlCore q
  if !(bit q.val 63) ∨ s.regBit (Reg.ovlCmdStat c) 31 then s
  else if bits q.val 27 0 ≠ 0 then s.setReg (Reg.ovlCmdStat c) (BitVec.ofNat 64 ovBADARG)
  else act s c q.val

def execOvlCmdLoad (b : BusWrite) (s : State) : Host.Outcome State Fault Refusal :=
  busRow s b isOvlCmd (ovlCommand fun a c v => cmdLoad a c v (heldCard a c))

def execInvalCard (b : BusWrite) (s : State) : Host.Outcome State Fault Refusal :=
  busRow s b isOvlCmd (ovlCommand fun a c v =>
    (invalWhere a c false fun o => decide (o.card = bits v 53 44)).setReg (Reg.ovlCmdStat c) 0)

def execInvalPid (b : BusWrite) (s : State) : Host.Outcome State Fault Refusal :=
  busRow s b isOvlCmd (ovlCommand fun a c v =>
    (invalWhere a c false fun o => decide (o.pid = bits v 31 28)).setReg (Reg.ovlCmdStat c) 0)

end Sys2Proof.Machine
end

