-- ==== Sys2Proof/Machine/Tile.lean ====
section
/-! DEFINITION. Tile cores (R307 to R317, R321 to R325, R336 to R340): the walk, tokens, slip, the checker, faults of a
walker, and the K words. -/

namespace Sys2Proof.Machine

/-! ## A walker at a word -/

/-- A walker of a tile core at a word: the core, the walker (0 L, 1 X, 2 V, 3 S, 4 checker), and what it holds. -/
structure TCtx where
  tc : Nat
  e : Nat
  t : TileCore
  x : Ctx
  w : Walker
  word : TWord

def TCtx.core (k : TCtx) : Nat := k.tc + 32
def TCtx.die (k : TCtx) : Nat := coreDie (k.tc + 32)
def TCtx.space (s : State) (k : TCtx) : Space := cardSpace s k.x.card k.die k.core
def TCtx.agent (k : TCtx) : Agent := .teng k.tc k.e

/-- i * s of the repetition to issue (R314). -/
def TCtx.step (k : TCtx) : Int := (k.w.rep : Int) * k.word.s

/-- Register n of a replica. -/
def Walker.kr (w : Walker) (n : Nat) : DWord := w.k.getD n 0
def Walker.setK (w : Walker) (n : Nat) (v : DWord) : Walker := { w with k := setPad 0 w.k n v }

/-- SLIP of the kernel header (R310). -/
def tileSlip (s : State) (c : Nat) : Nat := bits (relHdr s c 1) 7 0

def Walker.walks (w : Walker) : Bool := decide (w.st ≠ .off ∧ w.st ≠ .ended)

/-- The smallest walk count among the walkers that have not ended. -/
def minCount (t : TileCore) : Nat :=
  match (t.walkers.filter Walker.walks).map fun (w : Walker) => w.count with
  | [] => 0
  | n :: l => l.foldl min n

/-- The walker as the state now has it. -/
def walkerNow (s : State) (k : TCtx) : Walker :=
  ((s.tiles.find k.tc).bind fun (t : TileCore) => t.walkers[k.e]?).getD k.w

def putWalker (s : State) (k : TCtx) (w : Walker) : State := setWalkerAt s k.tc k.e fun _ => w

/-- A walker whose command has retired (R325). -/
def WkState.going (st : WkState) : WkState :=
  match st with
  | .wait => .run
  | .stopping => .stopped
  | x => x

/-- A finished word: the count raised, the next program counter (R309). -/
def Walker.finish (w : Walker) (pc : OvAddr) : Walker :=
  { w with
    st := w.st.going, pc := pc, count := w.count + 1, rep := 0, retiring := false, pops := [], pushes := [], asked := none,
    uses := none, sent := false, ans := none, ovFirst := none, ovWait := none }

def OvAddr.next (a : OvAddr) : OvAddr := { a with off := a.off + 8 }

/-- The walker waits (R325). -/
def tWait (s : State) (k : TCtx) : State :=
  setWalkerAt s k.tc k.e fun w => if w.st = .run then { w with st := .wait } else w

/-- Reads that a walker asked for are over. -/
def dropAsked (s : State) (w : Walker) : State :=
  match w.asked with
  | some i => s.delOp i
  | none => s

/-! ## Tokens (R312, R313, R333) -/

/-- The FIFOs that an engine's word pops and pushes. -/
def popFifos (e : Nat) (w : TWord) : List Nat :=
  (if w.popP = 1 then [2 * e - 2] else []) ++ (if w.popN = 1 then [2 * e + 1] else [])
def pushFifos (e : Nat) (w : TWord) : List Nat :=
  (if w.pushP = 1 then [2 * e - 1] else []) ++ (if w.pushN = 1 then [2 * e] else [])

/-- Pop one token of a FIFO for a walker, if it has not and one is there. -/
def popOne (s : State) (k : TCtx) (f : Nat) : State :=
  match s.tiles.find k.tc with
  | some t =>
    match t.walkers[k.e]?, t.fifo.getD f [] with
    | some w, h :: rest =>
      if (w.pops.find f).isSome then s
      else
        let w1 := { w with pops := w.pops.set f h, ch := max w.ch h }
        s.setTile k.tc { t with fifo := setPad [] t.fifo f rest, walkers := setAt t.walkers k.e w1 }
    | _, _ => s
  | none => s

/-- The popped tokens return to their FIFOs (R330). -/
def returnPops (s : State) (k : TCtx) : State :=
  match s.tiles.find k.tc with
  | some t =>
    let w := walkerNow s k
    let fifo := w.pops.foldl (fun (a : List (List Nat)) e => setPad [] a e.1 (e.2 :: a.getD e.1 [])) t.fifo
    s.setTile k.tc { t with fifo := fifo, walkers := setAt t.walkers k.e { w with pops := [] } }
  | none => s

/-! ## Faults (R322, R330) -/

/-- A fault of the walker at its word: precise at the repetition, the tokens returned in repetition 0. A program that is
trapped already raises nothing more until it is resumed (R398). -/
def tFault (s : State) (k : TCtx) (c : Cause) : State :=
  let w := walkerNow s k
  let s1 := dropAsked s w
  let s2 := if w.rep = 0 then returnPops s1 k else s1
  let s3 := setWalkerAt s2 k.tc k.e fun w =>
    { w with asked := none, ovFirst := none, ovWait := none, sent := false, ans := none,
             uses := if w.rep = 0 then none else w.uses, st := if w.st = .stopping then .stopped else w.st }
  if k.t.trapped then retrapTile s3 k.tc k.e c else trapTile s3 k.tc k.e c

/-! ## The start of a word -/

/-- A turn at a word: nothing more to do, or the word's own effect on a state. -/
inductive TStart
  | stay (s : State)
  | go (k : TCtx) (s : State)

/-- Whether a walker moves: its program runs, or what it has issued is still to retire. -/
def tileGo (s : State) (tc : Nat) (t : TileCore) (x : Ctx) (w : Walker) : Bool :=
  ctxLive s x && !(cardSt s x.card).tear && !w.retiring && decide (t.resumeAt ≤ tileNow s tc) &&
    ((decide ((w.st = .run ∨ w.st = .wait) ∧ cardState s x.card = stRunning) && !t.trapped && !t.heldStop) ||
      (decide (w.st = .stopping) && (w.asked.isSome || w.sent)))

/-- A walker of a lower tag than the one whose fault has stopped the program in this tile clock still meets a fault of its own
(R322). -/
def sameClock (s : State) (tc e : Nat) (t : TileCore) (w : Walker) : Bool :=
  t.trapped && decide (w.st = .stopped) && !w.retiring &&
    (match t.trapAt with
     | some (n, f) => decide (n = tileNow s tc ∧ e < f)
     | none => false)

def tileTurn (s : State) (tc e : Nat) (t : TileCore) (x : Ctx) (w : Walker) : Bool :=
  tileGo s tc t x w || (ctxLive s x && sameClock s tc e t w)

/-! ## The checker (R321) -/

def accReg (f : BitVec 12) : List Nat := if fld f 11 11 = 1 then [fld f 5 1] else []

/-- The k registers that the operands of a word name (R316, R336 to R342). -/
def wordRegs (opc : Nat) (w : TWord) : List Nat :=
  if opc = 0x00 ∨ opc = 0x0D ∨ opc = 0x16 ∨ opc = 0x1A ∨ opc = 0x1B then []
  else if opc ≤ 0x0B ∨ opc = 0x0F then [w.ka, w.kb]
  else if opc = 0x0C ∨ opc = 0x1C ∨ opc = 0x18 ∨ opc = 0x19 then [w.ka]
  else if opc = 0x0E ∨ opc = 0x17 then [w.kd]
  else if opc ≤ 0x15 then [w.kd, w.ka]
  else if opc = 0x20 then [w.kb]
  else if opc = 0x21 then []
  else if opc = 0x23 ∨ (0x60 ≤ opc ∧ opc ≤ 0x62) then fld w.opa 5 1 :: accReg w.opb
  else if opc ≤ 0x33 then [fld w.opa 5 1]
  else if opc ≤ 0x35 then []
  else if opc = 0x40 ∨ opc = 0x52 then accReg w.opa
  else if opc = 0x47 ∨ opc = 0x4B then w.kb :: accReg w.opa
  else if opc ≤ 0x51 then accReg w.opa ++ accReg w.opb
  else if opc = 0x63 then [w.kd, w.ka, w.kb]
  else []

/-- A command (R321): walk count and repetition, the word with its tag, opcode and token bits, and the registers of which its operands,
the value a K word writes and the outcome of a branch follow. -/
structure Command where
  count : Nat
  rep : Nat
  opc : Nat
  word : TWord
  regs : List DWord
  pc : OvAddr
  deriving DecidableEq, Repr

def command (count rep : Nat) (pc : OvAddr) (k : List DWord) (opc : Nat) (w : TWord) : Command :=
  { count := count, rep := rep, opc := opc, word := w, regs := (wordRegs opc w).map fun n => k.getD n 0, pc := pc }

def formedAt (t : TileCore) (n : Nat) : Option Formed := t.formed.find? fun (f : Formed) => decide (f.count = n)

/-- The checker has not formed the command of the word yet (R321). -/
def checkerBehind (t : TileCore) (e : Nat) (w : Walker) : Bool := decide (e < 4) && (formedAt t w.count).isNone

/-- The command of an engine's next repetition equals the one the checker has formed (R321). -/
def commandOk (t : TileCore) (e : Nat) (w : Walker) (opc : Nat) (word : TWord) : Bool :=
  decide (t.soft ≠ some e) &&
    (match formedAt t w.count with
     | some f => decide (command f.count w.rep f.pc f.k (tOpcode f.word) (tFieldsOf f.word) = command w.count w.rep w.pc w.k opc word)
     | none => true)

/-- The checker forms the commands of the word at which it stands; those that every engine has passed are gone. -/
def formHere (s : State) (tc : Nat) (w : Walker) (v : DWord) : State :=
  match s.tiles.find tc with
  | some t =>
    if (formedAt t w.count).isSome then s
    else
      s.setTile tc { t with formed := { count := w.count, pc := w.pc, word := v, k := w.k } ::
        (t.formed.filter fun (f : Formed) => decide (minCount t ≤ f.count)) }
  | none => s

/-- CHECK (R321): the command of a walker does not equal the checker's. -/
def checkFails (s : State) (k : TCtx) : State :=
  let s1 := s.setTile k.tc { k.t with soft := none }
  tFault (s1.regInc (Reg.tcChk k.tc) 32) k { code := tCHECK, detail := k.e + 256 * k.w.rep }

/-- Slip, decode, skipping, the checker's comparison and the pops, for the walker in focus (R309, R310, R313, R328). -/
def tStart (s : State) (opc : Nat) (word : TWord) : TStart :=
  match s.focus with
  | .walker tc e =>
    match s.tiles.find tc with
    | some t =>
      match t.card, t.walkers[e]? with
      | some x, some w =>
        let k : TCtx := { tc := tc, e := e, t := t, x := x, w := w, word := word }
        if !(tileTurn s tc e t x w) then .stay s
        else if tileSlip s x.card ≤ w.count - minCount t then .stay (tWait s k)
        else if checkerBehind t e w then .stay s
        else
          match tEnc opc word with
          | some d => .stay (tFault s k { code := tENC, detail := d })
          | none =>
            if word.t ≠ 0 ∧ word.t ≠ 5 ∧ word.t ≠ e + 1 then .stay (putWalker s k (w.finish w.pc.next))
            else if e < 4 ∧ w.asked = none ∧ w.sent = false ∧ commandOk t e w opc word = false then .stay (checkFails s k)
            else
              let l := if word.t = 0 ∨ word.t = 5 then [] else popFifos e word
              let s1 := l.foldl (fun (a : State) f => popOne a k f) s
              let w1 := walkerNow s1 k
              if l.all fun f => (w1.pops.find f).isSome then
                let w2 := if w1.st = .wait then { w1 with st := .run } else w1
                let s2 := if w1.st = .wait then putWalker s1 k w2 else s1
                match s2.tiles.find tc with
                | some t2 => .go { k with t := t2, w := w2 } s2
                | none => .stay s2
              else .stay (tWait s1 k)
      | _, _ => .stay s
    | none => .stay s
  | _ => .stay s

/-- A program that a fault has stopped in this tile clock: of a walker's turn only a fault of its own remains (R322). -/
def onlyFaults (s s' : State) : State :=
  match s.focus with
  | .walker tc e =>
    match s.tiles.find tc with
    | some t =>
      if (t.walkers[e]?).any (sameClock s tc e t) && decide (s'.ddx.recs.length ≤ s.ddx.recs.length ∧
          (s'.tiles.find tc).bind (fun (x : TileCore) => x.trapAt) = t.trapAt) then s else s'
    | none => s'
  | _ => s'

/-- Run the effect of a word. -/
def runTile (s : State) (opc : Nat) (word : TWord) (f : State → TCtx → State) : Host.Outcome State Fault Refusal :=
  match tStart s opc word with
  | .stay s' => .next (onlyFaults s s')
  | .go k s' => .next (onlyFaults s (f s' k))

/-- A repetition has been performed: the next one, or the retirement of the word. -/
def tRep (s : State) (k : TCtx) : State :=
  let w := walkerNow s k
  let s1 := dropAsked s w
  putWalker s1 k
    (if w.rep + 1 < k.word.n then { w with rep := w.rep + 1, asked := none, st := w.st.going }
     else { w with retiring := true, asked := none, pushes := pushFifos k.e k.word })

/-- Every repetition at once: words whose repetitions only take time. -/
def tAll (s : State) (k : TCtx) : State :=
  putWalker s k { walkerNow s k with rep := k.word.rep.toNat, retiring := true, pushes := pushFifos k.e k.word }

/-! ## K words (R336 to R338) -/

/-- End a K word with the replica and the program counter given. -/
def kDone (s : State) (k : TCtx) (w : Walker) (pc : OvAddr) : State := putWalker s k (w.finish pc)

/-- kd := f ka kb. -/
def runKrr (s : State) (opc : Nat) (word : TWord) (f : DWord → DWord → DWord) : Host.Outcome State Fault Refusal :=
  runTile s opc word fun s k =>
    kDone s k (k.w.setK word.kd (f (k.w.kr word.ka) (k.w.kr word.kb))) k.w.pc.next

def execKnop (w : TWord) (s : State) : Host.Outcome State Fault Refusal :=
  runTile s 0x00 w fun s k => kDone s k k.w k.w.pc.next
def execKadd (w : TWord) (s : State) : Host.Outcome State Fault Refusal := runKrr s 0x01 w fun a b => a + b
def execKsub (w : TWord) (s : State) : Host.Outcome State Fault Refusal := runKrr s 0x02 w fun a b => a - b
def execKmul (w : TWord) (s : State) : Host.Outcome State Fault Refusal := runKrr s 0x03 w fun a b => a * b
def execKand (w : TWord) (s : State) : Host.Outcome State Fault Refusal := runKrr s 0x04 w fun a b => a &&& b
def execKor (w : TWord) (s : State) : Host.Outcome State Fault Refusal := runKrr s 0x05 w fun a b => a ||| b
def execKxor (w : TWord) (s : State) : Host.Outcome State Fault Refusal := runKrr s 0x06 w fun a b => a ^^^ b
def execKshl (w : TWord) (s : State) : Host.Outcome State Fault Refusal := runKrr s 0x07 w fun a b => a <<< (b.toNat % 64)
def execKshr (w : TWord) (s : State) : Host.Outcome State Fault Refusal := runKrr s 0x08 w fun a b => a >>> (b.toNat % 64)
def execKsra (w : TWord) (s : State) : Host.Outcome State Fault Refusal :=
  runKrr s 0x09 w fun a b => a.sshiftRight (b.toNat % 64)
def execKmin (w : TWord) (s : State) : Host.Outcome State Fault Refusal :=
  runKrr s 0x0A w fun a b => if b.toInt < a.toInt then b else a
def execKmax (w : TWord) (s : State) : Host.Outcome State Fault Refusal :=
  runKrr s 0x0B w fun a b => if a.toInt < b.toInt then b else a
def execKpack (w : TWord) (s : State) : Host.Outcome State Fault Refusal :=
  runKrr s 0x0F w fun a b => BitVec.ofNat 64 (bits a 31 0 + 2 ^ 32 * bits b 31 0)

def execKaddi (w : TWord) (s : State) : Host.Outcome State Fault Refusal :=
  runTile s 0x0C w fun s k => kDone s k (k.w.setK w.kd (k.w.kr w.ka + BitVec.ofInt 64 w.imm)) k.w.pc.next
def execKli (w : TWord) (s : State) : Host.Outcome State Fault Refusal :=
  runTile s 0x0D w fun s k => kDone s k (k.w.setK w.kd (BitVec.ofInt 64 (signExt w.imm19 19))) k.w.pc.next
def execKlis (w : TWord) (s : State) : Host.Outcome State Fault Refusal :=
  runTile s 0x0E w fun s k => kDone s k (k.w.setK w.kd ((k.w.kr w.kd <<< 19) ||| BitVec.ofNat 64 w.imm19)) k.w.pc.next

/-- The target of a branch; one before the overlay's start lies beyond its pages. -/
def kTarget (pc : OvAddr) (off : Int) : OvAddr := { pc with off := narrow ((pc.off : Int) + 8 * off) 32 }

def runKbr (s : State) (opc : Nat) (word : TWord) (taken : DWord → DWord → Bool) : Host.Outcome State Fault Refusal :=
  runTile s opc word fun s k =>
    kDone s k k.w (if taken (k.w.kr word.kd) (k.w.kr word.ka) then kTarget k.w.pc word.imm else k.w.pc.next)

def execKbeq (w : TWord) (s : State) : Host.Outcome State Fault Refusal := runKbr s 0x10 w fun a b => decide (a = b)
def execKbne (w : TWord) (s : State) : Host.Outcome State Fault Refusal := runKbr s 0x11 w fun a b => decide (a ≠ b)
def execKblt (w : TWord) (s : State) : Host.Outcome State Fault Refusal :=
  runKbr s 0x12 w fun a b => decide (a.toInt < b.toInt)
def execKbge (w : TWord) (s : State) : Host.Outcome State Fault Refusal :=
  runKbr s 0x13 w fun a b => decide (b.toInt ≤ a.toInt)
def execKbltu (w : TWord) (s : State) : Host.Outcome State Fault Refusal :=
  runKbr s 0x14 w fun a b => decide (a.toNat < b.toNat)
def execKbgeu (w : TWord) (s : State) : Host.Outcome State Fault Refusal :=
  runKbr s 0x15 w fun a b => decide (b.toNat ≤ a.toNat)
def execKjmp (w : TWord) (s : State) : Host.Outcome State Fault Refusal :=
  runTile s 0x16 w fun s k => kDone s k k.w (kTarget k.w.pc w.imm)
def execKloop (w : TWord) (s : State) : Host.Outcome State Fault Refusal :=
  runTile s 0x17 w fun s k =>
    let v := k.w.kr w.kd - 1
    kDone s k (k.w.setK w.kd v) (if v ≠ 0 then kTarget k.w.pc w.imm else k.w.pc.next)

/-! ## Sampled words (R311, R339, R340) -/

/-- The sample held for the walker at its word. -/
def sampleFor (k : TCtx) : Option Sample :=
  k.t.samples.find? fun (x : Sample) => decide (x.count = k.w.count) && x.left.contains k.e

/-- Hold a sample for the other walkers that have not ended. -/
def putSample (s : State) (k : TCtx) (val : DWord) (dest : OvAddr) : State :=
  match s.tiles.find k.tc with
  | some t =>
    let left := (List.range 5).filter fun e => decide (e ≠ k.e) && (match t.walkers[e]? with
      | some w => w.walks
      | none => false)
    if left = [] then s else s.setTile k.tc { t with samples := t.samples ++ [{ count := k.w.count, val := val, dest := dest, left := left }] }
  | none => s

/-- Take a sample; the last walker to take it frees its place. -/
def takeSample (s : State) (k : TCtx) : State :=
  match s.tiles.find k.tc with
  | some t =>
    let l := t.samples.map fun (x : Sample) => if x.count = k.w.count then { x with left := x.left.filter fun e => decide (e ≠ k.e) } else x
    s.setTile k.tc { t with samples := l.filter fun (x : Sample) => !x.left.isEmpty }
  | none => s

/-- Another walker is sampling the occurrence. -/
def samplerBusy (k : TCtx) : Bool :=
  (List.range 5).any fun e => decide (e ≠ k.e) && (match k.t.walkers[e]? with
    | some w => decide (w.count = k.w.count) && w.asked.isSome
    | none => false)

/-- A sampled value for kd: the held one, or a new one. -/
def runSample (s : State) (opc : Nat) (word : TWord) (val : State → TCtx → DWord) : Host.Outcome State Fault Refusal :=
  runTile s opc word fun s k =>
    match sampleFor k with
    | some x => kDone (takeSample s k) k (k.w.setK word.kd x.val) k.w.pc.next
    | none =>
      let v := val s k
      kDone (putSample s k v k.w.pc) k (k.w.setK word.kd v) k.w.pc.next

def execKtime (w : TWord) (s : State) : Host.Outcome State Fault Refusal :=
  runSample s 0x1A w fun s k => BitVec.ofNat 64 (tileNow s k.tc)

/-- The largest completion horizon among the engines. -/
def engineHor (t : TileCore) : Nat := (t.walkers.take 4).foldl (fun (m : Nat) (w : Walker) => max m w.ch) 0

def execKwch (w : TWord) (s : State) : Host.Outcome State Fault Refusal :=
  runSample s 0x1B w fun _ k => BitVec.ofNat 64 (engineHor k.t)

/-- Issue a walker's reads of sectors: those at hand now, fills for the rest (R84, R100). -/
def askSectors (s : State) (k : TCtx) (secs : List Nat) : State :=
  let i := s.fresh
  let o : PendOp :=
    { wid := 0, core := k.core, ctx := k.x, kind := .tile k.tc k.e, dst := .discard, flag := none, lanes := [], got := [],
      answers := [], order := secs, wct := 0, issue := tileNow s k.tc, result := [], back := none }
  let s1 := readSectors (i.2.setOp i.1 o) i.1 k.core (cardPid s k.x.card) k.w.tf k.agent (some k.x) secs
  setWalkerAt s1 k.tc k.e fun w => { w with asked := some i.1 }

/-- The reads of a walker, once every sector is at hand. -/
def askedDone (s : State) (w : Walker) : Option PendOp :=
  match w.asked with
  | some i =>
    match s.ops.find i with
    | some o => if o.order.all fun x => (o.got.find x).isSome then some o else none
    | none => none
  | none => none

/-- The bytes at a physical address of sectors read, and whether any is poisoned. -/
def gotBytes (got : Tbl Sec) (pa n : Nat) : List Byte × Bool :=
  let l := (List.range n).map fun i =>
    match got.find ((pa + i) / 64) with
    | some x => (x.data.getD ((pa + i) % 64) 0, x.poison)
    | none => (0, false)
  (l.map (·.1), l.any fun e => e.2)

def kldVa (k : TCtx) (word : TWord) : Nat := (k.w.kr word.ka + BitVec.ofInt 64 word.imm).toNat

/-- KLD by the sampling walker: its address checked and translated, its sector read. -/
def kldSample (s : State) (k : TCtx) (word : TWord) : State :=
  let va := kldVa k word
  if va % 8 ≠ 0 then tFault s k { code := tALIGN, detail := 3, addr := va }
  else
    match translate s (k.space s) va .read with
    | (.trap c r, s1) => tFault s1 k { code := c, detail := r, addr := va }
    | (.wait, s1) => s1
    | (.ok pa, s1) =>
      match askedDone s1 k.w with
      | some o =>
        let b := gotBytes o.got pa 8
        if b.2 then tFault s1 k { code := tECC, detail := 0, addr := 64 * secOf pa }
        else
          let v : DWord := BitVec.ofNat 64 (leNat b.1)
          kDone (putSample (dropAsked s1 k.w) k v k.w.pc) k (k.w.setK word.kd v) k.w.pc.next
      | none => if k.w.asked.isSome then s1 else askSectors s1 k [secOf pa]

def execKld (w : TWord) (s : State) : Host.Outcome State Fault Refusal :=
  runTile s 0x1C w fun s k =>
    match sampleFor k with
    | some x => kDone (takeSample s k) k (k.w.setK w.kd x.val) k.w.pc.next
    | none => if samplerBusy k then tWait s k else kldSample s k w

/-- A walker's wait for an overlay (R207), after a resolution without an answer. -/
def overlayWait (s : State) (k : TCtx) (r : RRes) : State :=
  match r with
  | .trap c => tFault s k c
  | .loading b => tWait (setWalkerAt s k.tc k.e fun w => { w with ovWait := some b, ovFirst := none }) k
  | .place o im n =>
    tWait (setWalkerAt s k.tc k.e fun w => { w with ovFirst := some (wantOf w.ovFirst (tileNow s k.tc) o im n) }) k
  | _ => s

/-- A resolution can be used by another walker: its overlay stays pinned (R214). -/
def samplePinned (s : State) (k : TCtx) (a : OvAddr) : Bool :=
  match tokCurrent s k.core k.x.card k.x.gen a.tok with
  | some o => ovlPinned s k.core o
  | none => false

/-- KOCALL and KRET: the resolution is sampled, and the walker transfers with its replica as given. One that comes when the overlay
is no longer pinned resolves for itself. -/
def kTransfer (s : State) (k : TCtx) (dest : DWord) (w : Walker) : State :=
  let own := fun (f : State → OvAddr → State) =>
    match resolve s k.core k.x.card k.x.gen (ovAddr dest) false (k.w.ovFirst.map fun (x : OvWant) => x.first) with
    | (.ok a, s1) => sweepOvls (kDone (f s1 a) k w a) k.core
    | (r, s1) => overlayWait s1 k r
  match sampleFor k with
  | some x =>
    if samplePinned s k x.dest then sweepOvls (kDone (takeSample s k) k w x.dest) k.core
    else own fun a _ => takeSample a k
  | none => own fun a d => putSample a k 0 d

def execKocall (w : TWord) (s : State) : Host.Outcome State Fault Refusal :=
  runTile s 0x18 w fun s k =>
    kTransfer s k (k.w.kr w.ka) (k.w.setK w.kd (BitVec.ofNat 64 k.w.pc.next.num))

def execKret (w : TWord) (s : State) : Host.Outcome State Fault Refusal :=
  runTile s 0x19 w fun s k => kTransfer s k (k.w.kr w.ka) k.w

/-! ## The fetch of a word (R206, R213, R214, R309) -/

/-- What a walker's fetch gives: a word, or the turn's whole effect. -/
inductive TFetch
  | word (v : DWord) (s : State)
  | done (s : State)

/-- Every walker that stands at an address stands at another. -/
def movePcs (s : State) (tc : Nat) (old new : OvAddr) (entry : Bool) : State :=
  match s.tiles.find tc with
  | some t =>
    s.setTile tc { t with entry := entry, walkers := t.walkers.map fun (w : Walker) =>
      if w.pc = old then { w with pc := new, ovFirst := none, ovWait := none } else w }
  | none => s

def noWord : TWord :=
  { high := 0, tag := 0, popP := 0, popN := 0, pushP := 0, pushN := 0, rep := 0, step := 0, opa := 0, opb := 0 }

/-- The walker's program counter made current: the entry looked up, a stale token resolved. -/
def tileResolve (s : State) (k : TCtx) : State :=
  if k.t.entry ∧ k.w.pc.tok = 0 then
    match lookup s k.core k.x.card (relHdr s k.x.card 3).toNat with
    | (.ok (ovid, off), s1) => movePcs s1 k.tc k.w.pc { tok := coldTok ovid, off := off } true
    | (.error .wait, s1) => s1
    | (.error e, s1) => tFault s1 k e.cause
  else
    match resolve s k.core k.x.card k.x.gen k.w.pc k.t.entry (k.w.ovFirst.map fun (x : OvWant) => x.first) with
    | (.ok a, s1) => movePcs s1 k.tc k.w.pc a false
    | (r, s1) => overlayWait s1 k r

/-- A walker of the program stands in a page with an uncorrectable error: its engines stall until the page is read again (R198). -/
def fetchStalls (s : State) (tc : Nat) (t : TileCore) : Bool :=
  (istore s (tc + 32)).bad.any fun n => t.walkers.any fun (w : Walker) =>
    w.walks && decide (tokSlot w.pc.tok + w.pc.off / 4096 = n)

/-- A STOPPED walker of a program that is not stopped any more goes on (R325), but for one that has met the selected CKPT. -/
def wakeWalker (s : State) (tc e : Nat) : State :=
  match s.tiles.find tc with
  | some t =>
    match t.card with
    | some x =>
      if t.trapped || t.heldStop || t.restoring || decide (cardState s x.card ≠ stRunning) then s
      else
        setWalkerAt s tc e fun w =>
          if w.st = .stopped ∧ !((cardSt s x.card).preempt.isSome && decide (t.live.map (fun (y : Nat × Nat) => y.1) = some w.count)) then
            { w with st := .run }
          else w
    | none => s
  | none => s

/-- The word at a walker's program counter, where the checker forms its commands. -/
def tileFetch (s : State) (tc e : Nat) : TFetch :=
  let s := wakeWalker s tc e
  match s.tiles.find tc with
  | some t =>
    match t.card, t.walkers[e]? with
    | some x, some w =>
      let k : TCtx := { tc := tc, e := e, t := t, x := x, w := w, word := noWord }
      if !(tileTurn s tc e t x w) || fetchStalls s tc t then .done s
      else
        match tokCurrent s k.core x.card x.gen w.pc.tok with
        | none => .done (onlyFaults s (tileResolve s k))
        | some o =>
          if 4096 * o.npg ≤ w.pc.off then .done (tFault s k { code := tOVTOK, detail := 2 })
          else
            let g := stamp s
            let v := (istore s k.core).bytes.read64 (4096 * o.base + w.pc.off)
            let s1 := setOvl g.2 k.core { o with used := g.1 }
            .word v (if e = 4 ∧ tileGo s tc t x w ∧ w.count - minCount t < tileSlip s x.card then formHere s1 tc w v else s1)
    | _, _ => .done s
  | none => .done s

/-- The trap of a word whose opcode no row assigns (R328). -/
def tileEnc (s : State) (tc e : Nat) (word : TWord) : State :=
  match s.tiles.find tc with
  | some t =>
    match t.card, t.walkers[e]? with
    | some x, some w =>
      let k : TCtx := { tc := tc, e := e, t := t, x := x, w := w, word := word }
      if tileSlip s x.card ≤ w.count - minCount t then onlyFaults s (tWait s k)
      else tFault s k { code := tENC, detail := tEncUnassigned word }
    | _, _ => s
  | none => s

end Sys2Proof.Machine
end

