-- ==== Sys2Proof/Machine/TileMem.lean ====
section
/-! DEFINITION. Tile cores and memory (R77, R318 to R320, R330, R331, R334, R341 to R344, R351 to R354): handles, the load
words, the store words, signals and fences. -/

namespace Sys2Proof.Machine

/-! ## Descriptors (R318, R319) -/

def hdBase (d : List DWord) : Int := ((dwz d 0).toNat : Int)
def hdStride (d : List DWord) : Int := signExt (bits (dwz d 1) 47 0) 48
def hdLo0 (d : List DWord) : Int := signExt (bits (dwz d 2) 31 0) 32
def hdLo1 (d : List DWord) : Int := signExt (bits (dwz d 2) 63 32) 32
def hdHi0 (d : List DWord) : Int := signExt (bits (dwz d 3) 31 0) 32
def hdHi1 (d : List DWord) : Int := signExt (bits (dwz d 3) 63 32) 32
def hdSbase (d : List DWord) : Nat := (dwz d 4).toNat
def hdSstride (d : List DWord) : Int := signExt (bits (dwz d 5) 47 0) 48
def hdFmt (d : List DWord) : Nat := bits (dwz d 6) 3 0
def hdPad (d : List DWord) : Bool := bit (dwz d 6) 4
def hdRd (d : List DWord) : Bool := bit (dwz d 6) 5
def hdWr (d : List DWord) : Bool := bit (dwz d 6) 6
def hdSrow (d : List DWord) : Bool := bit (dwz d 6) 7

/-- Twice the bytes of an element: I8, I4, FP16, BF16, FP32, I24, A40. -/
def fmtSize2 (f : Nat) : Nat := [2, 1, 4, 4, 8, 6, 12].getD f 2

/-- EA of element (c0, c1). -/
def elemEa (d : List DWord) (c0 c1 : Int) : Int :=
  hdBase d + c1 * hdStride d + (c0 * (fmtSize2 (hdFmt d) : Int)) / 2

/-- Address of the scale of element (c0, c1). -/
def scaleEa (d : List DWord) (c0 c1 : Int) : Int :=
  (hdSbase d : Int) + (if hdSrow d then c1 else c1 / 128) * hdSstride d + 2 * (c0 / 128)

def min2 (f : Int → Int) (a b : Int) : Int := if f a < f b then f a else f b
def max2 (f : Int → Int) (a b : Int) : Int := if f a < f b then f b else f a

/-- Lowest and highest byte of an element in the box, and of the scale array. -/
def boxLow (d : List DWord) : Int := min2 (elemEa d (hdLo0 d)) (hdLo1 d) (hdHi1 d - 1)
def boxHigh (d : List DWord) : Int :=
  max2 (elemEa d (hdHi0 d - 1)) (hdLo1 d) (hdHi1 d - 1) + ((fmtSize2 (hdFmt d) + 1) / 2 - 1 : Nat)
def scaleLow (d : List DWord) : Int := min2 (scaleEa d (hdLo0 d)) (hdLo1 d) (hdHi1 d - 1)
def scaleHigh (d : List DWord) : Int := max2 (scaleEa d (hdHi0 d - 1)) (hdLo1 d) (hdHi1 d - 1) + 1

def canonInt (x : Int) : Bool := decide (0 ≤ x) && canonical x.toNat

/-- The checks of a descriptor at its bind. -/
def descOk (d : List DWord) : Bool :=
  decide (bits (dwz d 1) 63 48 = 0 ∧ bits (dwz d 5) 63 48 = 0 ∧ bits (dwz d 6) 63 8 = 0 ∧ dwz d 7 = 0) &&
    decide (hdFmt d ≤ 6 ∧ hdLo0 d < hdHi0 d ∧ hdLo1 d < hdHi1 d) &&
    (decide (hdFmt d ≠ 1) || decide (hdLo0 d % 2 = 0 ∧ hdHi0 d % 2 = 0)) &&
    canonInt (hdBase d) && decide (hdBase d ≤ boxLow d) && canonInt (boxLow d) && canonInt (boxHigh d) &&
    (decide (hdSbase d = 0) ||
      (canonical (hdSbase d) && decide (hdSbase d % 2 = 0 ∧ (hdSbase d : Int) ≤ scaleLow d) && canonInt (scaleLow d) &&
        canonInt (scaleHigh d)))

/-! ## Binding (R77, R320, R341) -/

/-- Pages from an address to a last byte. -/
def pageCount (lo hi : Nat) : Nat := hi / 4096 - lo / 4096 + 1
def bindCount (d : List DWord) : Nat :=
  pageCount (hdBase d).toNat (boxHigh d).toNat + (if hdSbase d = 0 then 0 else pageCount (hdSbase d) (scaleHigh d).toNat)

/-- The first address of each page from an address to a last byte. -/
def pageStarts (lo n : Nat) : List Nat := (List.range n).map fun i => if i = 0 then lo else 4096 * (lo / 4096 + i)

def bindVas (d : List DWord) : List Nat :=
  let b := (hdBase d).toNat
  pageStarts b (pageCount b (boxHigh d).toNat) ++
    (if hdSbase d = 0 then [] else pageStarts (hdSbase d) (pageCount (hdSbase d) (scaleHigh d).toNat))

def handleAcc (d : List DWord) : Acc :=
  if hdRd d then (if hdWr d then .rw else .read) else if hdWr d then .write else .look

/-- Frames by virtual page number, and the 4 KiB pages of a translation that is not of one. -/
abbrev PageMap := Tbl Nat × Tbl Nat

/-- Translate pages in order; what stops the first that fails. -/
def mapPages (s : State) (sp : Space) (a : Acc) : List Nat → PageMap → (Except (Option Cause) PageMap) × State
  | [], t => (.ok t, s)
  | va :: l, t =>
    match translate s sp va a with
    | (.ok pa, s1) =>
      let n := spanOf s1 sp va
      mapPages s1 sp a l (t.1.set (va / 4096) (pa / 4096), if n = 1 then t.2.del (va / 4096) else t.2.set (va / 4096) n)
    | (.trap c r, s1) => (.error (some { code := c, detail := r, addr := va }), s1)
    | (.wait, s1) => (.error none, s1)

/-- Bind a descriptor: the handle, a fault, or a wait for a first touch. -/
def bindDesc (s : State) (sp : Space) (used va : Nat) (d : List DWord) : (Except (Option Cause) Handle) × State :=
  if !(descOk d) then (.error (some { code := tTFMT, detail := 1, addr := va }), s)
  else if 2048 < used + bindCount d then (.error (some { code := tTFMT, detail := 2, addr := va }), s)
  else
    match mapPages s sp (handleAcc d) (bindVas d) ([], []) with
    | (.ok t, s1) => (.ok { va := va, desc := d, pages := t.1, entries := bindCount d, marked := [], span := t.2 }, s1)
    | (.error e, s1) => (.error e, s1)

def entriesUsed (t : TileCore) : Nat := t.handles.foldl (fun (n : Nat) e => n + e.2.entries) 0

/-- Commands of other engines that use a handle are in flight (R77). -/
def handleUsed (k : TCtx) (h : Nat) : Bool :=
  (List.range 5).any fun e => decide (e ≠ k.e) && (match k.t.walkers[e]? with
    | some w => w.inFlight h
    | none => false)

def setHandles (s : State) (tc : Nat) (f : Tbl Handle → Tbl Handle) : State :=
  match s.tiles.find tc with
  | some t => s.setTile tc { t with handles := f t.handles }
  | none => s

def tbindRep (s : State) (k : TCtx) : State :=
  let h := fld k.word.opa 11 6
  let va := (k.w.kr k.word.kb).toNat
  if handleUsed k h then tWait s k
  else
    let s0 := setHandles s k.tc fun t => t.del h
    if va % 64 ≠ 0 then tFault s0 k { code := tALIGN, detail := 6, addr := va }
    else
      match translate s0 (k.space s0) va .read with
      | (.trap c r, s1) => tFault s1 k { code := c, detail := r, addr := va }
      | (.wait, s1) => s1
      | (.ok pa, s1) =>
        match askedDone s1 k.w with
        | none => if k.w.asked.isSome then s1 else askSectors s1 k [secOf pa]
        | some o =>
          let b := gotBytes o.got pa 64
          if b.2 then tFault s1 k { code := tECC, detail := 0, addr := 64 * secOf pa }
          else
            let d := (List.range 8).map fun i => (BitVec.ofNat 64 (leNat ((b.1.drop (8 * i)).take 8)) : DWord)
            let used := match s1.tiles.find k.tc with
              | some t => entriesUsed t
              | none => 0
            match bindDesc s1 (k.space s1) used va d with
            | (.ok x, s2) => tRep (setHandles s2 k.tc fun t => t.set h x) k
            | (.error (some c), s2) => tFault s2 k c
            | (.error none, s2) => s2

def execTbind (w : TWord) (s : State) : Host.Outcome State Fault Refusal := runTile s 0x20 w tbindRep

def tunbindRep (s : State) (k : TCtx) : State :=
  let h := fld k.word.opa 11 6
  if handleUsed k h then tWait s k else tRep (setHandles s k.tc fun t => t.del h) k

def execTunbind (w : TWord) (s : State) : Host.Outcome State Fault Refusal := runTile s 0x21 w tunbindRep

/-! ## Handle operands (R316, R317, R330) -/

/-- A run of elements of one handle row: the first c0, how many, and c1. -/
structure Run where
  c0 : Int
  n : Nat
  c1 : Int
  deriving DecidableEq, Repr

def hndOf (f : BitVec 12) : Nat := fld f 11 6
def tHndK (k : TCtx) (f : BitVec 12) : DWord := k.w.kr (fld f 5 1)
def hndC0 (k : TCtx) (f : BitVec 12) : Int := signExt (bits (tHndK k f) 31 0) 32
/-- c1 advanced by the repetition in a unit of rows. -/
def hndC1 (k : TCtx) (f : BitVec 12) (unit : Int) : Int := signExt (bits (tHndK k f) 63 32) 32 + unit * k.step
def coordOk (c : Int) : Bool := decide (-(2 ^ 31) ≤ c ∧ c < 2 ^ 31)

def Run.inside (r : Run) (d : List DWord) : Bool :=
  decide (hdLo1 d ≤ r.c1 ∧ r.c1 < hdHi1 d ∧ hdLo0 d ≤ r.c0 ∧ r.c0 + r.n ≤ hdHi0 d)

def elemIn (d : List DWord) (c0 c1 : Int) : Bool :=
  decide (hdLo0 d ≤ c0 ∧ c0 < hdHi0 d ∧ hdLo1 d ≤ c1 ∧ c1 < hdHi1 d)

/-- The elements of a run that lie in the box: the first c0 and how many. -/
def Run.part (r : Run) (d : List DWord) : Option (Int × Nat) :=
  let lo := if r.c0 < hdLo0 d then hdLo0 d else r.c0
  let hi := if hdHi0 d < r.c0 + r.n then hdHi0 d else r.c0 + r.n
  if lo < hi ∧ hdLo1 d ≤ r.c1 ∧ r.c1 < hdHi1 d then some (lo, (hi - lo).toNat) else none

/-- Virtual addresses of the bytes of a run in the box: the first and how many. -/
def Run.range (r : Run) (d : List DWord) : Option (Nat × Nat) :=
  (r.part d).map fun p => ((elemEa d p.1 r.c1).toNat, (p.2 * fmtSize2 (hdFmt d) + 1) / 2)

/-- Steps 2 to 7 of R330 for a handle operand. -/
def handleChecks (t : TileCore) (h : Nat) (fmts : List Nat) (fileOk write rangeOk : Bool) (runs : List Run) :
    Except Cause Handle :=
  match t.handles.find h with
  | none => .error { code := tTFMT, detail := 3 }
  | some x =>
    if !(fmts.contains (hdFmt x.desc)) || !fileOk then .error { code := tTFMT, detail := 4 }
    else if !write && !(hdRd x.desc) then .error { code := tPERM, detail := 2 }
    else if write && !(hdWr x.desc) then .error { code := tPERM, detail := 3 }
    else if !rangeOk then .error { code := tTADDR, detail := 2 }
    else if decide (hdFmt x.desc = 1) && runs.any fun (r : Run) => decide (r.c0 % 2 ≠ 0) then .error { code := tTADDR, detail := 3 }
    else if !(hdPad x.desc && !write) && !(runs.all fun (r : Run) => r.inside x.desc) then .error { code := tTADDR, detail := 1 }
    else .ok x

/-- The physical address of a byte in a bound handle's footprint. -/
def Handle.pa (x : Handle) (va : Nat) : Nat := (x.pages.find (va / 4096)).getD 0 * 4096 + va % 4096

/-- Step 8 of R330: the pages of a handle that a shoot-down has marked are translated again at the next command that uses the handle
(R77), in the order of its bind. -/
def remapMarked (s : State) (k : TCtx) (h : Nat) (x : Handle) : (Except (Option Cause) Handle) × State :=
  if x.marked = [] then (.ok x, s)
  else
    match mapPages s (k.space s) (handleAcc x.desc) ((bindVas x.desc).filter fun va => x.marked.contains (va / 4096)) (x.pages, x.span) with
    | (.ok t, s1) =>
      let y := { x with pages := t.1, span := t.2, marked := [] }
      (.ok y, setHandles s1 k.tc fun t => t.set h y)
    | (.error e, s1) => (.error e, s1)

/-- Sectors of ranges of virtual addresses. -/
def rangeSecs (x : Handle) (ranges : List (Nat × Nat)) : List Nat :=
  ranges.foldl (fun (a : List Nat) r =>
    (List.range ((r.1 + r.2 - 1) / 64 - r.1 / 64 + 1)).foldl (fun (a : List Nat) i =>
      insertNat (secOf (x.pa (64 * (r.1 / 64 + i)))) a) a) []

/-- Fail a repetition, or wait. -/
def tStop (s : State) (k : TCtx) (e : Option Cause) : State :=
  match e with
  | some c => tFault s k c
  | none => s

/-- Read ranges through a handle, then go on with the sectors. -/
def withReads (s : State) (k : TCtx) (h : Nat) (x : Handle) (ranges : List (Nat × Nat))
    (f : State → Tbl Sec → Handle → State) : State :=
  match askedDone s k.w with
  | some o => f s o.got x
  | none =>
    if k.w.asked.isSome then s
    else
      match remapMarked s k h x with
      | (.error e, s1) => tStop s1 k e
      | (.ok y, s1) =>
        setWalkerAt (askSectors s1 k (rangeSecs y ranges)) k.tc k.e fun w => { w with uses := some h }

/-- The bytes of a run from the sectors read: zero outside the box; with each its poison. -/
def runBytes (x : Handle) (got : Tbl Sec) (r : Run) : List (Byte × Bool) :=
  let d := x.desc
  let z := fmtSize2 (hdFmt d)
  let at_ := elemEa d r.c0 r.c1
  (List.range (r.n * z / 2)).map fun b =>
    if elemIn d (r.c0 + ((2 * b / z : Nat) : Int)) r.c1 then
      let pa := x.pa (at_ + (b : Int)).toNat
      match got.find (secOf pa) with
      | some y => if y.poison then (0, true) else (y.data.getD (pa % 64) 0, false)
      | none => (0, false)
    else (0, false)

/-- The physical address of the first poisoned sector of those read. -/
def firstBad (got : Tbl Sec) : Option Nat := (got.find? fun e => e.2.poison).map fun e => 64 * e.1

/-- Note ECC for the retirement of the word (R334). -/
def noteEcc (s : State) (k : TCtx) (a : Option Nat) : State :=
  match a with
  | some pa => setWalkerAt s k.tc k.e fun w => { w with ecc := some (w.ecc.getD pa) }
  | none => s

/-! ## Accumulator rows (R44 to R46, R331, R334) -/

def rowAt (r : Nat) : Nat := 768 * r

/-- Write bytes into the accumulator store; a slot written whole loses its uncorrectable error. -/
def accPut (t : TileCore) (at_ : Nat) (bs : List Byte) : TileCore :=
  { t with
    acc := t.acc.writeN at_ bs
    bad := t.bad.filter fun n => !(decide (at_ ≤ 6 * n ∧ 6 * n + 6 ≤ at_ + bs.length)) }

/-- Set DEAD in the slot that holds a byte of the store. -/
def setDead (t : TileCore) (at_ : Nat) : TileCore :=
  let f := 6 * (at_ / 6) + 5
  { t with acc := t.acc.write f (t.acc.read f ||| 0x20) }

/-- Write bytes of a row, with DEAD in every slot that a poisoned byte occupies. -/
def rowPut (t : TileCore) (r : Nat) (bs : List (Byte × Bool)) : TileCore :=
  let t1 := accPut t (rowAt r) (bs.map (·.1))
  ((List.range bs.length).zip bs).foldl (fun (a : TileCore) e => if e.2.2 then setDead a (rowAt r + e.1) else a) t1

def accBad (t : TileCore) (row slot : Nat) : Bool := t.bad.contains (128 * row + slot)
def accSlot (t : TileCore) (row slot : Nat) : Nat := leNat (t.acc.readN (rowAt row + 6 * slot) 6)

/-- An ACC operand as a row or column of slots (R316): none when out of range after the step. -/
inductive AccAt
  | row (r : Nat)
  | col (tile j : Nat)
  deriving DecidableEq, Repr

/-- The row or slice an ACC field names, advanced by a step; a k register is signed (R37). -/
def accAt (k : TCtx) (f : BitVec 12) (step : Int) : Option AccAt :=
  if fld f 11 11 = 0 then
    let r := (fld f 10 0 : Int) + step
    if 0 ≤ r ∧ r ≤ 2047 then some (.row r.toNat) else none
  else
    let j := (k.w.kr (fld f 5 1)).toInt + (fld f 0 0 : Int) + step
    if 0 ≤ j ∧ j ≤ 127 then
      some (if fld f 6 6 = 0 then .row (128 * fld f 10 7 + j.toNat) else .col (fld f 10 7) j.toNat)
    else none

def AccAt.theRow : AccAt → Nat
  | .row r => r
  | .col t _ => 128 * t

/-- Row and slot of element m of an operand. -/
def AccAt.slot (a : AccAt) (m : Nat) : Nat × Nat :=
  match a with
  | .row r => (r, m)
  | .col t j => (128 * t + m, j)

def putTile (s : State) (k : TCtx) (f : TileCore → TileCore) : State :=
  match s.tiles.find k.tc with
  | some t => s.setTile k.tc (f t)
  | none => s

/-! ## LDR and LPF (R343, R344) -/

/-- An FP32 element as a whole A40 slot with flag byte 0; a signalling NaN sets INV. -/
def fp32Slot (x : Nat) : List Byte :=
  let r := Fmt.a40.ofVal .rne (Fmt.fp32.decode x)
  leBytes 6 (r.1 + 2 ^ 40 * (r.2 % 2))

/-- Bytes in fours or sixes. -/
def chunks (n : Nat) (l : List (Byte × Bool)) (count : Nat) : List (List (Byte × Bool)) :=
  (List.range count).map fun i => (l.drop (n * i)).take n

/-- What a row of a handle writes into an accumulator row. -/
def ldrBytes (fmt : Nat) (bs : List (Byte × Bool)) : List (Byte × Bool) :=
  if fmt = 4 then
    (chunks 4 bs 128).flatMap fun c =>
      let bad := c.any fun e => e.2
      (fp32Slot (if bad then 0 else leNat (c.map (·.1)))).map fun b => (b, bad)
  else if fmt = 6 then
    (chunks 6 bs 128).flatMap fun c =>
      let bad := c.any fun e => e.2
      (leBytes 6 (if bad then 0 else leNat (c.map (·.1)) % 2 ^ 46)).map fun b => (b, bad)
  else if fmt = 1 ∨ fmt = 0 then bs
  else
    let z := fmtSize2 fmt / 2
    (chunks z bs 128).flatMap fun c =>
      let bad := c.any fun e => e.2
      c.map fun e => (if bad then 0 else e.1, bad)

def ldrRep (s : State) (k : TCtx) : State :=
  let f := k.word.opa
  let r : Run := { c0 := hndC0 k f, n := 128, c1 := hndC1 k f 1 }
  let row := accAt k k.word.opb k.step
  match handleChecks k.t (hndOf f) [0, 1, 2, 3, 4, 5, 6] true false (coordOk r.c1 && row.isSome) [r] with
  | .error c => tFault s k c
  | .ok x =>
    withReads s k (hndOf f) x (r.range x.desc).toList fun s got x =>
      let bs := ldrBytes (hdFmt x.desc) (runBytes x got r)
      tRep (noteEcc (putTile s k fun t => rowPut t (row.getD (.row 0)).theRow bs) k
        (if bs.any fun e => e.2 then firstBad got else none)) k

def execLdr (w : TWord) (s : State) : Host.Outcome State Fault Refusal := runTile s 0x23 w ldrRep

/-- The lines of a row are requested into the staging L1; nothing for a row that would fault. -/
def lpfRep (s : State) (k : TCtx) : State :=
  let f := k.word.opa
  let r : Run := { c0 := hndC0 k f, n := 128, c1 := hndC1 k f 1 }
  match handleChecks k.t (hndOf f) [0, 1, 2, 3, 4, 5, 6] true false (coordOk r.c1) [r] with
  | .error c => if c.code = tTADDR then tRep s k else tFault s k c
  | .ok x =>
    match remapMarked s k (hndOf f) x with
    | (.error (some _), _) => tRep s k
    | (.error none, s1) => s1
    | (.ok y, s1) =>
      let lines := (rangeSecs y (r.range x.desc).toList).foldl (fun (a : List Nat) q => insertNat (q / 8) a) []
      let secs := lines.flatMap fun l => (List.range 8).map fun i => 8 * l + i
      tRep (secs.foldl (fun (a : State) q =>
        if (leaseHit (l1Of a k.core) q (tileNow a k.tc) k.w.tf).isSome then a
        else issueFill a k.agent (cardPid a k.x.card) (some k.x) k.core q k.w.tf none) s1) k

def execLpf (w : TWord) (s : State) : Host.Outcome State Fault Refusal := runTile s 0x24 w lpfRep

/-! ## LDW (R342) -/

/-- K rows of a weight block by FMT, and the format code of the file. -/
def fileK (fmt : Nat) : Nat := if fmt = 0 then 128 else if fmt = 1 then 256 else 64
def WFile.none : WFile := { bytes := [], fmt := 0, sw0 := 0, sw1 := 0, poison := [] }

def ldwRuns (c0 c1 : Int) (fmt : Nat) : List Run :=
  (List.range (fileK fmt)).map fun (i : Nat) => { c0 := c0, n := 128, c1 := c1 + (i : Int) }

/-- Address of the scale of a half of the block; none when no element of it lies in the box or there is no array. -/
def halfScale (d : List DWord) (runs : List Run) (h : Nat) : Option Nat :=
  if hdSbase d = 0 then none
  else
    ((runs.drop (128 * h)).take 128).findSome? fun (r : Run) => (r.part d).map fun p => (scaleEa d p.1 r.c1).toNat

/-- The scales that an LDW reads. -/
def ldwScales (d : List DWord) (runs : List Run) : List (Option Nat) :=
  if hdFmt d = 0 then [halfScale d runs 0] else if hdFmt d = 1 then [halfScale d runs 0, halfScale d runs 1] else []

/-- A scale from the sectors read, and whether it is poisoned, which reads as zero. Its two bytes may lie in two pages. -/
def gotScale (x : Handle) (got : Tbl Sec) (va : Option Nat) : Nat × Bool :=
  match va with
  | none => (0x7F00, false)
  | some v =>
    let l := gotBytes got (x.pa v) 1
    let h := gotBytes got (x.pa (v + 1)) 1
    if l.2 || h.2 then (0, true) else (leNat (l.1 ++ h.1), false)

/-- Indices of the elements of row i of a block whose bytes are poisoned. -/
def rowPoison (fmt i : Nat) (bs : List (Byte × Bool)) : List Nat :=
  (List.range 128).filterMap fun n =>
    let z := fmtSize2 fmt
    let at_ := n * z / 2
    if (bs.getD at_ (0, false)).2 || (decide (2 < z) && (bs.getD (at_ + 1) (0, false)).2) then some (128 * i + n) else none

/-- The elements of a block that scale h scales (R54, R342). -/
def scaledElems (h : Nat) : List Nat := (List.range 16384).map fun i => 16384 * h + i

def buildFile (x : Handle) (got : Tbl Sec) (runs : List Run) : WFile × Bool :=
  let fmt := hdFmt x.desc
  let rows := runs.map fun r => runBytes x got r
  let sc := (ldwScales x.desc runs).map (gotScale x got)
  let bytes := (rows.flatMap fun l => l.map (·.1))
  let bad := ((List.range rows.length).zip rows).flatMap fun e => rowPoison fmt e.1 e.2
  let s0 := sc.getD 0 (0, false)
  let s1 := sc.getD 1 (0, false)
  ({ bytes := Mem.writeN [] 0 bytes, fmt := if fmt = 0 then 1 else if fmt = 1 then 2 else if fmt = 2 then 3 else 4,
     sw0 := s0.1, sw1 := s1.1
     poison := bad ++ (if s0.2 then scaledElems 0 else []) ++ if s1.2 then scaledElems 1 else [] },
   !bad.isEmpty || s0.2 || s1.2)

def ldwRep (s : State) (k : TCtx) : State :=
  let f := k.word.opa
  let fmt := match k.t.handles.find (hndOf f) with
    | some x => hdFmt x.desc
    | none => 0
  let runs := ldwRuns (hndC0 k f) (hndC1 k f 1) fmt
  match handleChecks k.t (hndOf f) [0, 1, 2, 3] true false true runs with
  | .error c => tFault s k c
  | .ok x =>
    let ranges := runs.filterMap (fun (r : Run) => r.range x.desc) ++
      (ldwScales x.desc runs).filterMap fun v => v.map fun a => (a, 2)
    withReads s k (hndOf f) x ranges fun s got x =>
      let b := buildFile x got runs
      tRep (noteEcc (putTile s k fun t => { t with wf := setAt t.wf (fld k.word.opb 0 0) b.1 }) k
        (if b.2 then firstBad got else none)) k

def execLdw (w : TWord) (s : State) : Host.Outcome State Fault Refusal := runTile s 0x22 w ldwRep

/-! ## SST, SREDI and SREDF (R351, R352) -/

/-- The bytes that a row gives a store by FMT, with what covers an uncorrectable slot. -/
def sstBytes (t : TileCore) (r fmt : Nat) : List (Byte × Bool) :=
  if fmt = 4 then
    (List.range 128).flatMap fun j =>
      (leBytes 4 (Fmt.fp32.ofVal .rne (Fmt.a40.decode (accSlot t r j % 2 ^ 40))).1).map fun b => (b, accBad t r j)
  else if fmt = 6 then
    (List.range 128).flatMap fun j => (leBytes 6 (accSlot t r j % 2 ^ 46)).map fun b => (b, accBad t r j)
  else
    (List.range (128 * fmtSize2 fmt / 2)).map fun i => (t.acc.read (rowAt r + i), accBad t r (i / 6))

/-- Requests of the S engine carry a number of their own for the memory system's order. -/
def sCore (tc : Nat) : Nat := 300 + tc

/-- Engine writes of bytes at virtual addresses of a handle, grouped by sector. -/
def sWrites (s : State) (k : TCtx) (x : Handle) (va : Nat) (bs : List (Byte × Bool)) : State :=
  let l := ((List.range bs.length).zip bs).map fun e => (x.pa (va + e.1), e.2.1, e.2.2)
  let secs := l.foldl (fun (a : List Nat) e => insertNat (secOf e.1) a) []
  secs.foldl (fun (a : State) q =>
    let here := l.filter fun e => decide (secOf e.1 = q)
    issueEngine a k.agent (32 + k.tc) (cardPid a k.x.card) (some k.x) k.die (sCore k.tc) q
      (here.map fun e => (e.1, e.2.1)) (here.any fun e => e.2.2) none) s

/-- The slots of a row that the first bytes of the row take. -/
def slotsOf (bytes : Nat) : Nat := (bytes + 5) / 6

/-- How many slots of its row an SST by FMT reads (R351). -/
def sstSlots (fmt : Nat) : Nat := if fmt = 4 ∨ fmt = 6 then 128 else slotsOf (128 * fmtSize2 fmt / 2)

/-- Checks and translations of a row store, and then its effect; an uncorrectable slot that it reads raises ECC (R334). -/
def storeRow (s : State) (k : TCtx) (fmts : List Nat) (slots : Nat → Nat) (f : State → Handle → Nat → Nat → State) : State :=
  let h := hndOf k.word.opa
  let r : Run := { c0 := hndC0 k k.word.opa, n := 128, c1 := hndC1 k k.word.opa 1 }
  let row := accAt k k.word.opb k.step
  match handleChecks k.t h fmts true true (coordOk r.c1 && row.isSome) [r] with
  | .error c => tFault s k c
  | .ok x =>
    match remapMarked s k h x with
    | (.error e, s1) => tStop s1 k e
    | (.ok y, s1) =>
      let n := (row.getD (.row 0)).theRow
      let s2 := f s1 y (elemEa y.desc r.c0 r.c1).toNat n
      let s3 := setWalkerAt s2 k.tc k.e fun w => { w with uses := some h }
      let bad := (List.range (slots (hdFmt y.desc))).any fun j => accBad k.t n j
      tRep (noteEcc s3 k (if bad then some 0 else none)) k

def sstRep (s : State) (k : TCtx) : State :=
  storeRow s k [0, 1, 2, 3, 4, 5, 6] sstSlots fun s x va n => sWrites s k x va (sstBytes k.t n (hdFmt x.desc))

def execSst (w : TWord) (s : State) : Host.Outcome State Fault Refusal := runTile s 0x60 w sstRep

/-- The request of a reduction of an element at virtual address va: its bytes may lie in two sectors, and in two pages. -/
def redAt (x : Handle) (va : Nat) (op : RedOp) (v : DWord) : ReqKind :=
  if secOf (x.pa va) = secOf (x.pa (va + 3)) then .red op false 4 (x.pa va) v
  else .redAcross op false ((List.range 4).map fun j => x.pa (va + j)) v

/-- One reduction an element; an element from an uncorrectable slot marks the sectors it covers poisoned instead. -/
def sReds (s : State) (k : TCtx) (x : Handle) (va : Nat) (op : RedOp) (val : Nat → DWord) (bad : Nat → Bool) : State :=
  (List.range 128).foldl (fun (a : State) i =>
    let at_ := va + 4 * i
    if bad i then
      ([x.pa at_, x.pa (at_ + 3)].foldl (fun (l : List Nat) pa => insertNat (secOf pa) l) []).foldl (fun (b : State) n =>
        issueEngine b k.agent (32 + k.tc) (cardPid b k.x.card) (some k.x) k.die (sCore k.tc) n [] true none) a
    else
      issueReq a k.agent (32 + k.tc) (cardPid a k.x.card) (some k.x) k.die (sCore k.tc) (redAt x at_ op (val i))
        (secOf (x.pa at_)) 0 none) s

def i24At (t : TileCore) (row lane : Nat) : Nat := leNat (t.acc.readN (rowAt row + 3 * lane) 3)

def srediRep (s : State) (k : TCtx) : State :=
  storeRow s k [4] (fun _ => slotsOf 384) fun s x va n =>
    sReds s k x va .add (fun i => BitVec.ofNat 64 (narrow (signExt (i24At k.t n i) 24) 32)) fun i => accBad k.t n (i / 2)

def sredfRep (s : State) (k : TCtx) : State :=
  storeRow s k [4] (fun _ => 128) fun s x va n =>
    sReds s k x va .fadd (fun i =>
      BitVec.ofNat 64 (Fmt.fp32.ofVal .rne (Fmt.a40.decode (accSlot k.t n i % 2 ^ 40))).1) fun i => accBad k.t n i

def execSredi (w : TWord) (s : State) : Host.Outcome State Fault Refusal := runTile s 0x61 w srediRep
def execSredf (w : TWord) (s : State) : Host.Outcome State Fault Refusal := runTile s 0x62 w sredfRep

/-! ## Fences and signals (R95, R100, R353, R354) -/

/-- No write or reduction of the program's engine is on its way, from this tile core or from one that the program was saved on. -/
def engineDrained (s : State) (k : TCtx) : Bool :=
  !(s.ms.reqs.any fun (q : Req) => decide (q.ctx = some k.x) && (q.kind.isWrite || q.kind.isEngine) &&
    (match q.agent with
     | .teng _ e => decide (e = k.e)
     | _ => false))

/-- A drained engine's horizon covers its returned writes (R102, R354). -/
def Walker.drain (w : Walker) : Walker := { w with ch := max w.ch w.wct }

def tfenceRep (s : State) (k : TCtx) : State :=
  let scope := fld k.word.opa 2 0
  if !(engineDrained s k) then s
  else
    let w := k.w.drain
    let t := tileNow s k.tc
    let ok := if scope ≤ 2 then true else if scope = 3 then decide (w.ch ≤ t + 8) else decide (w.ch ≤ t)
    if !ok then putWalker s k w
    else tRep (putWalker s k (if fld k.word.opa 3 3 = 1 then { w with tf := t } else w)) k

def execTfence (w : TWord) (s : State) : Host.Outcome State Fault Refusal := runTile s 0x70 w tfenceRep

/-- What the answer to a signal gives. -/
def signalAnswer (s : State) (k : TCtx) (va : Nat) (a : LAns) : State :=
  match a.trap with
  | some (c, d) => tFault s k { code := c, detail := d, addr := va }
  | none =>
    if a.status = stOK then tRep (setWalkerAt s k.tc k.e fun w => { w with ans := none }) k
    else tFault s k { code := tQERR, detail := 6, addr := va }

def sqsigRep (s : State) (k : TCtx) : State :=
  let va := (k.w.kr k.word.kd).toNat
  match k.w.ans with
  | some a => signalAnswer s k va a
  | none =>
    if k.w.sent then s
    else if !(engineDrained s k) then s
    else
      let w := k.w.drain
      let s0 := putWalker s k w
      if tileNow s k.tc < w.ch then s0
      else if va % 64 ≠ 0 then tFault s0 k { code := tALIGN, detail := 6, addr := va }
      else
        match translate s0 (k.space s0) va .read with
        | (.trap c r, s1) => tFault s1 k { code := c, detail := r, addr := va }
        | (.wait, s1) => s1
        | (.ok pa, s1) =>
          let elem := wordsBytes [k.w.kr k.word.ka, k.w.kr k.word.kb]
          let s2 := sendLeat s1 pa (.tile k.tc) (.enq elem) false 0 none (some k.x) (some (cardPid s1 k.x.card))
          setWalkerAt s2 k.tc k.e fun w => { w with sent := true }

def execSqsig (w : TWord) (s : State) : Host.Outcome State Fault Refusal := runTile s 0x63 w sqsigRep

/-! ## Words of several engines (R355) -/

def execTtok (w : TWord) (s : State) : Host.Outcome State Fault Refusal := runTile s 0x71 w tAll
def execTnop (w : TWord) (s : State) : Host.Outcome State Fault Refusal := runTile s 0x72 w tAll

end Sys2Proof.Machine
end

