-- ==== Sys2Proof/Machine/TileMul.lean ====
section
/-! DEFINITION. The X and V words of tile cores (R43 to R56, R334, R345 to R350): the matrix sums, and the elementwise,
I24, conversion and quantisation words. -/

namespace Sys2Proof.Machine

/-! ## Slots (R44, R45, R334) -/

/-- Value and flag bits [45:40] of a slot as an A40 operation reads it, with whether it was uncorrectable. -/
structure Slot where
  val : Nat
  flags : Nat
  bad : Bool
  deriving DecidableEq, Repr

def readSlot (t : TileCore) (row slot : Nat) : Slot :=
  if accBad t row slot then { val := 0, flags := 0, bad := true }
  else
    let x := accSlot t row slot
    { val := x % 2 ^ 40, flags := x / 2 ^ 40 % 64, bad := false }

def deadFlag (b : Bool) : Nat := if b then 32 else 0

/-- Write a slot in the A40 reading. -/
def writeSlot (t : TileCore) (row slot val flags : Nat) : TileCore :=
  accPut t (rowAt row + 6 * slot) (leBytes 6 (val % 2 ^ 40 + 2 ^ 40 * (flags % 64)))

/-! ## Matrix sums (R53, R55) -/

/-- One K block of R53: the slot's new value and the flags raised. -/
def scaledBlock (p : Int) (sa sw c : Nat) : Nat × Nat :=
  let a := sx16Val sa
  let b := sx16Val sw
  let t := Fmt.a40.roundInt .rne false (p * ((a.1 * b.1 : Nat) : Int)) (a.2 + b.2)
  let r := Fmt.a40.add .rne c t.1
  (r.1, t.2 ||| r.2)

/-- The exact sum of finite products, as v * 2^e. -/
def finSum (l : List FVal) : Int × Int :=
  l.foldl (fun (a : Int × Int) x =>
    match x with
    | .fin n m e =>
      if m = 0 then a
      else
        let e0 := if a.2 < e then a.2 else e
        (a.1 * 2 ^ (a.2 - e0).toNat + scaled n m e e0, e0)
    | _ => a) (0, 0)

def FVal.isInf (neg : Bool) (x : FVal) : Bool := decide (x = .inf neg)

/-- A group of R55: its sum rounded into A40 with the flags raised. -/
def groupSum (l : List FVal) : Nat × Nat :=
  let pos := l.any (FVal.isInf false)
  let neg := l.any (FVal.isInf true)
  if l.any FVal.isNan || (pos && neg) then (Fmt.a40.nan, 1)
  else if pos then (Fmt.a40.infBits, 0)
  else if neg then (Fmt.a40.withSign true Fmt.a40.infBits, 0)
  else
    let v := finSum l
    Fmt.a40.roundInt .rne false v.1 v.2

/-- The group sums of R55 added in order into a slot's value. -/
def groupsInto (c : Nat) (products : List FVal) : Nat × Nat :=
  (List.range 8).foldl (fun (a : Nat × Nat) g =>
    let t := groupSum ((products.drop (8 * g)).take 8)
    let r := Fmt.a40.add .rne a.1 t.1
    (r.1, a.2 ||| t.2 ||| r.2)) (c, 0)

def dotInt (a w : List Int) : Int := (List.zipWith (fun x y => x * y) a w).foldl (fun x y => x + y) 0

/-! ## Activation rows and weight files -/

/-- What an X word takes for one output row: raw elements, whether any is poisoned, its scale. -/
structure ActRow where
  elems : List Nat
  bad : Bool
  sa : Nat
  deriving DecidableEq, Repr

/-- Raw elements of a format from bytes; a poisoned element reads as zero. -/
def rawElems (fmt n : Nat) (bs : List (Byte × Bool)) : List Nat :=
  (List.range n).map fun i =>
    if fmt = 1 then
      let b := bs.getD (i / 2) (0, false)
      if b.2 then 0 else b.1.toNat / 16 ^ (i % 2) % 16
    else if fmt = 0 then
      let b := bs.getD i (0, false)
      if b.2 then 0 else b.1.toNat
    else
      let l := bs.getD (2 * i) (0, false)
      let h := bs.getD (2 * i + 1) (0, false)
      if l.2 || h.2 then 0 else l.1.toNat + 256 * h.1.toNat

/-- Row k of a weight file by its format: elements n = 0 to 127, a poisoned one zero. -/
def fileRow (w : WFile) (k : Nat) : List Nat :=
  let z := if w.fmt = 2 then 64 else if w.fmt = 1 then 128 else 256
  let bs := (w.bytes.readN (z * k) z).map fun b => (b, false)
  let f := if w.fmt = 2 then 1 else if w.fmt = 1 then 0 else 2
  ((List.range 128).zip (rawElems f 128 bs)).map fun e => if w.poison.contains (128 * k + e.1) then 0 else e.2

/-- Column n of some rows. -/
def column (rows : List (List Nat)) (n : Nat) : List Nat := rows.map fun l => l.getD n 0

/-- The decoded value of a 16-bit element. -/
def half (bf : Bool) (x : Nat) : FVal := if bf then Fmt.bf16.decode x else Fmt.fp16.decode x

/-- The sum rule of an X word: the integer paths with their element width and weight scale, or the groups of eight. -/
inductive SumRule
  | scaled (b sw : Nat)
  | groups (bf : Bool)
  deriving DecidableEq, Repr

/-- One output element: the slot's new value and the flags raised. -/
def outElem (r : SumRule) (a : ActRow) (col : List Nat) (c : Nat) : Nat × Nat :=
  match r with
  | .scaled b sw =>
    scaledBlock (dotInt (a.elems.map fun x => signExt x b) (col.map fun x => signExt x b)) a.sa sw c
  | .groups bf =>
    groupsInto c (List.zipWith (fun x y => (mulVals (half bf x) (half bf y)).1) a.elems col)

/-- The multiplication of 128 activation rows by weight rows k0 to k0 + K - 1 into a tile (R345, R346): the store
afterwards, and whether any input was uncorrectable. -/
def multiply (t : TileCore) (w : WFile) (k0 kn tile : Nat) (r : SumRule) (acts : List ActRow) : TileCore × Bool :=
  let rows := (List.range kn).map fun k => fileRow w (k0 + k)
  let cols := (List.range 128).map (column rows)
  let wbad := (List.range 128).map fun n => (List.range kn).any fun k => w.poison.contains (128 * (k0 + k) + n)
  let res := ((List.range acts.length).zip acts).foldl (fun (a : TileCore × Bool) e =>
    let row := 128 * tile + e.1
    let outs := ((List.range 128).zip cols).map fun c =>
      let x := readSlot t row c.1
      let o := outElem r e.2 c.2 x.val
      let dead := e.2.bad || wbad.getD c.1 false || x.bad
      (leBytes 6 (o.1 + 2 ^ 40 * (x.flags ||| o.2 ||| deadFlag dead)), dead)
    (accPut a.1 (rowAt row) (outs.flatMap (·.1)), a.2 || outs.any fun o => o.2)) (t, false)
  res

/-! ## XMM and XMMB (R54, R345, R346) -/

/-- The K rows of an XMM by its format. -/
def xmmK (fmt : Nat) : Nat := if fmt ≤ 1 then 128 else 64

/-- The handle rows of a repetition. -/
def xmmRuns (c0 c1 : Int) (fmt : Nat) : List Run :=
  (List.range 128).map fun (m : Nat) => { c0 := c0, n := xmmK fmt, c1 := c1 + (m : Int) }

/-- Address of the activation scale of a row; none when none is read. -/
def rowScale (d : List DWord) (r : Run) : Option Nat :=
  if hdSbase d = 0 then none else (r.part d).map fun p => (scaleEa d p.1 r.c1).toNat

def xmmScales (d : List DWord) (fmt : Nat) (runs : List Run) : List (Option Nat) :=
  if fmt ≤ 1 then runs.map (rowScale d) else runs.map fun _ => none

/-- Weight-file format and tile of an XB operand. -/
def xbFile (k : TCtx) : WFile := k.t.wf.getD (fld k.word.opb 4 4) WFile.none
def xbTile (k : TCtx) : Int := (fld k.word.opb 3 0 : Int) + k.step
def tileOk (n : Int) : Bool := decide (0 ≤ n ∧ n ≤ 15)

/-- The performance of a repetition of an X word. -/
def xPerform (s : State) (k : TCtx) (k0 kn : Nat) (r : SumRule) (acts : List ActRow) (pa : Option Nat) : State :=
  match s.tiles.find k.tc with
  | some t =>
    let m := multiply t (xbFile k) k0 kn (xbTile k).toNat r acts
    let bad := m.2 || pa.isSome
    tRep (noteEcc (s.setTile k.tc m.1) k (if bad then some (pa.getD 0) else none)) k
  | none => s

/-- The activation rows from the sectors read. -/
def xmmActs (x : Handle) (got : Tbl Sec) (fmt : Nat) (runs : List Run) : List ActRow :=
  (List.zip runs (xmmScales x.desc fmt runs)).map fun e =>
    let bs := runBytes x got e.1
    let sc := gotScale x got e.2
    { elems := rawElems fmt (xmmK fmt) bs, bad := (bs.any fun b => b.2) || sc.2, sa := sc.1 }

def xmmRep (fmt : Nat) (s : State) (k : TCtx) : State :=
  let f := k.word.opa
  let w := xbFile k
  let c0 := hndC0 k f
  let c1 := hndC1 k f 128
  let want := if fmt = 0 then 1 else if fmt = 1 then 2 else if fmt = 2 then 3 else 4
  let runs := xmmRuns c0 c1 fmt
  match handleChecks k.t (hndOf f) [fmt] (decide (w.fmt = want)) false (tileOk (xbTile k) && coordOk c1) runs with
  | .error c => tFault s k c
  | .ok x =>
    let scs := xmmScales x.desc fmt runs
    let ranges := runs.filterMap (fun (r : Run) => r.range x.desc) ++ scs.filterMap fun v => v.map fun a => (a, 2)
    withReads s k (hndOf f) x ranges fun s got x =>
      let acts := xmmActs x got fmt runs
      let h := if fmt = 1 then (c0 / 128 % 2).toNat else 0
      let sw := if h = 0 then w.sw0 else w.sw1
      let rule := if fmt = 0 then SumRule.scaled 8 sw else if fmt = 1 then SumRule.scaled 4 sw else SumRule.groups (decide (fmt = 3))
      if decide (fmt ≤ 1) && (sx16Bad sw || acts.any fun a => sx16Bad a.sa) then
        tFault s k { code := tSCALE, detail := 0 }
      else xPerform s k (128 * h) (xmmK fmt) rule acts (if acts.any fun a => a.bad then firstBad got else none)

def execXmmI8 (w : TWord) (s : State) : Host.Outcome State Fault Refusal := runTile s 0x30 w (xmmRep 0)
def execXmmI4 (w : TWord) (s : State) : Host.Outcome State Fault Refusal := runTile s 0x31 w (xmmRep 1)
def execXmmBf16 (w : TWord) (s : State) : Host.Outcome State Fault Refusal := runTile s 0x32 w (xmmRep 3)
def execXmmFp16 (w : TWord) (s : State) : Host.Outcome State Fault Refusal := runTile s 0x33 w (xmmRep 2)

/-- Bytes of an accumulator row, zero with a mark where the slot is uncorrectable. -/
def rowBytes (t : TileCore) (r n : Nat) : List (Byte × Bool) :=
  ((List.range n).zip (t.acc.readN (rowAt r) n)).map fun e => if accBad t r (e.1 / 6) then (0, true) else (e.2, false)

/-- An activation row of the quantised layout (R346, R350). -/
def quantRow (t : TileCore) (fmt r : Nat) : ActRow :=
  let z := if fmt = 0 then 128 else 64
  let bs := rowBytes t r (z + 2)
  let sc := (bs.drop z).take 2
  { elems := rawElems fmt 128 bs, bad := bs.any fun b => b.2, sa := leNat (sc.map (·.1)) }

def xmmbRep (fmt : Nat) (s : State) (k : TCtx) : State :=
  let w := xbFile k
  let src : Int := (fld k.word.opa 3 0 : Int) + k.step
  let dst := xbTile k
  let acts := (List.range 128).map fun m => quantRow k.t fmt (128 * src.toNat + m)
  if w.fmt ≠ fmt + 1 then tFault s k { code := tTFMT, detail := 4 }
  else if !(tileOk src && tileOk dst) then tFault s k { code := tTADDR, detail := 2 }
  else if sx16Bad w.sw0 || acts.any fun a => sx16Bad a.sa then tFault s k { code := tSCALE, detail := 0 }
  else if src = dst then tFault s k { code := tTADDR, detail := 4 }
  else xPerform s k 0 128 (if fmt = 0 then .scaled 8 w.sw0 else .scaled 4 w.sw0) acts none

def execXmmbI8 (w : TWord) (s : State) : Host.Outcome State Fault Refusal := runTile s 0x34 w (xmmbRep 0)
def execXmmbI4 (w : TWord) (s : State) : Host.Outcome State Fault Refusal := runTile s 0x35 w (xmmbRep 1)

/-! ## V words on A40 elements (R347) -/

/-- Elements written: where, the value, the flag bits; and whether any input was uncorrectable. -/
def vWrite (s : State) (k : TCtx) (l : List ((Nat × Nat) × Nat × Nat)) (bad : Bool) : State :=
  tRep (noteEcc (putTile s k fun t => l.foldl (fun (a : TileCore) e => writeSlot a e.1.1 e.1.2 e.2.1 e.2.2) t) k
    (if bad then some 0 else none)) k

/-- A word with a destination operand alone. -/
def vOne (f : Slot → Nat × Nat) (reads : Bool) (s : State) (k : TCtx) : State :=
  match accAt k k.word.opa k.step with
  | none => tFault s k { code := tTADDR, detail := 2 }
  | some a =>
    let l := (List.range 128).map fun m =>
      let p := a.slot m
      let x := readSlot k.t p.1 p.2
      let r := f x
      (p, r.1, r.2 ||| deadFlag (reads && x.bad))
    vWrite s k l (reads && (List.range 128).any fun m => accBad k.t (a.slot m).1 (a.slot m).2)

/-- A word with a source operand: element effect on A and B, whether A is read, and whether B is stepped. -/
def vTwo (f : Slot → Slot → Nat × Nat) (readsA stepB : Bool) (s : State) (k : TCtx) : State :=
  match accAt k k.word.opa k.step, accAt k k.word.opb (if stepB then k.step else 0) with
  | some a, some b =>
    let bad := fun (m : Nat) => (readsA && accBad k.t (a.slot m).1 (a.slot m).2) || accBad k.t (b.slot m).1 (b.slot m).2
    let l := (List.range 128).map fun m =>
      let p := a.slot m
      let q := b.slot m
      let r := f (readSlot k.t p.1 p.2) (readSlot k.t q.1 q.2)
      (p, r.1, r.2 ||| deadFlag (bad m))
    vWrite s k l ((List.range 128).any bad)
  | _, _ => tFault s k { code := tTADDR, detail := 2 }

/-- The flags an arithmetic write leaves in A: A's, B's and those raised. -/
def vArith (f : Nat → Nat → Nat × Nat) (a b : Slot) : Nat × Nat :=
  let r := f a.val b.val
  (r.1, a.flags ||| b.flags ||| r.2)

def execVclr (w : TWord) (s : State) : Host.Outcome State Fault Refusal :=
  runTile s 0x40 w (vOne (fun _ => (0, 0)) false)
def execVmov (w : TWord) (s : State) : Host.Outcome State Fault Refusal :=
  runTile s 0x41 w (vTwo (fun _ b => (b.val, b.flags)) false true)
def execVadd (w : TWord) (s : State) : Host.Outcome State Fault Refusal :=
  runTile s 0x42 w (vTwo (vArith (Fmt.a40.add .rne)) true true)
def execVsub (w : TWord) (s : State) : Host.Outcome State Fault Refusal :=
  runTile s 0x43 w (vTwo (vArith fun a b => Fmt.a40.add .rne a (Fmt.a40.neg true b)) true true)
def execVmul (w : TWord) (s : State) : Host.Outcome State Fault Refusal :=
  runTile s 0x44 w (vTwo (vArith (Fmt.a40.mul .rne)) true true)
def execVmax (w : TWord) (s : State) : Host.Outcome State Fault Refusal :=
  runTile s 0x45 w (vTwo (vArith (Fmt.a40.minMax true)) true true)
def execVmin (w : TWord) (s : State) : Host.Outcome State Fault Refusal :=
  runTile s 0x46 w (vTwo (vArith (Fmt.a40.minMax false)) true true)
def execVbadd (w : TWord) (s : State) : Host.Outcome State Fault Refusal :=
  runTile s 0x48 w (vTwo (vArith (Fmt.a40.add .rne)) true false)
def execVflclr (w : TWord) (s : State) : Host.Outcome State Fault Refusal :=
  runTile s 0x52 w (vOne (fun x => (x.val, 0)) true)

/-- A times an FP32 number, rounded into A40. -/
def vScale (x : Nat) (a : Slot) : Nat × Nat :=
  let p := mulVals (Fmt.a40.decode a.val) (Fmt.fp32.decode x)
  let r := Fmt.a40.ofVal .rne p.1
  (r.1, a.flags ||| p.2 ||| r.2)

def execVscl (w : TWord) (s : State) : Host.Outcome State Fault Refusal :=
  runTile s 0x47 w fun s k => vOne (vScale (bits (k.w.kr (fld k.word.opb 11 7)) 31 0)) true s k

/-! ## V words on I24 lanes, and conversions (R348, R349) -/

/-- Write the first bytes of a row with the marks of uncorrectable inputs, and SATST. -/
def vRow (s : State) (k : TCtx) (row : Nat) (bs : List (Byte × Bool)) (sat : Bool) : State :=
  let s1 := putTile s k fun t => rowPut t row bs
  let s2 := if sat then s1.setRegF (Reg.tcStat k.tc) 7 7 1 else s1
  tRep (noteEcc s2 k (if bs.any fun b => b.2 then some 0 else none)) k

def rowLane (t : TileCore) (r i : Nat) : Int := if accBad t r (i / 2) then 0 else signExt (i24At t r i) 24
def lane24 (x : Int) (bad : Bool) : List (Byte × Bool) := (leBytes 3 (narrow x 24)).map fun b => (b, bad)

/-- An I24 word over the 256 lanes of a row. -/
def vLanes (f : Nat → Int × Bool) (bad : Nat → Bool) (row : Nat) (s : State) (k : TCtx) : State :=
  vRow s k row ((List.range 256).flatMap fun i => lane24 (f i).1 (bad i)) ((List.range 256).any fun i => (f i).2)

def vLaneTwo (f : Int → Int → Int × Bool) (s : State) (k : TCtx) : State :=
  match accAt k k.word.opa k.step, accAt k k.word.opb k.step with
  | some a, some b =>
    vLanes (fun i => f (rowLane k.t a.theRow i) (rowLane k.t b.theRow i))
      (fun i => accBad k.t a.theRow (i / 2) || accBad k.t b.theRow (i / 2)) a.theRow s k
  | _, _ => tFault s k { code := tTADDR, detail := 2 }

def execViadd (w : TWord) (s : State) : Host.Outcome State Fault Refusal :=
  runTile s 0x49 w (vLaneTwo fun a b => (a + b, false))
def execViadds (w : TWord) (s : State) : Host.Outcome State Fault Refusal :=
  runTile s 0x4A w (vLaneTwo fun a b => satS (a + b) 24)

/-- Round(x / 2^q) to an integer, RNE. -/
def shrRne (x : Int) (q : Nat) : Int := (roundToInt .rne (decide (x < 0)) x.natAbs (-(q : Int))).1

def vishrRep (s : State) (k : TCtx) : State :=
  match accAt k k.word.opa k.step with
  | none => tFault s k { code := tTADDR, detail := 2 }
  | some a =>
    let q := min (k.w.kr (fld k.word.opb 11 7)).toNat 24
    vLanes (fun i => (shrRne (rowLane k.t a.theRow i) q, false)) (fun i => accBad k.t a.theRow (i / 2)) a.theRow s k

def execVishr (w : TWord) (s : State) : Host.Outcome State Fault Refusal := runTile s 0x4B w vishrRep

/-- A conversion word: bytes of element j with the mark, for 128 elements; the rest of the row zero. -/
def vConv (f : TileCore → Nat → Nat → List (Byte × Bool)) (sat : TileCore → Nat → Nat → Bool) (s : State) (k : TCtx) :
    State :=
  match accAt k k.word.opa k.step, accAt k k.word.opb k.step with
  | some a, some b =>
    let bs := (List.range 128).flatMap (f k.t b.theRow)
    vRow s k a.theRow (bs ++ List.replicate (768 - bs.length) (0, false)) ((List.range 128).any (sat k.t b.theRow))
  | _, _ => tFault s k { code := tTADDR, detail := 2 }

def marked (n x : Nat) (bad : Bool) : List (Byte × Bool) := (leBytes n x).map fun b => (b, bad)
def noSat (_ : TileCore) (_ _ : Nat) : Bool := false

def execVcvti (w : TWord) (s : State) : Host.Outcome State Fault Refusal :=
  runTile s 0x4C w (vConv (fun t r j => marked 6 (Fmt.a40.ofInt .rne (rowLane t r j)).1 (accBad t r (j / 2))) noSat)

/-- A slot as a 24-bit integer, and whether it sets SATST. -/
def toI24 (t : TileCore) (r j : Nat) : Nat × Bool :=
  let x := Fmt.a40.decode (readSlot t r j).val
  let v := x.toInt .rne true 24
  (v.1, x.isNan || decide (v.2 = 16))

def execVcvtf (w : TWord) (s : State) : Host.Outcome State Fault Refusal :=
  runTile s 0x4D w (vConv (fun t r j => marked 3 (toI24 t r j).1 (accBad t r j)) fun t r j => (toI24 t r j).2)

/-- A slot rounded into a 16-bit format. -/
def toHalf (f : Fmt) (t : TileCore) (r j : Nat) : List (Byte × Bool) :=
  marked 2 (f.ofVal .rne (Fmt.a40.decode (readSlot t r j).val)).1 (accBad t r j)

def execVcvth (w : TWord) (s : State) : Host.Outcome State Fault Refusal := runTile s 0x50 w (vConv (toHalf Fmt.fp16) noSat)
def execVcvtb (w : TWord) (s : State) : Host.Outcome State Fault Refusal := runTile s 0x51 w (vConv (toHalf Fmt.bf16) noSat)

/-! ## Quantisation (R350) -/

/-- The larger magnitude of finite values. -/
def largest (l : List FVal) : Nat × Int :=
  l.foldl (fun (a : Nat × Int) x =>
    match x with
    | .fin _ m e => if cmpVals (.fin false a.1 a.2) (.fin false m e) < 0 then (m, e) else a
    | _ => a) (0, 0)

/-- One quantised element and whether it was clamped. -/
def quantOne (sc bits : Nat) (x : FVal) : Int × Bool :=
  let v := sx16Val sc
  match x with
  | .nan _ => (0, false)
  | .inf n => if sc = 0 then (0, false) else satS (if n then -(2 ^ 24) else 2 ^ 24) bits
  | .fin n m e =>
    if sc = 0 then (0, false)
    else
      let (q, r, d) := scaleQ m v.1 (e - v.2)
      let q := if RMode.rne.up n q r d then q + 1 else q
      satS (if n then -(q : Int) else (q : Int)) bits

/-- The quantised row: its bytes with marks, and whether any element was clamped. -/
def quantise (t : TileCore) (r bits : Nat) : List (Byte × Bool) × Bool :=
  let xs := (List.range 128).map fun j => Fmt.a40.decode (readSlot t r j).val
  let big := largest xs
  let sc := toSx16Q big.1 (2 ^ (bits - 1) - 1) big.2
  let qs := xs.map (quantOne sc bits)
  let bad := fun (j : Nat) => accBad t r j
  let val := fun (j : Nat) => narrow (qs.getD j (0, false)).1 bits
  let body : List (Byte × Bool) :=
    if bits = 8 then (List.range 128).map fun j => (BitVec.ofNat 8 (val j), bad j)
    else (List.range 64).map fun i => (BitVec.ofNat 8 (val (2 * i) + 16 * val (2 * i + 1)), bad (2 * i) || bad (2 * i + 1))
  let bs := body ++ marked 2 sc ((List.range 128).any bad)
  (bs ++ List.replicate (768 - bs.length) (0, false), qs.any fun q => q.2)

def vqntRep (bits : Nat) (s : State) (k : TCtx) : State :=
  match accAt k k.word.opa k.step, accAt k k.word.opb k.step with
  | some a, some b =>
    let q := quantise k.t b.theRow bits
    vRow s k a.theRow q.1 q.2
  | _, _ => tFault s k { code := tTADDR, detail := 2 }

def execVqnt8 (w : TWord) (s : State) : Host.Outcome State Fault Refusal := runTile s 0x4E w (vqntRep 8)
def execVqnt4 (w : TWord) (s : State) : Host.Outcome State Fault Refusal := runTile s 0x4F w (vqntRep 4)

end Sys2Proof.Machine
end

