-- ==== Sys2Proof/Machine/TileEvents.lean ====
section
/-! DEFINITION. Tile programs as a whole (R172, R177, R308, R313, R322 to R325, R355 to R357): start, retirement, meeting
points, the checkpoint image, restore and the CKSPAN count. -/

namespace Sys2Proof.Machine

/-! ## Words of tag ALL (R323, R355, R356) -/

/-- Live masks of a CKPT word: tiles in [15:0], weight files in [17:16]. -/
def ckptMask (w : TWord) : Nat := w.opa.toNat + 4096 * fld w.opb 3 0 + 65536 * fld w.opb 5 4

def countBits (x n : Nat) : Nat := ((List.range n).filter fun i => x.testBit i).length

/-- CKPT_LATE (R177): a precise DDX record, or a report to the Governor when DMPOL is 2. -/
def ckptLate (s : State) (c detail : Nat) : State := cardException s c tCKPT detail false (decide (cardDmpol s c = 2))

/-- A walker at a CKPT: the first to reach the occurrence counts its live tiles; then each waits there, or stops when
the DDX has decided to pre-empt. -/
def ckptRep (s : State) (k : TCtx) : State :=
  let m := ckptMask k.word
  let c := k.x.card
  if k.t.live.isNone ∧ cardF s c 0 28 24 < countBits m 16 then ckptLate s c 2
  else
    let s1 := if k.t.live.isNone then putTile s k fun t => { t with live := some (k.w.count, m) } else s
    setWalkerAt s1 k.tc k.e fun w =>
      { w with st := if (cardSt s c).preempt.isSome then .stopped else if w.st = .run then .wait else w.st.going }

def execCkpt (w : TWord) (s : State) : Host.Outcome State Fault Refusal := runTile s 0x78 w ckptRep

def execTend (w : TWord) (s : State) : Host.Outcome State Fault Refusal :=
  runTile s 0x79 w fun s k => sweepOvls (putWalker s k { k.w.finish k.w.pc.next with st := .ended }) k.core

/-- Walkers that have not ended stand at a walk count, waiting or stopped, but for the one that moves. -/
def allAt (t : TileCore) (n : Nat) (self : Option Nat) : Bool :=
  (List.range t.walkers.length).all fun e =>
    match t.walkers[e]? with
    | some w => !w.walks || (decide (w.count = n) && !w.retiring &&
        (decide (self = some e) || decide (w.st = .wait) || decide (w.st = .stopped)))
    | none => true

/-- Every walker that has not ended finishes its word. -/
def allPass (t : TileCore) : TileCore :=
  { t with walkers := t.walkers.map fun (w : Walker) => if w.walks then { w.finish w.pc.next with st := .run } else w }

def execTsync (w : TWord) (s : State) : Host.Outcome State Fault Refusal :=
  runTile s 0x7A w fun s k =>
    if allAt k.t k.w.count (some k.e) then putTile s k allPass else tWait s k

/-- CKPT_MEET (R323): the walkers have met; they pass together, or stop for the save. -/
def execCkptMeet (s : State) : Host.Outcome State Fault Refusal :=
  let tc := s.ev.i
  match s.tiles.find tc with
  | some t =>
    match t.card, t.live with
    | some x, some (n, _) =>
      if !t.trapped && !t.heldStop && decide (cardState s x.card = stRunning) && ctxLive s x && allAt t n none then
        if (cardSt s x.card).preempt.isSome then
          .next (s.setTile tc (stopWalkers (tileNow s tc) { t with
            walkers := t.walkers.map fun (w : Walker) => if w.walks then { w with st := .stopped } else w }))
        else .next (s.setTile tc { allPass t with live := none, span := 0, spanAt := some (tileNow s tc) })
      else .next s
    | _, _ => .next s
  | none => .next s

/-! ## Retirement (R313, R334) -/

/-- Push tokens into FIFOs with room. -/
def pushAll (ch : Nat) : List Nat → List (List Nat) → List Nat × List (List Nat)
  | [], f => ([], f)
  | i :: l, f =>
    let q := f.getD i []
    if q.length < 15 then pushAll ch l (setPad [] f i (q ++ [ch]))
    else
      let r := pushAll ch l f
      (i :: r.1, r.2)

/-- The word of a walker has retired and its tokens are pushed: ECC where an input was poisoned, and the next word. -/
def retireNow (s : State) (tc e : Nat) (t : TileCore) (w : Walker) : State :=
  let done := fun (a : State) => setWalkerAt a tc e fun w => { w.finish w.pc.next with ecc := none }
  match w.ecc with
  | some pa => if t.trapped then s else done (trapTile s tc e { code := tECC, detail := 0, addr := pa })
  | none => done s

/-- WORD_RETIRE. -/
def execWordRetire (s : State) : Host.Outcome State Fault Refusal :=
  let tc := s.ev.i
  let e := s.ev.j
  match s.tiles.find tc with
  | some t =>
    match t.walkers[e]? with
    | some w =>
      if !w.retiring then .next s
      else
        let r := pushAll w.ch w.pushes t.fifo
        let w1 := { w with pushes := r.1, st := if r.1 = [] then w.st else if w.st = .run then .wait else w.st.going }
        let t1 := { t with fifo := r.2, walkers := setAt t.walkers e w1 }
        let s1 := s.setTile tc t1
        .next (if r.1 = [] then retireNow s1 tc e t1 w1 else s1)
    | none => .next s
  | none => .next s

/-! ## Start (R308) -/

def newWalker (k : List DWord) (ch tf count : Nat) (pc : OvAddr) (st : WkState) : Walker :=
  { st := st, pc := pc, count := count, rep := 0, retiring := false, pops := [], pushes := [], k := k, ch := ch, tf := tf, wct := 0,
    asked := none, uses := none, ecc := none, sent := false, ans := none, ovFirst := none, ovWait := none }

/-- FIFOs of counts in the TOK layout, every token with a horizon. -/
def tokFifos (tok hor : Nat) : List (List Nat) := (List.range 6).map fun i => List.replicate (tok / 16 ^ i % 16) hor

/-- A core that waits for its program's start state: dispatched and with no walkers. -/
def tileFresh (s : State) (tc : Nat) : Option (TileCore × Ctx) :=
  match s.tiles.find tc with
  | some t =>
    match t.card with
    | some x =>
      if t.walkers = [] ∧ ctxLive s x ∧ cardState s x.card = stRunning ∧ !(cardSt s x.card).tear then some (t, x) else none
    | none => none
  | none => none

/-- TILE_DISPATCH. -/
def execTileDispatch (s : State) : Host.Outcome State Fault Refusal :=
  let tc := s.ev.i
  match tileFresh s tc with
  | some (t, x) =>
    match s.ddx.rel.find x.card with
    | some r =>
      if (cardSt s x.card).saved then .next s
      else
        let k := BitVec.ofNat 64 r.argsVa :: List.replicate 31 (0 : DWord)
        let w := newWalker k t.since 0 0 { tok := 0, off := 0 } .run
        .next ((s.setRegF (Reg.tcStat tc) 7 7 0).setTile tc { t with
          acc := [], bad := [], wf := [WFile.none, WFile.none], handles := [], fifo := tokFifos r.tok t.since,
          walkers := List.replicate 5 w, samples := [], formed := [], span := 0, spanAt := some (tileNow s tc), entry := true })
    | none => .next s
  | none => .next s

/-! ## The checkpoint image (R172, R324, R357) -/

def imageMagic : Nat := 0x43484B50 + 2 ^ 32
def wfWord (w : WFile) : Nat := w.fmt + 2 ^ 16 * w.sw0 + 2 ^ 32 * w.sw1

/-- The largest completion horizon and fresh time of the engines. -/
def tileCh (t : TileCore) : Nat := (t.walkers.take 4).foldl (fun (m : Nat) (w : Walker) => max m (max w.ch w.wct)) 0
def tileTf (t : TileCore) : Nat := (t.walkers.take 4).foldl (fun (m : Nat) (w : Walker) => max m w.tf) 0

def handleWord (t : TileCore) (h : Nat) : Nat :=
  match t.handles.find h with
  | some x => x.va + 1
  | none => 0
def handleDesc (t : TileCore) (h : Nat) : List Byte :=
  match t.handles.find h with
  | some x => wordsBytes ((List.range 8).map fun i => dwz x.desc i)
  | none => List.replicate 64 0

/-- Zero bytes up to an offset. -/
def padTo (n : Nat) (l : List Byte) : List Byte := l ++ List.replicate (n - l.length) 0

def imageFixed (s : State) (tc : Nat) (t : TileCore) (x : Ctx) (mask : Nat) : List Byte :=
  let w := t.walkers.getD 0 (newWalker [] 0 0 0 { tok := 0, off := 0 } .off)
  let toks := (List.range 6).foldl (fun (n : Nat) i => n + 16 ^ i * (t.fifo.getD i []).length) 0
  let q := fun (n : Nat) => leBytes 8 n
  let head := q imageMagic ++ q mask ++ q w.pc.num ++ q w.count ++ q (toks + 2 ^ 24 * s.regF (Reg.tcStat tc) 7 7) ++ q (tileCh t) ++
    q (x.gen + 65536 * x.card) ++ q (tileTf t) ++ (List.range 32).flatMap (fun n => q (w.kr n).toNat) ++
    q (wfWord (t.wf.getD 0 WFile.none)) ++ q (wfWord (t.wf.getD 1 WFile.none))
  let mid := padTo 0x200 head ++ (List.range 64).flatMap fun h => q (handleWord t h)
  padTo 0x1000 mid ++ (List.range 64).flatMap (handleDesc t)

def liveTiles (mask : Nat) : List Nat := (List.range 16).filter fun i => mask.testBit i
def liveFiles (mask : Nat) : List Nat := (List.range 2).filter fun i => mask.testBit (16 + i)

def tileBytes (t : TileCore) (n : Nat) : List Byte := t.acc.readN (98304 * n) 98304
def fileBytes (w : WFile) : List Byte := w.bytes.readN 0 16384

/-- Byte offset of an element of a weight file (R342). -/
def fileOff (fmt i : Nat) : Nat := if fmt = 2 then i / 2 else if fmt = 1 then i else 2 * i

/-- Offsets of the image's sectors that are written poisoned: those of poisoned weights and of uncorrectable slots. -/
def imagePoison (t : TileCore) (mask : Nat) : List Nat :=
  let tiles := liveTiles mask
  let files := liveFiles mask
  let a := ((List.range tiles.length).zip tiles).flatMap fun e =>
    (t.bad.filter fun n => decide (n / 16384 = e.2)).flatMap fun n =>
      let o := 0x2000 + 98304 * e.1 + 6 * (n % 16384)
      [o / 64, (o + 5) / 64]
  let b := ((List.range files.length).zip files).flatMap fun e =>
    let w := t.wf.getD e.2 WFile.none
    w.poison.map fun i => (0x2000 + 98304 * tiles.length + 16384 * e.1 + fileOff w.fmt i) / 64
  a ++ b

/-- TILE_SAVE_COMPLETE. -/
def execTileSaveComplete (s : State) : Host.Outcome State Fault Refusal :=
  let tc := s.ev.i
  match s.tiles.find tc with
  | some t =>
    match t.card, t.live with
    | some x, some (_, mask) =>
      let c := x.card
      if !(tileSaving s c) || !(ctxLive s x) || decide (cardState s c ≠ stRunning) then .next s
      else
        let base := saveArea s c
        let img := imageFixed s tc t x mask ++ (liveTiles mask).flatMap (tileBytes t) ++
          (liveFiles mask).flatMap fun i => fileBytes (t.wf.getD i WFile.none)
        match regionTakes s base img.length with
        | none => .next s
        | some s =>
        let s1 := (homeWrite s 73 (cardPid s c) base img).1
        let s2 := (imagePoison t mask).foldl (fun (a : State) o => setPoison a (base / 64 + o)) s1
        let y := cardSt s2 c
        let s3 := setCardSt (moveCard s2 c (if y.toHeld then stHeld else stPreempted)) c
          { y with preempt := none, toHeld := false, saved := true, savedOn := some tc }
        let s4 := clearSluices (sweepOvls { s3 with tiles := s3.tiles.del tc } (tc + 32)) (32 + tc)
        .next (if y.tear then finishTear s4 c else s4)
    | _, _ => .next s
  | none => .next s

/-! ## Restore (R107, R324) -/

/-- Bind the handles of an image in order. -/
def rebind (s : State) (sp : Space) (base : Nat) : List Nat → Tbl Handle → (Except (Option Cause) (Tbl Handle)) × State
  | [], t => (.ok t, s)
  | h :: l, t =>
    let a := (mem64 s (base + 0x200 + 8 * h)).toNat
    if a % 2 = 0 then rebind s sp base l t
    else
      let d := (List.range 8).map fun i => mem64 s (base + 0x1000 + 64 * h + 8 * i)
      match bindDesc s sp (t.foldl (fun (n : Nat) e => n + e.2.entries) 0) (a - 1) d with
      | (.ok x, s1) => rebind s1 sp base l (t.set h x)
      | (.error e, s1) => (.error e, s1)

/-- The weight file an image holds at an offset. -/
def restoreFile (s : State) (base off i : Nat) : WFile :=
  let v := mem64 s (base + 0x140 + 8 * i)
  let fmt := bits v 2 0
  { bytes := Mem.writeN [] 0 (s.ms.mem.readN (base + off) 16384), fmt := fmt, sw0 := bits v 31 16, sw1 := bits v 47 32
    poison := (List.range (if fmt = 2 then 32768 else if fmt = 1 then 16384 else 8192)).filter fun n =>
      poisoned s ((base + off + fileOff fmt n) / 64) }

/-- The state of R324 from an image at base, with no handle bound yet. -/
def restoreTile (s : State) (tc base : Nat) (t : TileCore) (same : Bool) : TileCore :=
  let w := fun (o : Nat) => (mem64 s (base + o)).toNat
  let mask := w 0x08
  let hor := w 0x28
  let tf := w 0x38
  let tiles := liveTiles mask
  let files := liveFiles mask
  let acc := ((List.range tiles.length).zip tiles).foldl (fun (m : Mem) e =>
    m.writeN (98304 * e.2) (s.ms.mem.readN (base + 0x2000 + 98304 * e.1) 98304)) []
  let bad := ((List.range tiles.length).zip tiles).flatMap fun e =>
    ((List.range 16384).filter fun n =>
      let o := base + 0x2000 + 98304 * e.1 + 6 * n
      poisoned s (o / 64) || poisoned s ((o + 5) / 64)).map fun n => 16384 * e.2 + n
  let file := fun (i : Nat) =>
    if files.contains i then
      restoreFile s base (0x2000 + 98304 * tiles.length + 16384 * (if i = 1 ∧ files.contains 0 then 1 else 0)) i
    else WFile.none
  let k := (List.range 32).map fun n => mem64 s (base + 0x40 + 8 * n)
  let x := newWalker k hor tf (w 0x18) (ovAddr (mem64 s (base + 0x10))) .off
  { t with
    acc := acc, bad := bad, wf := [file 0, file 1], handles := [], fifo := tokFifos (w 0x20 % 2 ^ 24) hor
    walkers := List.replicate 5 x, samples := [], formed := [], span := 0, spanAt := none, live := none, entry := false, restoring := true
    resumeAt := if same then 0 else max (hor - 8) (max (tf + 6) (tileNow s tc)) }

/-- The rebind, and then the walkers go on; a fault traps the program at its CKPT word. -/
def finishRestore (s : State) (tc : Nat) (x : Ctx) (base : Nat) : State :=
  match rebind s (cardSpace s x.card (coreDie (tc + 32)) (tc + 32)) base (List.range 64) [] with
  | (.error none, s1) => s1
  | (.error (some c), s1) => trapTile s1 tc 0 c
  | (.ok hs, s1) =>
    match s1.tiles.find tc with
    | some t =>
      s1.setTile tc { t with
        handles := hs, restoring := false, spanAt := some (tileNow s1 tc)
        walkers := t.walkers.map fun (w : Walker) => { w with st := .run } }
    | none => s1

/-- TILE_RESTORE. -/
def execTileRestore (s : State) : Host.Outcome State Fault Refusal :=
  let tc := s.ev.i
  match tileFresh s tc with
  | some (t, x) =>
    let y := cardSt s x.card
    if !y.saved then .next s
    else
      let base := saveArea s x.card
      let s1 := s.setRegF (Reg.tcStat tc) 7 7 (bits (mem64 s (base + 0x20)) 24 24)
      let s2 := s1.setTile tc (restoreTile s tc base t (decide (y.savedOn = some tc)))
      .next (finishRestore (setCardSt s2 x.card { y with saved := false, savedOn := none }) tc x base)
  | none =>
    match s.tiles.find tc with
    | some t =>
      match t.card with
      | some x =>
        if t.restoring && !t.trapped && !t.heldStop && ctxLive s x && decide (cardState s x.card = stRunning) then
          .next (finishRestore s tc x (saveArea s x.card))
        else .next s
      | none => .next s
    | none => .next s

/-! ## CKSPAN (R177) -/

/-- CKSPAN_EXPIRY: the count has passed CKSPAN. -/
def execCkspanExpiry (s : State) : Host.Outcome State Fault Refusal :=
  let tc := s.ev.i
  match s.tiles.find tc with
  | some t =>
    match t.card, t.spanAt with
    | some x, some a =>
      if !t.trapped ∧ !t.heldStop ∧ ctxLive s x ∧ cardState s x.card = stRunning ∧
          cardBound s x.card < t.span + (tileNow s tc - a) then .next (ckptLate s x.card 1)
      else .next s
    | _, _ => .next s
  | none => .next s

end Sys2Proof.Machine
end

