-- ==== Sys2Proof/Machine/Ports.lean ====
section
/-! DEFINITION. Stream ports (R24, R71, R106, R133, R431, R432), and the device-time unit's events (R28 to R34). -/

namespace Sys2Proof.Machine

/-! ## Frames (R133) -/

def SpState.none : SpState :=
  { inFrame := false, buf := Option.none, bytes := 0, trunc := false, burstErr := false, tFirst := Option.none, seq := 0,
    source := 0, wct := 0, ended := false, asked := false, kept := [] }

def spState (s : State) (n : Nat) : SpState := Tbl.get SpState.none s.sp n
def spFreePa (s : State) (n : Nat) : Nat := (s.reg (Reg.spFreeq n)).toNat
def spPidOf (s : State) (n : Nat) : Nat := s.regF (Reg.spPid n) 3 0

/-- SOURCE of a frame by its port (R432). -/
def sourceTag (n : Nat) (tag : Word) : Word :=
  let x := tag.toNat
  if n < 4 then BitVec.ofNat 32 (x / 65536 * 65536 + x % 1024) else BitVec.ofNat 32 (x % 65536)

/-- FRAME_START: the port asks for a free buffer. A camera's packets of another virtual channel are dropped (R431). -/
def execFrameStart (s : State) : Host.Outcome State Fault Refusal :=
  let n := s.ev.i
  let x := spState s n
  let tag : Word := BitVec.ofNat 32 s.ev.j
  if n < 4 ∧ s.ev.j % 16 ≠ s.regF (Reg.spVc n) 3 0 then .next (s.regInc (Reg.spDrop n) 32)
  else if spFreePa s n = 0 ∨ x.inFrame ∨ x.ended ∨ x.asked then .next s
  else
    let y : SpState :=
      { SpState.none with
        inFrame := true, asked := true, seq := x.seq, source := sourceTag n tag, wct := x.wct, kept := x.kept, giving := x.giving
        tFirst := if 4 ≤ n ∧ n ≤ 7 then some (s.now 3) else Option.none }
    .next (sendLeat (s.setSp n y) (spFreePa s n) (.sp n) .deq false 0 Option.none Option.none (some (spPidOf s n)))

/-- Whether a burst may land: EN, the PID's partition is that of each slice (R71). -/
def burstOk (s : State) (n : Nat) (secs : List Nat) : Bool :=
  s.regBit (Reg.spPid n) 4 && (pidPart s (spPidOf s n)).isSome &&
    secs.all fun q => !(dramOk s (64 * q)) || pidHasQuarter s (spPidOf s n) (paQuarter (64 * q))

/-- Write the bytes of a burst into the frame's buffer. -/
def burstWrite (s : State) (n pa : Nat) (data : List Byte) : State :=
  let bs := bytesAt pa data
  let s1 := (spanSecs pa data.length).foldl (fun (a : State) q =>
    issueEngine a (.sp n) (56 + n) (spPidOf a n) Option.none 3 (400 + n) q (bs.filter fun e => decide (secOf e.1 = q)) false Option.none) s
  let x := spState s1 n
  s1.setSp n { x with bytes := x.bytes + data.length, tFirst := some (x.tFirst.getD (s.now 3)) }

/-- STREAM_BURST: bytes at an offset of the frame. -/
def execStreamBurst (s : State) : Host.Outcome State Fault Refusal :=
  let n := s.ev.i
  let x := spState s n
  let off := s.ev.j
  if 9 ≤ n ∨ (x.inFrame ∧ x.asked) then .next s
  else if x.inFrame then
    match x.buf with
    | some (pa, size) =>
      let data := s.ev.bytes.take (size - off)
      let secs := spanSecs (pa + off) data.length
      let s1 := s.setSp n { x with trunc := x.trunc || decide (size < off + s.ev.bytes.length) }
      if !(burstOk s n secs) then .next (((s1.setSp n { spState s1 n with burstErr := true })).regInc (Reg.spErr n) 32)
      else if !(secs.all fun q => dramOk s (64 * q)) then .next (s1.regInc (Reg.spErr n) 32)
      else if data = [] then .next s1
      else .next (burstWrite s1 n (pa + off) data)
    | Option.none => .next (if burstOk s n [] then s else s.regInc (Reg.spErr n) 32)
  else .next (if burstOk s n [] then s else s.regInc (Reg.spErr n) 32)

/-- FRAME_END: the record is owed, unless the frame was dropped at its start. -/
def execFrameEnd (s : State) : Host.Outcome State Fault Refusal :=
  let n := s.ev.i
  let x := spState s n
  if x.inFrame ∧ !x.asked then .next (s.setSp n { x with inFrame := false, ended := x.buf.isSome }) else .next s

/-- Writes of a port that have not been performed. -/
def portWrites (s : State) (n : Nat) : Bool := s.ms.reqs.any fun (q : Req) => decide (q.agent = .sp n)

/-- The frame-end record. T_FIRST of a frame without a write is a free value. -/
def frameRecord (s : State) (x : SpState) (buf : Nat) (tFirst : DWord) : List Byte :=
  wordsBytes [BitVec.ofNat 64 buf,
    BitVec.ofNat 64 (x.bytes % 2 ^ 32 + 2 ^ 32 * ((if x.trunc then 1 else 0) + (if x.burstErr then 2 else 0))), tFirst,
    BitVec.ofNat 64 (s.now 3), BitVec.ofNat 64 x.seq, BitVec.ofNat 64 x.source.toNat, 0, 0]

/-- FRAME_RECORD_ISSUE (R106): every write performed, and Reached of the largest WCT and 6 ns on the hub die's copy. -/
def execFrameRecordIssue (s : State) : Host.Outcome State Fault Refusal :=
  let n := s.ev.i
  let x := spState s n
  match x.buf with
  | some (pa, _) =>
    if x.ended ∧ !x.asked ∧ !(portWrites s n) ∧ x.wct + 6 ≤ s.now 3 then
      let t := match x.tFirst with
        | some v => (BitVec.ofNat 64 v, s)
        | Option.none => s.freeVal
      let s1 := t.2.setSp n { x with asked := true }
      .next (sendLeat s1 (s1.reg (Reg.spDoneq n)).toNat (.sp n) (.enq (frameRecord s1 x pa t.1)) false 0 Option.none Option.none
        (some (spPidOf s1 n)))
    else .next s
  | Option.none => .next s

/-! ## Device time (R28, R29, R32, R34) -/

/-- Set a copy: 0 M0, 1 M1, 2 the host chiplet. -/
def setCopy (s : State) (c v : Nat) : State :=
  if c = 0 then s.withTime { s.time with m0 := v }
  else if c = 1 then s.withTime { s.time with m1 := v }
  else s.withTime { s.time with host := v }

/-- DTU_CORRECTION: the copy takes the DTU's count, never going backward; beyond 3 ns SKEW_ERR is set and reported. -/
def execDtuCorrection (s : State) : Host.Outcome State Fault Refusal :=
  let c := s.ev.i
  if 3 ≤ c ∨ s.dieOff.contains c then .next s
  else
    let old := s.now c
    let hub := s.time.hub
    let s1 := setCopy s c (max old hub)
    if s.regBit Reg.dtuStatus 5 then
      let left := s.time.loading.filter fun x => decide (x ≠ c)
      let s2 := s1.withTime { s1.time with loading := left }
      .next (if left = [] then s2.setRegF Reg.dtuStatus 5 5 0 else s2)
    else if old + 3 < hub ∨ hub + 3 < old then
      .next ((s1.setRegF Reg.dtuStatus 2 2 1).withGov { s1.gov with skew := s1.gov.skew ++ [c] })
    else .next s1

/-- PPS_IN_EDGE. -/
def execPpsInEdge (s : State) : Host.Outcome State Fault Refusal :=
  if s.regBit Reg.dtuCtl 1 then
    .next ((s.setReg Reg.dtuPpsIn (BitVec.ofNat 64 s.time.hub)).setRegF Reg.dtuStatus 0 0 1)
  else .next s

/-- PPS_OUT_PULSE: the rising edge within 5 ns of a whole second, the falling edge 100 us after the second. -/
def execPpsOutPulse (s : State) : Host.Outcome State Fault Refusal :=
  let t := s.time.hub + 5
  if s.ev.flag then
    if s.regBit Reg.dtuCtl 2 ∧ !s.time.ppsOut ∧ t % 1000000000 ≤ 10 then
      .next (s.withTime { s.time with ppsOut := true, ppsAt := t / 1000000000 * 1000000000 })
    else .next s
  else if s.time.ppsOut ∧ s.time.ppsAt + 100000 ≤ s.time.hub then .next (s.withTime { s.time with ppsOut := false })
  else .next s

end Sys2Proof.Machine
end

