-- ==== Sys2Proof/Machine/TrapCtl.lean ====
section
/-! DEFINITION. Delivery of trap records and the context commands (R386, R397 to R402). -/

namespace Sys2Proof.Machine

/-! ## Delivery (R397, R398) -/

/-- Records of one context: the warp, or the program, engine or DDX work of a card. -/
def TrapRec.sameCtx (a b : TrapRec) : Bool :=
  decide (a.src = b.src ∧ a.card = b.card ∧ a.gen = b.gen) && (decide (a.src ≠ 0) || decide (a.target = b.target))

def agentBusy (s : State) (a : Agent) : Bool := s.ms.reqs.any fun (q : Req) => decide (q.agent = a) && (q.kind.isWrite || q.kind.isEngine)

/-- The warp a record or a context command names. -/
def findWarp (s : State) (card gen target : Nat) : Option (Nat × Warp) :=
  s.warps.find? fun e => decide (e.2.card = card ∧ e.2.gen = gen ∧ warpTarget s e.2 = target)

/-- The engine work of a path card, resident or saved, with its key. -/
def findPce (s : State) (c : Nat) : Option (Nat × Pce) :=
  s.pces.find? fun e => decide (e.2.card.map (fun (x : Ctx) => x.card) = some c)

/-- A load of the warp has still to be performed. -/
def loadsPending (s : State) (wid : Nat) : Bool :=
  s.ops.any fun e => decide (e.2.wid = wid) &&
    (match e.2.kind with
     | .load spm _ _ _ _ => !(loadReady e.2 spm)
     | _ => false)

/-- The release of R98 that precedes the record: the context drained (R94), and its horizon reached. A record of the DDX
goes once its time is past, so that all that arose at that time stands in the order of R177. -/
def recReleased (s : State) (r : TrapRec) : Bool :=
  if r.src = 0 then
    match findWarp s r.card r.gen r.target with
    | some (i, w) => warpDrained s i s.next && !(loadsPending s i) && decide (w.ch ≤ s.now (coreDie (warpCore w)))
    | none => true
  else if r.src = 1 then
    match tileOf s r.card with
    | some (tc, t) =>
      decide (cardGen s r.card ≠ r.gen) || (!((List.range 5).any fun e => agentBusy s (.teng tc e)) &&
        t.walkers.all fun (w : Walker) => decide (max w.ch w.wct ≤ tileNow s tc))
    | none => true
  else if r.src = 2 then
    match findPce s r.card with
    | some (d, p) => decide (cardGen s r.card ≠ r.gen) || (!(agentBusy s (.pce r.core)) && decide (p.ch ≤ s.now (if d < 2 then d else r.core)))
    | none => true
  else decide (r.time < s.now 3)

def trapqPa (s : State) (p : Nat) : Nat := 64 * s.regF (Reg.trapq p) 43 6

/-- The plain-mode enqueue of a record at the controller of TRAPQ[p]; none when it fails. -/
def trapEnqueue (s : State) (r : TrapRec) : Option State :=
  let cb := trapqPa s r.pid
  let c := readCb s cb
  if !(s.regBit (Reg.trapq r.pid) 63) ∨ !(dramOk s cb) ∨ (cbCheck c cb).isSome ∨ !(pidMatches s c (some r.pid)) ∨
      c.mode = 1 ∨ c.es ≠ 64 then none
  else
    let e := doEnq s (73, r.pid) cb (wordsBytes r.words)
    if e.1 = some (LAns.st stOK) then
      let s1 := maybeWake (serve e.2 cb) cb
      let cl := s1.regF (Reg.trapq r.pid) 47 46
      some (s1.setReg (Reg.clIpend cl 0) (s1.reg (Reg.clIpend cl 0) ||| 1))
    else none

def dropRec (s : State) (i : Nat) : State := s.withDdx { s.ddx with recs := dropAt s.ddx.recs i }
def countDrop (s : State) (p : Nat) : State := s.regInc (Reg.trapqDrop p) 32

/-- The homes of the control block and of the slot that a record goes to (R78, R79, R412). -/
def trapTakes (s : State) (r : TrapRec) : Bool × State :=
  let cb := trapqPa s r.pid
  let c := readCb s cb
  let uses := if !(dramOk s cb) then []
    else (secOf cb, SecUse.part) :: (if (cbCheck c cb).isSome then [] else writeUses (c.slot c.tail) 64).filter fun x => dramOk s (64 * x.1)
  let x := takeUses s (73, r.pid) [] uses
  (x.1, x.2.2)

/-- An attempt to deliver record i. -/
def deliver (s : State) (i : Nat) (r : TrapRec) : State :=
  if !r.notice ∧ cardGen s r.card ≠ r.gen then countDrop (dropRec s i) r.pid
  else if (offered s (trapqPa s r.pid)).isSome then s
  else
    match trapTakes s r with
    | (false, s1) => s1
    | (true, s) =>
      match trapEnqueue s r with
      | some s1 => dropRec s1 i
      | none =>
        if r.notice then countDrop (dropRec s i) r.pid
        else s.withDdx { s.ddx with recs := setAt s.ddx.recs i { r with tried := some (s.now 3) } }

/-- The order of records of one device time (R177): DMISS, CKPT_LATE, BOV. -/
def TrapRec.rank (r : TrapRec) : Nat :=
  if r.src ≠ 3 then 0 else if r.code = tCKPT then 1 else if r.code = tBOV then 2 else 0

/-- Whether record j is delivered before record i: it arose earlier, or at one device time with a smaller rank. -/
def TrapRec.before (q : TrapRec) (j : Nat) (r : TrapRec) (i : Nat) : Bool :=
  if q.time = r.time ∧ q.rank ≠ r.rank then decide (q.rank < r.rank) else decide (j < i)

/-- No record of the same context that comes before it is still to be delivered. -/
def recFirst (s : State) (i : Nat) (r : TrapRec) : Bool :=
  !((s.ddx.recs.zip (List.range s.ddx.recs.length)).any fun e => e.1.sameCtx r && e.1.before e.2 r i)

/-- TRAP_DELIVER: the first attempt, after the context's release. -/
def execTrapDeliver (s : State) : Host.Outcome State Fault Refusal :=
  let i := s.ev.i
  match s.ddx.recs[i]? with
  | some r => if r.tried.isNone && recFirst s i r && recReleased s r then .next (deliver s i r) else .next s
  | none => .next s

/-- TRAP_RESEND: 1 us after the last attempt. -/
def execTrapResend (s : State) : Host.Outcome State Fault Refusal :=
  let i := s.ev.i
  match s.ddx.recs[i]? with
  | some r =>
    match r.tried with
    | some t => if recFirst s i r ∧ t + 1000 ≤ s.now 3 then .next (deliver s i r) else .next s
    | none => .next s
  | none => .next s

/-! ## Context commands (R386, R401, R402) -/

inductive CtxOp
  | resume | resumeAt | kill | skip
  deriving DecidableEq, Repr

def cxOK : Nat := 0
def cxNOTFOUND : Nat := 1
def cxNOTTRAPPED : Nat := 2
def cxBADOP : Nat := 3
def cxBADARG : Nat := 4

/-- A trapped warp goes on at its trapping word; one that has no live lane left retires (R190). -/
def Warp.resume (w : Warp) : Warp := { w with st := .ready, trap := none }

/-- The lanes of the trapping path take an overlay address. -/
def Warp.resumeTo (w : Warp) (a : OvAddr) : Warp :=
  let lanes := match w.clause with
    | some c => c.lanes &&& w.liveMask
    | none => w.pathOf w.rot
  { w with
    st := .ready, trap := none, clause := none, ovFirst := none, ovWait := none
    pc := lanes32.map fun l => if laneIn lanes l then a else laneGet { tok := 0, off := 0 } w.pc l
    wait := lanes32.map fun l => if laneIn lanes l then .none else laneGet .none w.wait l }

/-- A killed warp has no live lane: it retires once it is drained, with no notice, and after the fence of a forced ORDOUT when it
holds its section (R393). -/
def Warp.kill (w : Warp) : Warp :=
  { w with st := .ready, trap := none, clause := none, susp := [], hold := none, killed := true, exited := w.exited ||| w.liveMask
           ovFirst := none, ovWait := none, wait := lanes32.map fun _ => .none }

def ctxWarp (s : State) (op : CtxOp) (pc : OvAddr) (card gen target : Nat) : Nat × State :=
  if op = .skip then (cxBADOP, s)
  else
    match findWarp s card gen target with
    | none => (cxNOTFOUND, s)
    | some (i, w) =>
      if w.st ≠ .trapped then (cxNOTTRAPPED, s)
      else if op = .resume then (cxOK, s.setWarp i w.resume)
      else
        let s1 := s.setWarp i (if op = .resumeAt then w.resumeTo pc else w.kill)
        (cxOK, if w.place.isSome then sweepOvls s1 (warpCore w) else s1)

def ctxTile (s : State) (op : CtxOp) (card : Nat) : Nat × State :=
  if op = .skip ∨ op = .resumeAt then (cxBADOP, s)
  else
    match tileOf s card with
    | none => (if (s.ddx.rel.find card).isSome then cxNOTTRAPPED else cxNOTFOUND, s)
    | some (tc, t) =>
      if !t.trapped || (cardSt s card).tear then (cxNOTTRAPPED, s)
      else if op = .kill then (cxOK, killCard s card)
      else
        let t1 := { t with trapped := false }
        (cxOK, s.setTile tc (startWalkers (tileNow s tc) t1))

/-- Where a path coverage engine goes on after a RESUME. -/
def Pce.resume (p : Pce) : Pce :=
  match p.back with
  | .header => { p with st := .start }
  | .command => { p with st := .command, cmd := none }
  | .move => { p with st := .running, pos := p.move, segs := [], open_ := false }
  | .here => { p with st := .running }
  | .next => { p with st := .wait, ecc := none }

/-- A skipped command: nothing more of it is performed. -/
def Pce.skip (p : Pce) : Pce := { p with st := .wait, ecc := none, spawns := [] }

def ctxPath (s : State) (op : CtxOp) (card : Nat) : Nat × State :=
  if op = .resumeAt then (cxBADOP, s)
  else
    match findPce s card with
    | none => (if (s.ddx.rel.find card).isSome then cxNOTTRAPPED else cxNOTFOUND, s)
    | some (d, p) =>
      if p.st ≠ .trapped ∨ (cardSt s card).tear then (cxNOTTRAPPED, s)
      else if op = .kill then (cxOK, killCard s card)
      else if op = .skip then (if p.back = .header then (cxBADOP, s) else (cxOK, s.setPce d p.skip))
      else (cxOK, s.setPce d p.resume)

/-- Find the context of a port and perform the operation. -/
def ctxPerform (s : State) (op : CtxOp) (p : Nat) : Nat × State :=
  let id := s.reg (Reg.ctxId p)
  let card := bits id 9 0
  let src := bits id 12 10
  let gen := bits id 31 16
  if 4 ≤ src then (cxBADARG, s)
  else if src = 3 then (cxBADOP, s)
  else if cardGen s card ≠ gen then (cxNOTFOUND, s)
  else if src = 0 then ctxWarp s op (ovAddr (s.reg (Reg.ctxPc p))) card gen (s.reg (Reg.ctxTarget p)).toNat
  else if src = 1 then ctxTile s op card
  else ctxPath s op card

/-- The cards whose teardown has not yet reached step 3. -/
def tearing (s : State) (c : Nat) : Bool := (cardSt s c).tear

/-- A write of CTX_CMD: BUSY until the operation has been performed, for a KILL that tears a card down until step 3. -/
def ctxCommand (op : CtxOp) (s : State) (q : RegPart) : State :=
  let p := (q.off - 0x01000100) / 0x20
  if s.regBit (Reg.ctxStat p) 31 then s
  else
    let r := ctxPerform s op p
    let card := bits (s.reg (Reg.ctxId p)) 9 0
    if op = .kill ∧ r.1 = cxOK ∧ bits (s.reg (Reg.ctxId p)) 12 10 ≠ 0 ∧ tearing r.2 card then
      (r.2.setReg (Reg.ctxStat p) (BitVec.ofNat 64 (2 ^ 31))).withDdx { r.2.ddx with ctxWait := r.2.ddx.ctxWait.set p card }
    else r.2.setReg (Reg.ctxStat p) (BitVec.ofNat 64 r.1)

def isCtxCmd (q : RegPart) : Bool :=
  decide (Reg.ctxCmd 0 ≤ q.reg ∧ q.reg ≤ Reg.ctxCmd 3 ∧ (q.reg - Reg.ctxCmd 0) % 0x20 = 0)

def execCtxResume (b : BusWrite) (s : State) : Host.Outcome State Fault Refusal := busRow s b isCtxCmd (ctxCommand .resume)
def execCtxResumeAt (b : BusWrite) (s : State) : Host.Outcome State Fault Refusal := busRow s b isCtxCmd (ctxCommand .resumeAt)
def execCtxKill (b : BusWrite) (s : State) : Host.Outcome State Fault Refusal := busRow s b isCtxCmd (ctxCommand .kill)
def execCtxSkip (b : BusWrite) (s : State) : Host.Outcome State Fault Refusal := busRow s b isCtxCmd (ctxCommand .skip)

end Sys2Proof.Machine
end

