-- ==== Sys2Proof/Machine/Snapshot.lean ====
section
/-! DEFINITION. What a register reads (R5, R33, R137, R203, R326) and the snapshot of every register (R418, R419). -/

namespace Sys2Proof.Machine

/-! ## Registers whose value is kept elsewhere -/

def WkState.code : WkState → Nat
  | .off => 0
  | .run => 1
  | .wait => 2
  | .stopping => 3
  | .stopped => 4
  | .ended => 5

def ThState.code : ThState → Nat
  | .off => 0
  | .fetch => 1
  | .exec => 2
  | .blocked => 3
  | .halted => 4
  | .adopted => 5

def reg64 (n : Nat) : DWord := BitVec.ofNat 64 n

/-- TC_STAT (R326): SATST as stored, TRAPPED and RUNNING. -/
def readTcStat (s : State) (tc : Nat) : DWord :=
  let sat := s.reg (Reg.tcStat tc)
  match s.tiles.find tc with
  | some t =>
    let on := t.walkers.any fun (w : Walker) => decide (w.st = .run ∨ w.st = .wait ∨ w.st = .stopping)
    setBits (setBits sat 3 3 (if t.trapped then 1 else 0)) 2 2 (if on then 1 else 0)
  | none => sat

/-- TC_WALK (R326). -/
def readTcWalk (s : State) (tc e : Nat) : DWord :=
  match (s.tiles.find tc).bind fun (t : TileCore) => t.walkers[e]? with
  | some w => reg64 (w.count % 2 ^ 32 * 2 ^ 32 + w.pc.off / 8 % 2 ^ 29 * 8 + w.st.code)
  | none => 0

/-- OVL_SLOT (R203, R209). -/
def readOvlSlot (s : State) (c n : Nat) : DWord :=
  match ovlOf s c n with
  | some o =>
    let st := if o.st = .loading then 1 else if ovlPinned s c o then 3 else 2
    reg64 (st * 2 ^ 62 + o.base % 64 * 2 ^ 56 + o.pid % 16 * 2 ^ 52 + o.card % 1024 * 2 ^ 42 + sgenOf s c n % 2 ^ 14 * 2 ^ 28 +
      o.ovid % 4096 * 2 ^ 16 + o.gen % 65536)
  | none => reg64 (sgenOf s c n % 2 ^ 14 * 2 ^ 28)

/-- The thread that serves queue i of die d: that of the other die's processor while it has adopted the queue (R160). -/
def servingThread (s : State) (d i : Nat) : Thread :=
  if (thread s d i).st = .adopted then ((s.th.find (thKey (1 - d) (32 + i))).getD (thread s d i)) else thread s d i

/-- MQ_STAT and MQ_SEQ (R137, R138): ERR, TAG and UNSURE of an adopted queue are those of the thread that serves it (R147, R160). -/
def readMqStat (s : State) (d i : Nat) : DWord :=
  let t := servingThread s d i
  reg64 (t.tag % 2 ^ 32 * 2 ^ 32 + (if t.unsure then 65536 else 0) + t.err % 256 * 256 + (thread s d i).st.code)

def readMqSeq (s : State) (d i : Nat) : DWord := reg64 ((servingThread s d i).seq % 2 ^ 32)

/-- QP_STATUS with RUN. -/
def readQpStatus (s : State) (d : Nat) : DWord :=
  setBits (s.reg (Reg.qpStatus d)) 0 0 (if s.regBit (Reg.qpCtl d) 0 && !s.gov.holdReset && (s.gov.qpRestart.find d).isNone then 1 else 0)

/-- The registers of queue i of die d at offset y of its block. -/
def readMq (s : State) (d i y : Nat) : DWord :=
  if y = 0x18 then readMqStat s d i else if y = 0x20 then 0 else if y = 0x24 then readMqSeq s d i
  else s.reg (Reg.mqCfg d i + y)

/-- The value read at a mill die's window. -/
def readDie (s : State) (d o : Nat) : DWord :=
  let pa := dieBase d + o
  let x := o % 0x100000
  if o = 0 then reg64 (s.now d)
  else if 0x01000000 ≤ o ∧ o < 0x02000000 ∧ 0x40080 ≤ x ∧ x < 0x40200 then
    readOvlSlot s (16 * d + (o - 0x01000000) / 0x100000) ((x - 0x40080) / 8)
  else if 0x02000000 ≤ o ∧ o < 0x02C00000 ∧ 0x40080 ≤ x ∧ x < 0x40100 then
    readOvlSlot s (32 + 12 * d + (o - 0x02000000) / 0x100000) ((x - 0x40080) / 8)
  else if 0x02000000 ≤ o ∧ o < 0x02C00000 ∧ x = 0x60000 then readTcStat s (12 * d + (o - 0x02000000) / 0x100000)
  else if 0x02000000 ≤ o ∧ o < 0x02C00000 ∧ 0x60008 ≤ x ∧ x < 0x60030 then
    readTcWalk s (12 * d + (o - 0x02000000) / 0x100000) ((x - 0x60008) / 8)
  else if o = 0x05020004 then readQpStatus s d
  else if 0x05020100 ≤ o ∧ o < 0x05020900 then readMq s d ((o - 0x05020100) / 0x40) (o % 0x40)
  else if 0x05020900 ≤ o ∧ o < 0x05021100 then readMq s (1 - d) ((o - 0x05020900) / 0x40) (o % 0x40)
  else s.reg pa

/-- What a read of the register at a physical address returns; past the windows' lower half, the snapshot (R418). -/
def readReg (s : State) (pa : Nat) : DWord :=
  let win := pa / 0x100000000
  let o := pa % 0x100000000
  if 0x80000000 ≤ o then
    let lo := pa - 0x80000000
    let w := if win = 0xF01 then 0 else if win = 0xF02 then 1 else if win = 0xF03 then 2 else 3
    if (regInfo lo).isSome ∧ s.gov.snapWins.contains w then Tbl.get (regReset lo) s.snap lo else 0
  else
    match regInfo pa with
    | none => 0
    | some r =>
      if r.wo then 0
      else if win = 0xF01 then readDie s 0 o
      else if win = 0xF02 then readDie s 1 o
      else if pa = hubBase then reg64 s.time.hub
      else if pa = hostBase then reg64 s.time.host
      else s.reg pa

/-! ## Latching (R419) -/

def winBase (w : Nat) : Nat := if w = 0 then dieBase 0 else if w = 1 then dieBase 1 else if w = 2 then hostBase else hubBase

/-- Registers of a window whose value is not stored in the register table and is not that of reset. -/
def computedRegs (s : State) (w : Nat) : List Nat :=
  let b := winBase w
  if 2 ≤ w then [b]
  else
    let tcs := (s.tiles.keys.filter fun tc => decide (coreDie (tc + 32) = w)).flatMap fun tc =>
      Reg.tcStat tc :: (List.range 5).map fun e => Reg.tcWalk tc e
    let ovs := (s.ist.keys.filter fun c => decide (coreDie c = w)).flatMap fun c =>
      (List.range (storeSlots c)).map fun n => Reg.ovlSlot c n
    let qs := (List.range 64).flatMap fun i => [0, 8, 0x10, 0x18, 0x24].map fun y => Reg.mqCfg w i + y
    b :: Reg.qpStatus w :: (tcs ++ ovs ++ qs)

/-- Latch every register of a window. -/
def latchWin (s : State) (w : Nat) : State :=
  let mine := fun (pa : Nat) => decide (pa / 0x100000000 = winBase w / 0x100000000)
  let kept := s.snap.filter fun e => !(mine e.1)
  let now := s.regs.keys.filter mine ++ computedRegs s w
  { s with snap := now.foldl (fun (t : Tbl DWord) pa => t.set pa (readReg s pa)) kept }.withGov
    { s.gov with snapWins := insertNat w s.gov.snapWins }

/-- The snapshot for time t is complete on every die. -/
def finishSnap (s : State) (t : Nat) : State :=
  let past := match s.gov.snapArmed with
    | some a => decide (a ≤ t)
    | none => false
  let s1 := if past then s.setReg Reg.govSnapT 0 else s
  let s2 := s1.withGov { s1.gov with
    snapArmed := if past then none else s1.gov.snapArmed
    snapDies := []
    lastLatch := some t }
  postEvent (s2.setReg Reg.govSnapLast (reg64 t)) 8 0 0 t

/-- A latch at Now() is allowed: 100 us have passed since the last. -/
def mayLatch (s : State) : Bool :=
  match s.gov.lastLatch with
  | some t => decide (t + 100000 ≤ s.now 3)
  | none => true

/-- A snapshot at Now() on every die. -/
def latchAll (s : State) : State := finishSnap ([0, 1, 2, 3].foldl latchWin s) (s.now 3)

/-- Arm a snapshot at a device time; 0 is now. A request within 100 us of the last latch waits for their end. -/
def armSnap (s : State) (t0 : Nat) : State :=
  let n := s.now 3
  let t1 := if t0 < n then n else t0
  let t2 := match s.gov.lastLatch with
    | some l => if n < l + 100000 then max t1 (l + 100000) else t1
    | none => t1
  (s.withGov { s.gov with snapArmed := some t2, snapDies := [] }).setReg Reg.govSnapT (reg64 t2)

/-- The time of the snapshot that is due next: the armed one, or that which an action of R408 waits for. -/
def snapDue (s : State) : Option Nat :=
  if s.gov.todo = [] then s.gov.snapArmed
  else
    let u := s.gov.lastLatch.getD 0 + 100000
    match s.gov.snapArmed with
    | some t => some (min t u)
    | none => some u

end Sys2Proof.Machine
end

