-- ==== Sys2Proof/Machine/Start.lean ====
section
/-! DEFINITION. Starts of the device (R28, R414 to R417): images and their verification, the steps of a start, failed
starts, and the loss of power. -/

namespace Sys2Proof.Machine

/-! ## Images (R415) -/

def hdrF (h : List Byte) (off n : Nat) : Nat := leNat ((h.drop off).take n)

/-- The fields of an image header are valid for its TYPE. -/
def imageFields (ty : Nat) (h b : List Byte) : Bool :=
  let len := hdrF h 8 8
  let load := hdrF h 0x10 8
  decide (h.length = 128 ∧ hdrF h 0 4 = 0x46494D47 ∧ hdrF h 4 4 = ty ∧ len % 64 = 0 ∧ len ≤ 2 ^ 26 ∧ len = b.length ∧
    hdrF h 0x24 4 < 4 ∧ hdrF h 0x28 24 = 0) && decide (load + len ≤ if ty = 1 then 2 ^ 18 else 2 ^ 38)

/-- The Governor accepts a copy: fields, key slot, security version and signature, in that order. -/
def imageAccepted (ty : Nat) (h b : List Byte) : Bool :=
  let slot := hdrF h 0x24 4
  imageFields ty h b && !(Config.slotRevoked slot) && decide (Config.slotMinSvn slot ty ≤ hdrF h 0x20 4) &&
    Config.signatureValid slot (h.take 64 ++ b) (h.drop 64)

/-- In minimal mode the whole LOAD range lies in the quarter kept (R417). -/
def imageFits (quarter : Option Nat) (h b : List Byte) : Bool :=
  match quarter with
  | none => true
  | some q => decide (b.length = 0 ∨ (paQuarter (hdrF h 0x10 8) = q ∧ hdrF h 0x10 8 / 2 ^ 36 = (hdrF h 0x10 8 + b.length - 1) / 2 ^ 36))

/-- The accepted copy of a TYPE: copy A, then copy B. -/
def pickImage (x : StartIn) (ty : Nat) (quarter : Option Nat) : Option (List Byte × List Byte) :=
  let ok := fun (c : Nat) => x.images.find? fun e =>
    decide (e.1 = ty ∧ e.2.1 = c) && imageAccepted ty e.2.2.1 e.2.2.2 && imageFits quarter e.2.2.1 e.2.2.2
  match ok 0 with
  | some e => some e.2.2
  | none => (ok 1).map fun e => e.2.2

/-- Place a verified image at its LOAD address. -/
def placeImage (s : State) (e : List Byte × List Byte) : State :=
  let pa := hdrF e.1 0x10 8
  let secs := (List.range ((e.2.length + 63) / 64)).map fun i => pa / 64 + i
  (s.setMem (s.ms.mem.writeN pa e.2)).withMs
    { s.ms with mem := s.ms.mem.writeN pa e.2, poison := s.ms.poison.filter fun q => !(secs.contains q) }

/-- The Governor's firmware is verified into SRAM and runs from its entry (R414, R415). -/
def placeGov (s : State) (e : List Byte × List Byte) : State :=
  s.withGov { s.gov with
    sram := Mem.writeN [] (hdrF e.1 0x10 8) e.2, cpu := { x := [], pc := BitVec.ofNat 32 (hdrF e.1 0x18 8), csr := [] } }

/-- The QP firmware is placed, and kept as the copy that a restart loads again (R411). -/
def placeQp (s : State) (e : List Byte × List Byte) : State :=
  let s1 := placeImage s e
  s1.withGov { s1.gov with qpImage := some e }

/-! ## One start -/

def govFails (s : State) : Nat := s.regF Reg.govMode 11 8

/-- The registers that a start keeps: the DTU's, and FAILS and CAUSE (R28, R416). -/
def startRegs (s : State) : Tbl DWord :=
  let dtu : Tbl DWord := s.regs.filter fun e => decide (e.1 < hubBase + 0x10000)
  dtu.set Reg.govMode (setBits (setBits 0 11 8 (govFails s)) 23 16 (s.regF Reg.govMode 23 16))

/-- The beginning of a start: every engine but the Governor and the DTU is in reset; device time keeps its value. A
start begun while FAILS is 3 or more runs in minimal mode. -/
def beginStart (s : State) : State :=
  { State.reset with
    time := s.time
    regs := startRegs s
    snap := s.snap
    ms := { MemSys.reset with mem := s.ms.mem, poison := s.ms.poison, stamp := s.ms.stamp }
    gov := { Gov.reset with snapWins := s.gov.snapWins, lastLatch := s.gov.lastLatch, minimal := decide (3 ≤ govFails s) }
    starts := s.starts, pcieDone := s.pcieDone, agenda := s.agenda, focus := s.focus, ev := s.ev, free := s.free, next := s.next }

/-- A failed start is counted, with its cause (R416). -/
def markFailed (s : State) (cause : Nat) : State :=
  (s.setRegF Reg.govMode 11 8 (min 15 (govFails s + 1))).setRegF Reg.govMode 23 16 cause

/-- How the steps of a start end: step 5 is reached, or a failure with its cause, after which the Governor may run
alone. -/
inductive StartEnd
  | up (s : State)
  | fail (cause : Nat) (alone : Bool)

/-- A copy of device time that leaves reset takes the DTU's count, and never decreases (R28). -/
def Times.taken (t : Times) : Times := { t with m0 := max t.m0 t.hub, m1 := max t.m1 t.hub, host := max t.host t.hub }

/-- Step 5: the copies of device time have taken the count, the engines leave reset and the service cores are released at the entry of
their image in M mode. -/
def releaseAll (s : State) (img : List Byte × List Byte) : State :=
  let sc : SvcCore := { SvcCore.reset with pc := BitVec.ofNat 64 (hdrF img.1 0x18 8) }
  { s with time := s.time.taken, svc := (List.range 16).map fun i => (i, sc) }.withGov
    { s.gov with holdReset := false, released := some (s.time.hub) }

def firstQuarter (x : StartIn) : Option Nat := (List.range 4).find? fun q => x.selfOk.getD q false

/-- Steps 4 and 5 of a normal start. -/
def finishNormal (s : State) (x : StartIn) : StartEnd :=
  match pickImage x 2 none, pickImage x 3 none with
  | some a, some b => .up (releaseAll (placeImage (placeQp s a) b) b)
  | _, _ => .fail 2 false

/-- Steps 4 and 5 of a minimal start in a quarter (R417). -/
def finishMinimal (s : State) (x : StartIn) (q : Nat) : StartEnd :=
  let s1 := s.setRegF Reg.govMode 7 6 q
  let s2 := match pickImage x 2 (some q) with
    | some a => placeQp s1 a
    | none => s1.withGov { s1.gov with qpHeld := true }
  match pickImage x 3 (some q) with
  | some b => .up (releaseAll (placeImage s2 b) b)
  | none => .fail 11 true

/-- Steps 1 to 5 with the results that the start finds (R414). -/
def runSteps (s0 : State) (x : StartIn) : StartEnd :=
  if !x.romOk then .fail 1 false
  else
    match pickImage x 1 none with
    | none => .fail 2 false
    | some e =>
    let s := placeGov s0 e
    if s.gov.minimal then
      match firstQuarter x with
      | none => .fail 4 true
      | some q => if x.dramOk.getD q false then finishMinimal s x q else .fail 3 false
    else if !((List.range 4).all fun q => x.dramOk.getD q false) then .fail 3 false
    else if !((List.range 4).all fun q => x.selfOk.getD q false) then .fail 4 false
    else finishNormal s x

/-- Step 2 alone: the Governor runs its accepted firmware. -/
def bootGov (s : State) (x : StartIn) : State :=
  match pickImage x 1 none with
  | some e => placeGov s e
  | none => s

/-- Starts one after another until one reaches step 5, the Governor runs alone, or no result of a start is at hand:
the device is then held in reset. -/
def runStarts : List StartIn → State → State
  | [], s => { s with starts := [] }
  | x :: rest, s =>
    match runSteps s x with
    | .up s1 => { s1 with starts := rest }
    | .fail c true =>
      let s1 := markFailed (bootGov s x) c
      { s1 with starts := rest }.withGov { s1.gov with alone := true }
    | .fail c false => runStarts rest (beginStart (markFailed s c))

/-- A new start of the device. -/
def newStart (s : State) : State := runStarts s.starts (beginStart s)

/-- A device restart, with its cause (R408, R414, R416). -/
def deviceRestart (s : State) (cause : Nat) : State := newStart (markFailed s cause)

/-- POWER_ON_RESET: device time 0 and loadable; FAILS and CAUSE stay in the Governor's power domain. -/
def execPowerOnReset (s : State) : Host.Outcome State Fault Refusal :=
  let mode := Tbl.get 0 (startRegs s) Reg.govMode
  .next (newStart
    { State.reset with regs := [(Reg.govMode, mode)], starts := s.starts, agenda := s.agenda, focus := s.focus, ev := s.ev,
                       free := s.free, next := s.next })

/-- POWER_LOSS: FAILS and all other state is lost. -/
def execPowerLoss (s : State) : Host.Outcome State Fault Refusal :=
  .next { State.reset with starts := s.starts, agenda := s.agenda, focus := s.focus, ev := s.ev, free := s.free, next := s.next }

/-- BOOT_TMO: 60 s after the release of the service cores without BOOT_OK. -/
def execBootTmo (s : State) : Host.Outcome State Fault Refusal :=
  match s.gov.released with
  | some t => .next (if s.regF Reg.govMode 1 0 = 0 ∧ t + 60000000000 ≤ s.now 3 then deviceRestart s 5 else s)
  | none => .next s

end Sys2Proof.Machine
end

