-- ==== Sys2Proof/Machine/Governor.lean ====
section
/-! DEFINITION. The Governor (R405 to R413, R416 to R419, R433, R435 to R437): its mailbox commands, supervision and
restarts, partitions, and the events of the package. -/

namespace Sys2Proof.Machine

/-! ## The mailbox (R406, R407) -/

def gOK : Nat := 0
def gBADARG : Nat := 1
def gBUSYCARD : Nat := 2
def gBUSYLEAT : Nat := 3
def gBUSYPORT : Nat := 4
def gBUSYQUEUE : Nat := 5
def gTOOSOON : Nat := 6
def gMINIMAL : Nat := 7
def gABORTED : Nat := 8

/-- A command ends with a status; BUSY clears. -/
def govEnd (s : State) (n : Nat) : State := s.setReg Reg.govStat (reg64 n)

/-- A command goes on: BUSY. -/
def govBusy (s : State) (c : GovCmd) : State := (s.setRegF Reg.govStat 31 31 1).withGov { s.gov with cmd := some c }

/-- A write of GOV_CMD: ignored while BUSY, and while the Governor restarts. -/
def govRun (b : BusWrite) (s : State) (act : State → State) : Host.Outcome State Fault Refusal :=
  busRow s b (fun q => decide (q.reg = Reg.govCmd)) fun a _ => if a.regBit Reg.govStat 31 ∨ a.gov.warm then a else act a

def govArg (s : State) : Nat := (s.reg Reg.govArg0).toNat

/-! ## Busy checks -/

/-- Status for a list of PIDs whose work is still there. -/
def pidsBusy (s : State) (ps : List Nat) : Option Nat :=
  let cards := (knownCards s).any fun c => ps.contains (cardPid s c) &&
    (decide (1 ≤ cardState s c ∧ cardState s c ≤ 4) || (!(cardIsLaunch s c) && cardActive s c))
  let ports := (List.range 9).any fun n => s.regBit (Reg.spPid n) 4 && ps.contains (s.regF (Reg.spPid n) 3 0)
  let queues := [0, 1].any fun d => (List.range 32).any fun i => s.regBit (Reg.mqCfg d i) 63 && ps.contains (qPid s d i)
  let graphs := (List.range 64).any fun g => decide (s.regF (Reg.graphStat g) 1 0 = 1) && ps.contains (s.regF (Reg.graphCfg g) 35 32)
  if cards then some gBUSYCARD else if ports then some gBUSYPORT else if queues || graphs then some gBUSYQUEUE else none

/-! ## ASSIGN (R407) -/

/-- Both copies of the PID map. -/
def setPidmap (s : State) (p x : Nat) : State :=
  (s.setRegF Reg.govPidmap (4 * p + 3) (4 * p) x).setRegF Reg.ddxPidmap (4 * p + 3) (4 * p) x

def runAssign (s : State) : State :=
  let a := govArg s
  let p := a % 16
  let t := a / 16 % 16
  if 256 ≤ a ∨ (4 ≤ t ∧ t ≠ 15) ∨ (s.gov.minimal ∧ t ≠ 15 ∧ t ≠ s.regF Reg.govMode 7 6) then govEnd s gBADARG
  else
    match pidsBusy s [p] with
    | some n => govEnd s n
    | none => govEnd (setPidmap s p (if t = 15 then 15 else partOfQ s t)) gOK

def execGovAssign (b : BusWrite) (s : State) : Host.Outcome State Fault Refusal := govRun b s runAssign

/-! ## Partitions (R412, R413) -/

def maskQuarters (m : Nat) : List Nat := (List.range 4).filter fun q => m.testBit q

/-- The quarters of a mask lie in partitions inside the mask. -/
def maskWhole (s : State) (m : Nat) : Bool :=
  (List.range 4).all fun q => m.testBit q || (maskQuarters m).all fun x => decide (partOfQ s x ≠ partOfQ s q)

def maskOne (s : State) (m : Nat) : Bool :=
  (maskQuarters m).all fun q => (maskQuarters m).all fun x => decide (partOfQ s q = partOfQ s x)

def maskOk (m : Nat) : Bool := decide (m = 3 ∨ m = 12 ∨ m = 15)
def mergeOk (s : State) (m : Nat) : Bool := maskOk m && maskWhole s m && !(maskOne s m)
def splitOk (s : State) (m : Nat) : Bool := maskOk m && maskWhole s m && maskOne s m

/-- PIDs assigned to a quarter of the mask. -/
def maskPids (s : State) (m : Nat) : List Nat :=
  (List.range 16).filter fun p => (pidQuarters s p).any fun q => m.testBit q

def maskDies (m : Nat) : List Nat := [0, 1].filter fun d => m / 4 ^ d % 4 ≠ 0

/-- DIE_MODE of the dies concerned after the command. -/
def newMode (c : GovCmd) : Nat :=
  match c with
  | .merge _ => 1
  | .split 15 => 1
  | _ => 0

def cmdMask (c : GovCmd) : Nat :=
  match c with
  | .merge m => m
  | .split m => m
  | .restartCtl _ => 0

/-- Slices of the dies whose DIE_MODE changes. -/
def rehomed (s : State) (c : GovCmd) : List Nat :=
  ((maskDies (cmdMask c)).filter fun d => s.regF (Reg.homeMap d) 0 0 ≠ newMode c).flatMap fun d =>
    (List.range 16).map fun h => 16 * d + h

/-- The partition of a quarter after the command, by its lowest quarter. -/
def newPart (s : State) (c : GovCmd) (q : Nat) : Nat :=
  let m := cmdMask c
  if !(m.testBit q) then partOfQ s q
  else
    match c with
    | .merge _ => (maskQuarters m).headD 0
    | .split _ => if m = 15 then q / 2 * 2 else q
    | .restartCtl _ => partOfQ s q

/-- A waiter entry or an offer is held by a slice. -/
def leatHeld (s : State) (hs : List Nat) : Bool :=
  (s.lq.waiters.any fun (w : Waiter) => hs.contains w.slice) || s.lq.offers.any fun (o : Offer) => hs.contains (homeSlice s o.cb)

def oldOwner (s : State) (o : Owner) : Bool :=
  match o with
  | .engine i => decide (i < s.gov.holdFrom)
  | .l1 _ _ => false

/-- Step 5 for one line: owners and copies are recalled and its entry freed, unless an engine write that owned it is
still to be returned. What waits for the line waits on. -/
def emptyLine (s : State) (line : Nat) : State :=
  let e := dirEnt s line
  if e.owners.any (oldOwner s) then s
  else
    let s1 := dirEvict (if (l1Owner s line).isSome then giveUp s line else s) line
    let new := e.owners.filter Owner.isEngine
    if new = [] ∧ e.excl = [] then s1
    else setDir s1 line { DirEnt.empty with hor := (s1.reg (Reg.evh (homeSlice s1 (512 * line)))).toNat, owners := new, excl := e.excl }

/-- Step 5: empty the slices that hold. -/
def emptySlices (s : State) : State :=
  let s1 := (s.ms.dir.keys.filter (lineHeld s)).foldl emptyLine s
  s.gov.holdSlices.foldl (fun (a : State) h => (hcSlice a h).keys.foldl (fun (b : State) l => hcEvict b h l) a) s1

def stillOwned (s : State) : Bool := s.ms.dir.any fun e => lineHeld s e.1 && e.2.owners.any (oldOwner s)

/-- The time that step 6 waits for. -/
def rehomeTime (s : State) : Nat := s.gov.holdSlices.foldl (fun (m : Nat) h => max m (s.reg (Reg.evh h)).toNat) 0 + 8

/-- Steps 1 to 5 of MERGE or SPLIT. -/
def runRehome (s : State) (c : GovCmd) (ok : Bool) : State :=
  let m := cmdMask c
  if !ok then govEnd s gBADARG
  else if s.gov.minimal then govEnd s gMINIMAL
  else
    match pidsBusy s (maskPids s m) with
    | some n => govEnd s n
    | none =>
      if leatHeld s (rehomed s c) then govEnd s gBUSYLEAT
      else
        let s1 := govBusy s c
        emptySlices (s1.withGov { s1.gov with
          emptying := true, holdSlices := rehomed s c, holdPids := maskPids s m, holdFrom := s.next })

def runMerge (s : State) : State := runRehome s (.merge (govArg s)) (mergeOk s (govArg s))
def runSplit (s : State) : State := runRehome s (.split (govArg s)) (splitOk s (govArg s))
def execMerge (b : BusWrite) (s : State) : Host.Outcome State Fault Refusal := govRun b s runMerge
def execSplit (b : BusWrite) (s : State) : Host.Outcome State Fault Refusal := govRun b s runSplit

/-- A request that a slice has held goes on: the bound of R80 counts from now. -/
def unholdReqs (s : State) : State :=
  let on := fun (q : Req) => if q.lines.any (lineHeld s) then { q with extra := s.now q.die - q.issue } else q
  s.withMs { s.ms with reqs := s.ms.reqs.map on }

/-- Releases what MERGE or SPLIT holds: the held requests go on, and the held ACTIVATE commands are performed. -/
def releaseHold (s0 : State) : State :=
  let acts := s0.gov.heldActs
  let s := unholdReqs s0
  acts.foldl activateCard
    (s.withGov { s.gov with cmd := none, emptying := false, holdSlices := [], holdPids := [], heldActs := [], holdFrom := 0 })

/-- Step 7: HOME_MAP, PART_CFG, GOV_PART, the DDX partition table and both PID maps. -/
def writePartitions (s : State) (c : GovCmd) : State :=
  let m := cmdMask c
  let part := (List.range 4).map fun q => newPart s c q
  let ps := maskPids s m
  let lowest := (maskQuarters m).headD 0
  let v := (List.range 4).foldl (fun (n : Nat) q => n + part.getD q 0 * 4 ^ q) 0
  let s1 := (maskDies m).foldl (fun (a : State) d => a.setReg (Reg.homeMap d) (reg64 (newMode c))) s
  let s2 := [0, 1].foldl (fun (a : State) d =>
    a.setReg (Reg.partCfg d) (reg64 (part.getD (2 * d) 0 + 4 * part.getD (2 * d + 1) 0))) s1
  let s3 := (s2.setReg Reg.govPart (reg64 v)).setReg Reg.ddxPart (reg64 v)
  ps.foldl (fun (a : State) p => setPidmap a p lowest) s3

/-- Step 8: every ASID of a die is shot down. -/
def shootDie (s : State) (d : Nat) : State :=
  if s.regBit (Reg.shootStat d) 0 then s else shootStart s d 2

/-- REHOME_HORIZON_REACHED: the slices are empty and Reached(E + 8) holds on every copy; steps 7 and 8. -/
def execRehomeHorizonReached (s : State) : Host.Outcome State Fault Refusal :=
  match s.gov.cmd with
  | some c =>
    if !s.gov.emptying ∨ s.gov.warm then .next s
    else
      let s1 := emptySlices s
      let t := rehomeTime s1
      if stillOwned s1 ∨ s1.now 0 < t ∨ s1.now 1 < t ∨ s1.now 3 < t then .next s1
      else if (maskDies (cmdMask c)).any fun d => s1.regBit (Reg.shootStat d) 0 then .next s1
      else
        let s2 := writePartitions s1 c
        .next ((maskDies (cmdMask c)).foldl shootDie (s2.withGov { s2.gov with emptying := false }))
  | none => .next s

/-- Step 9, once no shoot-down is in progress on the dies concerned. -/
def finishRehome (s : State) : State :=
  match s.gov.cmd with
  | some (.restartCtl _) | none => s
  | some c =>
    if s.gov.emptying ∨ (maskDies (cmdMask c)).any fun d => s.regBit (Reg.shootStat d) 0 then s
    else govEnd (postEvent (releaseHold s) 9 0 (s.reg Reg.govPart).toNat 0) gOK

/-- SHOOT_COMPLETE (R76), with the last step of a merge or split that waited for it (R412). -/
def execShootComplete (s : State) : Host.Outcome State Fault Refusal := .next (finishRehome (shootDone s s.ev.i))

/-! ## Restarts (R409 to R411) -/

/-- Steps 2 to 4 of R410 for one card: its engines stop at once, and what is in flight is not waited for. -/
def restartCard (s : State) (c : Nat) : State :=
  let ws := (s.warps.filter fun e => decide (e.2.card = c)).map (·.1)
  killNow (ws.foldl unpark s) c

def cardBusy (s : State) (c : Nat) : Bool := !(cardFree s c)

/-- 100 us have not passed since the last restart of the PID, or of a die holding its cards. -/
def tooSoon (s : State) (p : Nat) : Bool :=
  let recent := fun (x : Option Nat) => match x with
    | some t => decide (s.now 3 < t + 100000)
    | none => false
  recent (s.gov.pidRestart.find p) || [0, 1].any fun d => pidHasDie s p d && recent (s.gov.ctlRestart.find d)

/-- RESTART_PID (R410). -/
def restartPid (s : State) (p : Nat) : State :=
  let cs := (knownCards s).filter fun c => decide (cardPid s c = p) && cardBusy s c
  let s1 := cs.foldl restartCard s
  postEvent (s1.withGov { s1.gov with pidRestart := s1.gov.pidRestart.set p (s1.now 3) }) 3 0 p 0

def runRestartPid (s : State) : State :=
  let p := govArg s
  if 16 ≤ p then govEnd s gBADARG else if tooSoon s p then govEnd s gTOOSOON else govEnd (restartPid s p) gOK

def execRestartPid (b : BusWrite) (s : State) : Host.Outcome State Fault Refusal := govRun b s runRestartPid

/-- Cards with a team that combines at a node on a die: a team on several cores with one of them there, or a team on
both dies that the die owns (R193, R195). -/
def nodeCards (s : State) (d : Nat) : List Nat :=
  ((s.ddx.teams.filter fun e =>
    let cores := teamCores s e.2
    let dies := cores.foldl (fun (a : List Nat) c => insertNat (coreDie c) a) []
    decide (1 < cores.length) && (dies.contains d || (decide (1 < dies.length) && decide (e.2.owner = d)))).map fun e => e.2.card).eraseDups

/-- Requests of a queue processor's threads that the restart loses. -/
def dropQpRequests (s : State) (d : Nat) : State :=
  let gone := fun (q : LReq) => match q.who with
    | .qp x _ => decide (x = d)
    | _ => false
  let s1 := dropQpWaiters s d
  (s1.withLq { s1.lq with reqs := s1.lq.reqs.filter fun q => !(gone q) }).withDdx
    { s1.ddx with asks := s1.ddx.asks.filter fun (a : Ask) =>
        match a.src with
        | .queue x _ _ th => !(decide (x = d ∧ th < 32))
        | _ => true }

/-- Threads of the other die's queues that a failed adopter served are lost with it. -/
def dropAdopted (s : State) (d : Nat) : State :=
  let s1 := { s with th := s.th.filter fun e => !(decide (thKey d 32 ≤ e.1 ∧ e.1 < thKey d 64)) }
  s1.setRegF (Reg.qpStatus d) 1 1 0

/-- RESTART_CTL (R411) of a die; tdet is the time of the detection. -/
def restartCtl (s : State) (d tdet : Nat) : State :=
  let o := 1 - d
  let s0 := dropAdopted s d
  let adopt := decide (partOfQ s 0 = partOfQ s 2) && (s.gov.qpRestart.find o).isNone
  let s1 := if adopt then adoptQueues (s0.setReg (Reg.qpAdopt o) (reg64 (2 ^ 62 + tdet % 2 ^ 62))) o else dropQpRequests s0 d
  let s2 := (nodeCards s1 d).foldl restartCard s1
  s2.withGov { s2.gov with
    qpRestart := s2.gov.qpRestart.set d adopt
    ctlRestart := s2.gov.ctlRestart.set d (s2.now 3)
    hb := s2.gov.hb.del d }

def runRestartCtl (s : State) : State :=
  let d := govArg s
  if 2 ≤ d then govEnd s gBADARG
  else if (s.gov.qpRestart.find d).isSome then govBusy s (.restartCtl d)
  else govBusy (restartCtl s d (s.now 3)) (.restartCtl d)

def execRestartCtl (b : BusWrite) (s : State) : Host.Outcome State Fault Refusal := govRun b s runRestartCtl

/-- Every thread of a restarted processor is OFF; each queue with EN = 1 then resumes from its shadow. -/
def resumeQueues (s : State) (d : Nat) : State :=
  (List.range 32).foldl (fun (a : State) i =>
    if a.regBit (Reg.mqCfg d i) 63 then resumeShadow a d i (thread a d i)
    else
      match a.th.find (thKey d i) with
      | some t => setThread a d i (t.halted false)
      | none => a) s

/-- The QP firmware is loaded and verified again (R411, R415): the copy that the start accepted, which the boot flash still holds. -/
def reloadQp (s : State) : State :=
  match s.gov.qpImage with
  | some e => placeImage s e
  | none => s

/-- QP_RESTART_COMPLETE (R411). -/
def execQpRestartComplete (s : State) : Host.Outcome State Fault Refusal :=
  let d := s.ev.i
  match s.gov.qpRestart.find d with
  | none => .next s
  | some adopted =>
    let o := 1 - d
    let s1 := reloadQp (s.withGov { s.gov with qpRestart := s.gov.qpRestart.del d })
    let s2 :=
      if adopted then
        let a := s1.setRegF (Reg.qpAdopt o) 63 62 2
        if qpAdopting a o then handBack a o else a
      else resumeQueues s1 d
    let s3 := postEvent s2 3 1 d 0
    .next (match s3.gov.cmd with
      | some (.restartCtl x) => if x = d then govEnd (s3.withGov { s3.gov with cmd := none }) gOK else s3
      | _ => s3)

/-! ## Snapshots and the other commands (R416, R417, R419) -/

def execGovSnapshot (b : BusWrite) (s : State) : Host.Outcome State Fault Refusal :=
  govRun b s fun a => govEnd (armSnap a (govArg a)) gOK

def snapWrite (s : State) (q : RegPart) : State :=
  let v := mergeReg s q (2 ^ 64 - 1)
  if v = 0 then (s.withGov { s.gov with snapArmed := none, snapDies := [] }).setReg Reg.govSnapT 0 else armSnap s v.toNat

def execGovSnapTWrite (b : BusWrite) (s : State) : Host.Outcome State Fault Refusal :=
  busRow s b (fun q => decide (q.reg = Reg.govSnapT)) snapWrite

/-- BOOT_OK: NORMAL with FAILS 0, or MINIMAL; nothing while no start has reached step 5. -/
def runBootOk (s : State) : State :=
  if s.gov.holdReset then govEnd s gOK
  else
    let s1 := s.withGov { s.gov with released := none }
    govEnd (if s.gov.minimal then s1.setRegF Reg.govMode 1 0 2
      else (s1.setRegF Reg.govMode 1 0 1).setRegF Reg.govMode 11 8 0) gOK

def execBootOk (b : BusWrite) (s : State) : Host.Outcome State Fault Refusal := govRun b s runBootOk

def runRestartDevice (s : State) : State :=
  let a := govArg s
  if 2 ≤ a then govEnd s gBADARG
  else newStart (if a = 1 then s.setRegF Reg.govMode 11 8 0 else s)

def execRestartDevice (b : BusWrite) (s : State) : Host.Outcome State Fault Refusal := govRun b s runRestartDevice

/-! ## Supervision (R405, R408) -/

/-- The Governor's action for a failure of R408. -/
def govAct (s : State) : GovAct → State
  | .deviceRestart c => deviceRestart s c
  | .qpFail d t => restartCtl (postEvent s 2 0 d t) d t
  | .distFail d => if (s.gov.qpRestart.find d).isSome then s else restartCtl s d (s.now 3)
  | .skewErr c => postEvent s 6 0 c 0
  | .hbMiss c third =>
    let s1 := postEvent s 1 4 c 0
    if third then deviceRestart s1 7 else s1

def GovAct.restarts : GovAct → Bool
  | .deviceRestart _ => true
  | .hbMiss _ third => third
  | _ => false

/-- Actions in order; a device restart is the last. -/
def govActs : List GovAct → State → State
  | [], s => s
  | a :: t, s => if a.restarts then govAct s a else govActs t (govAct s a)

/-- An action of R408 after a snapshot at Now(): at once, or once R419 lets the snapshot be latched. -/
def supervise (s : State) (a : GovAct) : State :=
  if s.gov.todo = [] && mayLatch s then govAct (latchAll s) a else s.withGov { s.gov with todo := s.gov.todo ++ [a] }

/-- SNAPSHOT_LATCH: a window latches at Reached(t) on its copy; after the last, the actions that waited. -/
def execSnapshotLatch (s : State) : Host.Outcome State Fault Refusal :=
  let w := s.ev.i
  match snapDue s with
  | none => .next s
  | some t =>
    if 4 ≤ w ∨ s.now w < t ∨ s.gov.snapDies.contains w then .next s
    else
      let s1 := latchWin s w
      let s2 := s1.withGov { s1.gov with snapDies := insertNat w s1.gov.snapDies }
      if s2.gov.snapDies.length < 4 then .next s2
      else
        let s3 := finishSnap s2 t
        .next (govActs s3.gov.todo (s3.withGov { s3.gov with todo := [] }))

/-- The Governor judges heartbeats, reports and signals: not before step 5 of a start, nor during a warm restart. -/
def govJudges (s : State) : Bool := !s.gov.warm && !s.gov.holdReset

def execDdxSilence (s : State) : Host.Outcome State Fault Refusal :=
  .next (if govJudges s then supervise s (.deviceRestart 6) else s)

/-- QP_HB_SAMPLE: every 20 us; two successive equal samples are a failure. -/
def execQpHbSample (s : State) : Host.Outcome State Fault Refusal :=
  let d := s.ev.i
  let v := (s.reg (Reg.qpHb d)).toNat
  let n := s.now 3
  if !(govJudges s && qpUp s d) ∨ 2 ≤ d ∨ (s.gov.qpRestart.find d).isSome then .next s
  else
    match s.gov.hb.find d with
    | none => .next (s.withGov { s.gov with hb := s.gov.hb.set d (v, n) })
    | some x =>
      if n < x.2 + 20000 then .next s
      else
        let s1 := s.withGov { s.gov with hb := s.gov.hb.set d (v, n) }
        .next (if x.1 = v then supervise (s1.withGov { s1.gov with hb := s1.gov.hb.del d }) (.qpFail d n) else s1)

def execDistributorSilence (s : State) : Host.Outcome State Fault Refusal :=
  .next (if govJudges s ∧ ctlUp s s.ev.i ∧ s.ev.i < 2 ∧ (s.gov.qpRestart.find s.ev.i).isNone then supervise s (.distFail s.ev.i) else s)

def execSkewReport (s : State) : Host.Outcome State Fault Refusal :=
  let c := s.ev.i
  if govJudges s ∧ s.gov.skew.contains c then
    .next (supervise (s.withGov { s.gov with skew := s.gov.skew.erase c }) (.skewErr c))
  else .next s

/-- SERVICE_HB_PERIOD: the end of a heartbeat period of a cluster. -/
def execServiceHbPeriod (s : State) : Host.Outcome State Fault Refusal :=
  let c := s.ev.i
  let k := 100 + c
  let per := 1000 * s.regF Reg.govHbcfg 19 0
  let v := (s.reg (Reg.govHb c)).toNat
  let n := s.now 3
  if !(govJudges s) ∨ 4 ≤ c ∨ per = 0 then .next s
  else
    match s.gov.hb.find k with
    | none => .next (s.withGov { s.gov with hb := s.gov.hb.set k (v, n) })
    | some x =>
      if n < x.2 + per then .next s
      else
        let miss := if x.1 = v then s.gov.svcMiss.getD c 0 + 1 else 0
        let s1 := s.withGov { s.gov with hb := s.gov.hb.set k (v, n), svcMiss := setPad 0 s.gov.svcMiss c miss }
        .next (if x.1 = v then supervise s1 (.hbMiss c (decide (miss = 3) && s.regBit Reg.govHbcfg 20)) else s1)

/-- GOVERNOR_REPORT: the DDX's report, posted; under RESTART the PID is restarted, but not too soon. -/
def execGovernorReport (s : State) : Host.Outcome State Fault Refusal :=
  match s.ddx.reports[s.ev.i]? with
  | none => .next s
  | some r =>
    if !(govJudges s) then .next s
    else
      let s1 := s.withDdx { s.ddx with reports := dropAt s.ddx.reports s.ev.i }
      if r.1 = 256 then .next (postEvent s1 5 0 r.2.2 (s1.regF (Reg.opStat r.2.2) 15 8))
      else
        let p := cardPid s1 r.2.1
        let s2 := postEvent s1 4 r.1 r.2.1 (if r.1 = tBOV then r.2.2 else 0)
        .next (if s2.regF Reg.govPol (2 * p + 1) (2 * p) = 1 ∧ !(tooSoon s2 p) then restartPid s2 p else s2)

/-- LOCKSTEP_MISMATCH (R405). -/
def execLockstepMismatch (s : State) : Host.Outcome State Fault Refusal :=
  let n := s.now 3
  let again := match s.gov.lastMismatch with
    | some t => decide (n ≤ t + 10000000)
    | none => false
  let s1 := s.regInc Reg.govLock 32
  if again then .next (deviceRestart s1 8)
  else
    let s2 := if s1.regBit Reg.govStat 31 then govEnd (releaseHold s1) gABORTED else s1
    .next (postEvent (s2.withGov { s2.gov with
      warm := true, lastMismatch := some n, cpu := { x := [], pc := Config.govWarmEntry, csr := [] } }) 7 0 (s2.reg Reg.govLock).toNat 0)

def execGovernorWarmRestartDone (s : State) : Host.Outcome State Fault Refusal :=
  .next (s.withGov { s.gov with warm := false })

/-! ## The package (R433, R435 to R437) -/

def execLinkRetrainFail (s : State) : Host.Outcome State Fault Refusal := .next (deviceRestart s 9)

/-- THERM_TRIP: at 125 degrees the die loses power; its power returns with the start that follows. -/
def execThermTrip (s : State) : Host.Outcome State Fault Refusal :=
  let d := s.ev.i
  let t := s.regF (Reg.opStat d) 15 8
  if d < 2 ∧ 125 ≤ t then .next (deviceRestart (postEvent { s with dieOff := insertNat d s.dieOff } 5 0 d t) 10) else .next s

def execDieTemperatureChange (s : State) : Host.Outcome State Fault Refusal :=
  if s.ev.i < 2 then .next (thermFlag (s.setRegF (Reg.opStat s.ev.i) 15 8 s.ev.j)) else .next s

/-- DEBUG_UNLOCK (R437): the answer to the Governor's challenge, signed with the key in slot 3. -/
def execDebugUnlock (s : State) : Host.Outcome State Fault Refusal :=
  .next (if Config.signatureValid 3 Config.debugChallenge s.ev.bytes && !(Config.slotRevoked 3) then { s with debugOpen := true } else s)

/-- PCIE_INBOUND_READ (R433): the endpoint completes it with Unsupported Request. -/
def execPcieInboundRead (s : State) : Host.Outcome State Fault Refusal :=
  .next (if Config.pcieRoot then s else { s with pcieDone := s.pcieDone ++ [BitVec.ofNat 16 s.ev.i] })

def ozSet (s : State) (up degraded : Nat) : State :=
  [0, 1].foldl (fun (a : State) d => a.setReg (Reg.ozStat d) (reg64 (up + 2 * degraded))) s

def execOzashLinkDown (s : State) : Host.Outcome State Fault Refusal :=
  .next ([0, 1].foldl (fun (a : State) d => a.setRegF (Reg.ozStat d) 0 0 0) s)

def execOzashLinkRetrained (s : State) : Host.Outcome State Fault Refusal := .next (ozSet s 1 (if s.ev.flag then 1 else 0))

def execFlitReplay (s : State) : Host.Outcome State Fault Refusal :=
  if s.ev.i < 2 then
    .next (s.setReg (Reg.ozReplay s.ev.i) (reg64 (min (2 ^ 64 - 1) ((s.reg (Reg.ozReplay s.ev.i)).toNat + s.ev.j))))
  else .next s

end Sys2Proof.Machine
end

