-- ==== Sys2Proof/Machine/Dispatch.lean ====
section
/-! DEFINITION. The dispatch of every instruction to its meaning: one arm per row of the opcode table. -/

namespace Sys2Proof.Machine

/-- What an instruction does. -/
def exec (i : Instr) (s : State) : Host.Outcome State Fault Refusal :=
  match i with
  | .registerWrite b => Sys2Proof.Machine.execRegisterWrite b s
  | .dtuLoadWrite b => Sys2Proof.Machine.execDtuLoadWrite b s
  | .dtuAdjWrite b => Sys2Proof.Machine.execDtuAdjWrite b s
  | .leaseCfgWrite b => Sys2Proof.Machine.execLeaseCfgWrite b s
  | .shootPage b => Sys2Proof.Machine.execShootPage b s
  | .shootAsid b => Sys2Proof.Machine.execShootAsid b s
  | .shootAll b => Sys2Proof.Machine.execShootAll b s
  | .lqEnq b => Sys2Proof.Machine.execLqEnq b s
  | .lqDeq b => Sys2Proof.Machine.execLqDeq b s
  | .lqResv b => Sys2Proof.Machine.execLqResv b s
  | .lqDone b => Sys2Proof.Machine.execLqDone b s
  | .lqInit b => Sys2Proof.Machine.execLqInit b s
  | .lqDrain b => Sys2Proof.Machine.execLqDrain b s
  | .lqClose b => Sys2Proof.Machine.execLqClose b s
  | .lqReopen b => Sys2Proof.Machine.execLqReopen b s
  | .lqRepair b => Sys2Proof.Machine.execLqRepair b s
  | .lqQuery b => Sys2Proof.Machine.execLqQuery b s
  | .mqEnable b => Sys2Proof.Machine.execMqEnable b s
  | .mqSkip b => Sys2Proof.Machine.execMqSkip b s
  | .mqRetry b => Sys2Proof.Machine.execMqRetry b s
  | .mqStop b => Sys2Proof.Machine.execMqStop b s
  | .pktNop p => Sys2Proof.Machine.execPktNop p s
  | .launch p => Sys2Proof.Machine.execLaunch p s
  | .wait p => Sys2Proof.Machine.execWait p s
  | .pred p => Sys2Proof.Machine.execPred p s
  | .trigger p => Sys2Proof.Machine.execTrigger p s
  | .signalStore p => Sys2Proof.Machine.execSignalStore p s
  | .signalAdd p => Sys2Proof.Machine.execSignalAdd p s
  | .signalEnq p => Sys2Proof.Machine.execSignalEnq p s
  | .signalIntr p => Sys2Proof.Machine.execSignalIntr p s
  | .adopt b => Sys2Proof.Machine.execAdopt b s
  | .handback b => Sys2Proof.Machine.execHandback b s
  | .graphValidate b => Sys2Proof.Machine.execGraphValidate b s
  | .graphTrigger b => Sys2Proof.Machine.execGraphTrigger b s
  | .jobCardWrite b => Sys2Proof.Machine.execJobCardWrite b s
  | .activate b => Sys2Proof.Machine.execActivate b s
  | .retire b => Sys2Proof.Machine.execRetire b s
  | .ddxResume b => Sys2Proof.Machine.execDdxResume b s
  | .ddxKill b => Sys2Proof.Machine.execDdxKill b s
  | .sluCfgWrite b => Sys2Proof.Machine.execSluCfgWrite b s
  | .clauseBegin hdr => Sys2Proof.Machine.execClauseBegin hdr s
  | .ovlCmdLoad b => Sys2Proof.Machine.execOvlCmdLoad b s
  | .invalCard b => Sys2Proof.Machine.execInvalCard b s
  | .invalPid b => Sys2Proof.Machine.execInvalPid b s
  | .iadd w => Sys2Proof.Machine.execIadd w s
  | .isub w => Sys2Proof.Machine.execIsub w s
  | .imul w => Sys2Proof.Machine.execImul w s
  | .imulhi w => Sys2Proof.Machine.execImulhi w s
  | .imad w => Sys2Proof.Machine.execImad w s
  | .imin w => Sys2Proof.Machine.execImin w s
  | .imax w => Sys2Proof.Machine.execImax w s
  | .iabs w => Sys2Proof.Machine.execIabs w s
  | .ineg w => Sys2Proof.Machine.execIneg w s
  | .lea w => Sys2Proof.Machine.execLea w s
  | .icmp w => Sys2Proof.Machine.execIcmp w s
  | .sel w => Sys2Proof.Machine.execSel w s
  | .and w => Sys2Proof.Machine.execAnd w s
  | .or w => Sys2Proof.Machine.execOr w s
  | .xor w => Sys2Proof.Machine.execXor w s
  | .not w => Sys2Proof.Machine.execNot w s
  | .shl w => Sys2Proof.Machine.execShl w s
  | .shr w => Sys2Proof.Machine.execShr w s
  | .rot w => Sys2Proof.Machine.execRot w s
  | .bfe w => Sys2Proof.Machine.execBfe w s
  | .bfi w => Sys2Proof.Machine.execBfi w s
  | .popc w => Sys2Proof.Machine.execPopc w s
  | .clz w => Sys2Proof.Machine.execClz w s
  | .brev w => Sys2Proof.Machine.execBrev w s
  | .fadd w => Sys2Proof.Machine.execFadd w s
  | .fsub w => Sys2Proof.Machine.execFsub w s
  | .fmul w => Sys2Proof.Machine.execFmul w s
  | .ffma w => Sys2Proof.Machine.execFfma w s
  | .fmin w => Sys2Proof.Machine.execFmin w s
  | .fmax w => Sys2Proof.Machine.execFmax w s
  | .fcmp w => Sys2Proof.Machine.execFcmp w s
  | .fclass w => Sys2Proof.Machine.execFclass w s
  | .frcp w => Sys2Proof.Machine.execFrcp w s
  | .frsq w => Sys2Proof.Machine.execFrsq w s
  | .fsqrt w => Sys2Proof.Machine.execFsqrt w s
  | .fexp2 w => Sys2Proof.Machine.execFexp2 w s
  | .flog2 w => Sys2Proof.Machine.execFlog2 w s
  | .fsin w => Sys2Proof.Machine.execFsin w s
  | .fcos w => Sys2Proof.Machine.execFcos w s
  | .cvt w => Sys2Proof.Machine.execCvt w s
  | .pack w => Sys2Proof.Machine.execPack w s
  | .unpack w => Sys2Proof.Machine.execUnpack w s
  | .dp4 w => Sys2Proof.Machine.execDp4 w s
  | .dp8 w => Sys2Proof.Machine.execDp8 w s
  | .bsel w => Sys2Proof.Machine.execBsel w s
  | .mov w => Sys2Proof.Machine.execMov w s
  | .pcomb w => Sys2Proof.Machine.execPcomb w s
  | .psave w => Sys2Proof.Machine.execPsave w s
  | .pload w => Sys2Proof.Machine.execPload w s
  | .qxch w => Sys2Proof.Machine.execQxch w s
  | .lpick w => Sys2Proof.Machine.execLpick w s
  | .vote w => Sys2Proof.Machine.execVote w s
  | .scan w => Sys2Proof.Machine.execScan w s
  | .red w => Sys2Proof.Machine.execRed w s
  | .lsame w => Sys2Proof.Machine.execLsame w s
  | .lfirst w => Sys2Proof.Machine.execLfirst w s
  | .bra w => Sys2Proof.Machine.execBra w s
  | .brx w => Sys2Proof.Machine.execBrx w s
  | .call w => Sys2Proof.Machine.execCall w s
  | .ret w => Sys2Proof.Machine.execRet w s
  | .ocall w => Sys2Proof.Machine.execOcall w s
  | .conv w => Sys2Proof.Machine.execConv w s
  | .exit w => Sys2Proof.Machine.execExit w s
  | .sleep w => Sys2Proof.Machine.execSleep w s
  | .waitf w => Sys2Proof.Machine.execWaitf w s
  | .nop w => Sys2Proof.Machine.execNop w s
  | .ovld w => Sys2Proof.Machine.execOvld w s
  | .ovqry w => Sys2Proof.Machine.execOvqry w s
  | .ovrel w => Sys2Proof.Machine.execOvrel w s
  | .rdsr w => Sys2Proof.Machine.execRdsr w s
  | .wrsr w => Sys2Proof.Machine.execWrsr w s
  | .trap w => Sys2Proof.Machine.execTrap w s
  | .bkpt w => Sys2Proof.Machine.execBkpt w s
  | .svc w => Sys2Proof.Machine.execSvc w s
  | .ld w => Sys2Proof.Machine.execLd w s
  | .st w => Sys2Proof.Machine.execSt w s
  | .cpa w => Sys2Proof.Machine.execCpa w s
  | .atomAdd w => Sys2Proof.Machine.execAtomAdd w s
  | .atomMin w => Sys2Proof.Machine.execAtomMin w s
  | .atomMax w => Sys2Proof.Machine.execAtomMax w s
  | .atomAnd w => Sys2Proof.Machine.execAtomAnd w s
  | .atomOr w => Sys2Proof.Machine.execAtomOr w s
  | .atomXor w => Sys2Proof.Machine.execAtomXor w s
  | .atomExch w => Sys2Proof.Machine.execAtomExch w s
  | .atomCas w => Sys2Proof.Machine.execAtomCas w s
  | .atomFadd w => Sys2Proof.Machine.execAtomFadd w s
  | .fredAdd w => Sys2Proof.Machine.execFredAdd w s
  | .fredMin w => Sys2Proof.Machine.execFredMin w s
  | .fredMax w => Sys2Proof.Machine.execFredMax w s
  | .fredAnd w => Sys2Proof.Machine.execFredAnd w s
  | .fredOr w => Sys2Proof.Machine.execFredOr w s
  | .fredXor w => Sys2Proof.Machine.execFredXor w s
  | .fredFadd w => Sys2Proof.Machine.execFredFadd w s
  | .fence w => Sys2Proof.Machine.execFence w s
  | .bar w => Sys2Proof.Machine.execBar w s
  | .pbinit w => Sys2Proof.Machine.execPbinit w s
  | .pbarr w => Sys2Proof.Machine.execPbarr w s
  | .pbwait w => Sys2Proof.Machine.execPbwait w s
  | .tbar w => Sys2Proof.Machine.execTbar w s
  | .qenq w => Sys2Proof.Machine.execQenq w s
  | .qdeq w => Sys2Proof.Machine.execQdeq w s
  | .qres w => Sys2Proof.Machine.execQres w s
  | .qdone w => Sys2Proof.Machine.execQdone w s
  | .qctl w => Sys2Proof.Machine.execQctl w s
  | .cres w => Sys2Proof.Machine.execCres w s
  | .cpost w => Sys2Proof.Machine.execCpost w s
  | .ordin w => Sys2Proof.Machine.execOrdin w s
  | .ordout w => Sys2Proof.Machine.execOrdout w s
  | .knop w => Sys2Proof.Machine.execKnop w s
  | .kadd w => Sys2Proof.Machine.execKadd w s
  | .ksub w => Sys2Proof.Machine.execKsub w s
  | .kmul w => Sys2Proof.Machine.execKmul w s
  | .kand w => Sys2Proof.Machine.execKand w s
  | .kor w => Sys2Proof.Machine.execKor w s
  | .kxor w => Sys2Proof.Machine.execKxor w s
  | .kshl w => Sys2Proof.Machine.execKshl w s
  | .kshr w => Sys2Proof.Machine.execKshr w s
  | .ksra w => Sys2Proof.Machine.execKsra w s
  | .kmin w => Sys2Proof.Machine.execKmin w s
  | .kmax w => Sys2Proof.Machine.execKmax w s
  | .kpack w => Sys2Proof.Machine.execKpack w s
  | .kaddi w => Sys2Proof.Machine.execKaddi w s
  | .kli w => Sys2Proof.Machine.execKli w s
  | .klis w => Sys2Proof.Machine.execKlis w s
  | .kbeq w => Sys2Proof.Machine.execKbeq w s
  | .kbne w => Sys2Proof.Machine.execKbne w s
  | .kblt w => Sys2Proof.Machine.execKblt w s
  | .kbge w => Sys2Proof.Machine.execKbge w s
  | .kbltu w => Sys2Proof.Machine.execKbltu w s
  | .kbgeu w => Sys2Proof.Machine.execKbgeu w s
  | .kjmp w => Sys2Proof.Machine.execKjmp w s
  | .kloop w => Sys2Proof.Machine.execKloop w s
  | .kocall w => Sys2Proof.Machine.execKocall w s
  | .kret w => Sys2Proof.Machine.execKret w s
  | .ktime w => Sys2Proof.Machine.execKtime w s
  | .kwch w => Sys2Proof.Machine.execKwch w s
  | .kld w => Sys2Proof.Machine.execKld w s
  | .tbind w => Sys2Proof.Machine.execTbind w s
  | .tunbind w => Sys2Proof.Machine.execTunbind w s
  | .ldw w => Sys2Proof.Machine.execLdw w s
  | .ldr w => Sys2Proof.Machine.execLdr w s
  | .lpf w => Sys2Proof.Machine.execLpf w s
  | .xmmI8 w => Sys2Proof.Machine.execXmmI8 w s
  | .xmmI4 w => Sys2Proof.Machine.execXmmI4 w s
  | .xmmBf16 w => Sys2Proof.Machine.execXmmBf16 w s
  | .xmmFp16 w => Sys2Proof.Machine.execXmmFp16 w s
  | .xmmbI8 w => Sys2Proof.Machine.execXmmbI8 w s
  | .xmmbI4 w => Sys2Proof.Machine.execXmmbI4 w s
  | .vclr w => Sys2Proof.Machine.execVclr w s
  | .vmov w => Sys2Proof.Machine.execVmov w s
  | .vadd w => Sys2Proof.Machine.execVadd w s
  | .vsub w => Sys2Proof.Machine.execVsub w s
  | .vmul w => Sys2Proof.Machine.execVmul w s
  | .vmax w => Sys2Proof.Machine.execVmax w s
  | .vmin w => Sys2Proof.Machine.execVmin w s
  | .vscl w => Sys2Proof.Machine.execVscl w s
  | .vbadd w => Sys2Proof.Machine.execVbadd w s
  | .vflclr w => Sys2Proof.Machine.execVflclr w s
  | .viadd w => Sys2Proof.Machine.execViadd w s
  | .viadds w => Sys2Proof.Machine.execViadds w s
  | .vishr w => Sys2Proof.Machine.execVishr w s
  | .vcvti w => Sys2Proof.Machine.execVcvti w s
  | .vcvtf w => Sys2Proof.Machine.execVcvtf w s
  | .vcvth w => Sys2Proof.Machine.execVcvth w s
  | .vcvtb w => Sys2Proof.Machine.execVcvtb w s
  | .vqnt8 w => Sys2Proof.Machine.execVqnt8 w s
  | .vqnt4 w => Sys2Proof.Machine.execVqnt4 w s
  | .sst w => Sys2Proof.Machine.execSst w s
  | .sredi w => Sys2Proof.Machine.execSredi w s
  | .sredf w => Sys2Proof.Machine.execSredf w s
  | .sqsig w => Sys2Proof.Machine.execSqsig w s
  | .tfence w => Sys2Proof.Machine.execTfence w s
  | .ttok w => Sys2Proof.Machine.execTtok w s
  | .tnop w => Sys2Proof.Machine.execTnop w s
  | .ckpt w => Sys2Proof.Machine.execCkpt w s
  | .tend w => Sys2Proof.Machine.execTend w s
  | .tsync w => Sys2Proof.Machine.execTsync w s
  | .pclr p => Sys2Proof.Machine.execPclr p s
  | .pfill p => Sys2Proof.Machine.execPfill p s
  | .prsv p => Sys2Proof.Machine.execPrsv p s
  | .ctxResume b => Sys2Proof.Machine.execCtxResume b s
  | .ctxResumeAt b => Sys2Proof.Machine.execCtxResumeAt b s
  | .ctxKill b => Sys2Proof.Machine.execCtxKill b s
  | .ctxSkip b => Sys2Proof.Machine.execCtxSkip b s
  | .govAssign b => Sys2Proof.Machine.execGovAssign b s
  | .merge b => Sys2Proof.Machine.execMerge b s
  | .split b => Sys2Proof.Machine.execSplit b s
  | .restartPid b => Sys2Proof.Machine.execRestartPid b s
  | .restartCtl b => Sys2Proof.Machine.execRestartCtl b s
  | .govSnapshot b => Sys2Proof.Machine.execGovSnapshot b s
  | .bootOk b => Sys2Proof.Machine.execBootOk b s
  | .restartDevice b => Sys2Proof.Machine.execRestartDevice b s
  | .govSnapTWrite b => Sys2Proof.Machine.execGovSnapTWrite b s
  | .powerOnReset => Sys2Proof.Machine.execPowerOnReset s
  | .bootTmo => Sys2Proof.Machine.execBootTmo s
  | .lockstepMismatch => Sys2Proof.Machine.execLockstepMismatch s
  | .linkRetrainFail => Sys2Proof.Machine.execLinkRetrainFail s
  | .thermTrip => Sys2Proof.Machine.execThermTrip s
  | .debugUnlock => Sys2Proof.Machine.execDebugUnlock s
  | .pcieInboundRead => Sys2Proof.Machine.execPcieInboundRead s
  | .dtuCorrection => Sys2Proof.Machine.execDtuCorrection s
  | .ppsInEdge => Sys2Proof.Machine.execPpsInEdge s
  | .ppsOutPulse => Sys2Proof.Machine.execPpsOutPulse s
  | .homeReadFill => Sys2Proof.Machine.execHomeReadFill s
  | .rdcFill => Sys2Proof.Machine.execRdcFill s
  | .homeStore => Sys2Proof.Machine.execHomeStore s
  | .homeReduction => Sys2Proof.Machine.execHomeReduction s
  | .ownerRecallComplete => Sys2Proof.Machine.execOwnerRecallComplete s
  | .engineLineRelease => Sys2Proof.Machine.execEngineLineRelease s
  | .serviceCoreExclRequest => Sys2Proof.Machine.execServiceCoreExclRequest s
  | .serviceCoreExclGrant => Sys2Proof.Machine.execServiceCoreExclGrant s
  | .shootComplete => Sys2Proof.Machine.execShootComplete s
  | .requestDrop => Sys2Proof.Machine.execRequestDrop s
  | .completionArrival => Sys2Proof.Machine.execCompletionArrival s
  | .streamBurst => Sys2Proof.Machine.execStreamBurst s
  | .frameStart => Sys2Proof.Machine.execFrameStart s
  | .frameEnd => Sys2Proof.Machine.execFrameEnd s
  | .frameRecordIssue => Sys2Proof.Machine.execFrameRecordIssue s
  | .leatEnqueue => Sys2Proof.Machine.execLeatEnqueue s
  | .leatDequeuePlain => Sys2Proof.Machine.execLeatDequeuePlain s
  | .leatDequeuePacket => Sys2Proof.Machine.execLeatDequeuePacket s
  | .leatReserve => Sys2Proof.Machine.execLeatReserve s
  | .leatDone => Sys2Proof.Machine.execLeatDone s
  | .qctlInit => Sys2Proof.Machine.execQctlInit s
  | .qctlDrain => Sys2Proof.Machine.execQctlDrain s
  | .qctlClose => Sys2Proof.Machine.execQctlClose s
  | .qctlReopen => Sys2Proof.Machine.execQctlReopen s
  | .qctlRepair => Sys2Proof.Machine.execQctlRepair s
  | .qctlQuery => Sys2Proof.Machine.execQctlQuery s
  | .publishNotify => Sys2Proof.Machine.execPublishNotify s
  | .offerAnswer => Sys2Proof.Machine.execOfferAnswer s
  | .offerTimeout => Sys2Proof.Machine.execOfferTimeout s
  | .waiterRemoval => Sys2Proof.Machine.execWaiterRemoval s
  | .waiterReissue => Sys2Proof.Machine.execWaiterReissue s
  | .releaseEndReeval => Sys2Proof.Machine.execReleaseEndReeval s
  | .qpPacketFetch => Sys2Proof.Machine.execQpPacketFetch s
  | .waitNotify => Sys2Proof.Machine.execWaitNotify s
  | .waitPoll => Sys2Proof.Machine.execWaitPoll s
  | .waitTimeout => Sys2Proof.Machine.execWaitTimeout s
  | .qpBlockedResume => Sys2Proof.Machine.execQpBlockedResume s
  | .adoptStartThreads => Sys2Proof.Machine.execAdoptStartThreads s
  | .handbackResume => Sys2Proof.Machine.execHandbackResume s
  | .graphNodeComplete => Sys2Proof.Machine.execGraphNodeComplete s
  | .ddxReleaseRequest => Sys2Proof.Machine.execDdxReleaseRequest s
  | .periodicRelease => Sys2Proof.Machine.execPeriodicRelease s
  | .dispatch => Sys2Proof.Machine.execDispatch s
  | .preemptSaveComplete => Sys2Proof.Machine.execPreemptSaveComplete s
  | .cardWorkDone => Sys2Proof.Machine.execCardWorkDone s
  | .deadlineMiss => Sys2Proof.Machine.execDeadlineMiss s
  | .thermalStep => Sys2Proof.Machine.execThermalStep s
  | .opChangeDone => Sys2Proof.Machine.execOpChangeDone s
  | .sluiceWindow => Sys2Proof.Machine.execSluiceWindow s
  | .sluiceOverrunReport => Sys2Proof.Machine.execSluiceOverrunReport s
  | .teamPlace => Sys2Proof.Machine.execTeamPlace s
  | .steal => Sys2Proof.Machine.execSteal s
  | .stealRetry => Sys2Proof.Machine.execStealRetry s
  | .contRecordRead => Sys2Proof.Machine.execContRecordRead s
  | .binTimeout => Sys2Proof.Machine.execBinTimeout s
  | .contWarpPlace => Sys2Proof.Machine.execContWarpPlace s
  | .teamNodeForward => Sys2Proof.Machine.execTeamNodeForward s
  | .teamBarrierRelease => Sys2Proof.Machine.execTeamBarrierRelease s
  | .blockBarrierRelease => Sys2Proof.Machine.execBlockBarrierRelease s
  | .phaseBarrierRecheck => Sys2Proof.Machine.execPhaseBarrierRecheck s
  | .longLatencyComplete => Sys2Proof.Machine.execLongLatencyComplete s
  | .fenceWaitEnd => Sys2Proof.Machine.execFenceWaitEnd s
  | .sleepExpiry => Sys2Proof.Machine.execSleepExpiry s
  | .visionPreempt => Sys2Proof.Machine.execVisionPreempt s
  | .ordboundExpiry => Sys2Proof.Machine.execOrdboundExpiry s
  | .visionRestore => Sys2Proof.Machine.execVisionRestore s
  | .overlayLoadDone => Sys2Proof.Machine.execOverlayLoadDone s
  | .overlayLoadFail => Sys2Proof.Machine.execOverlayLoadFail s
  | .placeTimeout => Sys2Proof.Machine.execPlaceTimeout s
  | .istoreRefetch => Sys2Proof.Machine.execIstoreRefetch s
  | .tileDispatch => Sys2Proof.Machine.execTileDispatch s
  | .wordRetire => Sys2Proof.Machine.execWordRetire s
  | .ckptMeet => Sys2Proof.Machine.execCkptMeet s
  | .tileSaveComplete => Sys2Proof.Machine.execTileSaveComplete s
  | .tileRestore => Sys2Proof.Machine.execTileRestore s
  | .ckspanExpiry => Sys2Proof.Machine.execCkspanExpiry s
  | .pceReleaseStart => Sys2Proof.Machine.execPceReleaseStart s
  | .pceCommandComplete => Sys2Proof.Machine.execPceCommandComplete s
  | .pceSpawn => Sys2Proof.Machine.execPceSpawn s
  | .spawnedWarpPlace => Sys2Proof.Machine.execSpawnedWarpPlace s
  | .pceStop => Sys2Proof.Machine.execPceStop s
  | .trapDeliver => Sys2Proof.Machine.execTrapDeliver s
  | .trapResend => Sys2Proof.Machine.execTrapResend s
  | .snapshotLatch => Sys2Proof.Machine.execSnapshotLatch s
  | .ddxSilence => Sys2Proof.Machine.execDdxSilence s
  | .qpHbSample => Sys2Proof.Machine.execQpHbSample s
  | .distributorSilence => Sys2Proof.Machine.execDistributorSilence s
  | .skewReport => Sys2Proof.Machine.execSkewReport s
  | .serviceHbPeriod => Sys2Proof.Machine.execServiceHbPeriod s
  | .governorReport => Sys2Proof.Machine.execGovernorReport s
  | .ozashLinkDown => Sys2Proof.Machine.execOzashLinkDown s
  | .ozashLinkRetrained => Sys2Proof.Machine.execOzashLinkRetrained s
  | .flitReplay => Sys2Proof.Machine.execFlitReplay s
  | .powerLoss => Sys2Proof.Machine.execPowerLoss s
  | .dieTemperatureChange => Sys2Proof.Machine.execDieTemperatureChange s
  | .governorWarmRestartDone => Sys2Proof.Machine.execGovernorWarmRestartDone s
  | .qpRestartComplete => Sys2Proof.Machine.execQpRestartComplete s
  | .rehomeHorizonReached => Sys2Proof.Machine.execRehomeHorizonReached s

end Sys2Proof.Machine
end

