-- ==== Sys2Proof/Machine/Muhilu.lean ====
section
/-! DEFINITION. Muhilu modules (R420 to R423, R428): the header, the function table, the instruction record with its
operands, and the status that a load returns. The translation itself is the loader's (R425 to R427, a service core's
program): what it places is native code, which the rest of the model runs. -/

namespace Sys2Proof.Machine

/-! ## Records and operands (R421, R422) -/

structure MuRec where
  opc : Nat
  gneg : Bool
  u : BitVec 1
  mod : BitVec 13
  guard : Nat
  dst : Nat
  srcA : Nat
  srcB : Nat
  srcC : Nat
  deriving DecidableEq, Repr

/-- The record whose low and high words are given. -/
def muRec (lo hi : DWord) : MuRec :=
  { opc := bits hi 63 54, gneg := bit hi 53, u := hi.extractLsb' 52 1, mod := hi.extractLsb' 39 13, guard := bits hi 38 32,
    dst := bits hi 31 8, srcA := 65536 * bits hi 7 0 + bits lo 63 48, srcB := bits lo 47 24, srcC := bits lo 23 0 }

inductive MuOpnd
  | v (n : Nat)
  | s (n : Nat)
  | p (n : Nat)
  | native (n : Nat)
  | lit (n : Nat)
  | target (n : Nat)
  | func (n : Nat)
  deriving DecidableEq, Repr

/-- The operand of a 24-bit field, in a module of so many literals and functions. -/
def muOpnd (nlit nfunc x : Nat) : Option MuOpnd :=
  let n := x % 2 ^ 20
  match x / 2 ^ 22 with
  | 0 => some (.v (x % 2 ^ 22))
  | 1 => some (.s (x % 2 ^ 22))
  | 2 => if x % 2 ^ 22 ≤ 126 then some (.p (x % 2 ^ 22)) else none
  | _ =>
    match x / 2 ^ 20 % 4 with
    | 0 => if 448 ≤ n ∧ n ≤ 508 then some (.native n) else none
    | 1 => if n < nlit then some (.lit n) else none
    | 2 => some (.target n)
    | _ => if n < nfunc then some (.func n) else none

/-- A native field of the operand's class, for the checks that look at classes alone. -/
def MuOpnd.field : MuOpnd → BitVec 9
  | .v _ => 0
  | .s _ => 256
  | .p _ => 0
  | .native n => BitVec.ofNat 9 n
  | .lit _ => 511
  | .target _ => 448
  | .func _ => 511

/-- Whether a native role takes an operand (R225, R228, R280, without alignment). -/
def MuOpnd.fits (o : MuOpnd) (k : Fk) : Bool :=
  match k, o with
  | .blank, .native n => decide (n = 448)
  | .pdst, .p _ => true
  | .psrc, .p _ => true
  | .dst _ _ _, .v _ => true
  | .dst _ vOnly _, .s _ => !vOnly
  | .dst _ _ disc, .native n => disc && decide (n = 448)
  | .src _ uni, .v _ => !uni
  | .src _ _, .s _ => true
  | .src n _, .native m => decide (m = 448 ∨ n ≤ 2)
  | .src n _, .lit _ => decide (n ≤ 2)
  | _, _ => false

/-- Native opcodes that are no Muhilu words (R423). -/
def muExcluded (opc : Nat) : Bool := decide (opc ∈ [0x0A1, 0x0A4, 0x0A8, 0x0A9, 0x0C0, 0x0C1, 0x0C2])

/-- The four operands; a link of CALL or RET is zero and reads as unused (R423). -/
def MuRec.operands (r : MuRec) (nlit nfunc : Nat) : Option (List MuOpnd) :=
  let link := fun (here : Bool) (x : Nat) => if here then (if x = 0 then some (.native 448) else none) else muOpnd nlit nfunc x
  match link (decide (r.opc = 0x0A2)) r.dst, link (decide (r.opc = 0x0A3)) r.srcA, muOpnd nlit nfunc r.srcB,
    muOpnd nlit nfunc r.srcC with
  | some d, some a, some b, some c => some [d, a, b, c]
  | _, _, _, _ => none

/-- The native word with operands of the same classes. -/
def MuRec.word (r : MuRec) (os : List MuOpnd) : VWord :=
  let f := fun n => ((os[n]?).getD (.native 448)).field
  { guard := BitVec.ofNat 4 ((if r.gneg then 8 else 0) + (if r.guard = 127 then 7 else 0)), u := r.u, dst := f 0, srcA := f 1,
    srcB := f 2, srcC := f 3, mod := r.mod }

/-- What each operand of the record may be. -/
def MuRec.operandOk (r : MuRec) (os : List MuOpnd) : Bool :=
  let ks := if r.opc = 0x0A2 ∨ r.opc = 0x0A3 then [Fk.blank, .blank, .blank, .blank] else vFields r.opc (r.word os)
  (List.range 4).all fun n =>
    match ks[n]?, os[n]? with
    | some k, some o =>
      if r.opc = 0x0A0 ∧ n = 2 then (match o with | .target _ => true | _ => false)
      else if r.opc = 0x0A2 ∧ n = 2 then (match o with | .func _ => true | _ => false)
      else if r.opc = 0x009 ∧ n = 1 then (match o with | .func _ => true | _ => o.fits k)
      else o.fits k
    | _, _ => false

/-- MOD, U and GUARD (R233, R238, R265), and no FS. -/
def MuRec.modOk (r : MuRec) (os : List MuOpnd) : Bool :=
  let w := r.word os
  let fs := match vForm r.opc with
    | .m | .s => decide (w.fs = 0)
    | _ => true
  vGuardOk w && vUniformOk r.opc w && vModOk r.opc w && fs

/-! ## Load statuses (R428) -/

def muOK : Nat := 0
def muFORMAT : Nat := 1
def muOPCODE : Nat := 2
def muOPERAND : Nat := 3
def muMOD : Nat := 4
def muTARGET : Nat := 5
def muKERNEL : Nat := 6
def muSIZE : Nat := 7

/-- The first fault of a record of a function of `count` records. -/
def MuRec.status (r : MuRec) (nlit nfunc count : Nat) (last : Bool) : Nat :=
  if (vInstr r.opc (r.word [])).isNone || muExcluded r.opc then muOPCODE
  else
    match r.operands nlit nfunc with
    | none => muOPERAND
    | some os =>
      if !(r.operandOk os) then muOPERAND
      else if !(r.modOk os) then muMOD
      else if os.any (fun o => match o with | .target n => decide (count ≤ n) | _ => false) then muTARGET
      else if last && !(vEnds r.opc (r.word os)) then muTARGET
      else muOK

/-- The u64 at an offset of a module. -/
def muWord (m : List Byte) (o : Nat) : DWord := BitVec.ofNat 64 (leNat ((m.drop o).take 8))

/-- Whether a table of n entries of a size lies 16-byte aligned in the module. -/
def muTable (m : List Byte) (o n size : Nat) : Bool := decide (o % 16 = 0 ∧ o + n * size ≤ m.length)

/-- The header (R420). -/
def muHeaderOk (m : List Byte) : Bool :=
  let w := fun n => muWord m (8 * n)
  let nf := bits (w 1) 19 0
  decide (64 ≤ m.length ∧ bits (w 0) 31 0 = 0x4D484C55 ∧ bits (w 0) 35 32 = 1 ∧ bits (w 0) 63 36 = 0 ∧ 1 ≤ nf ∧
    bits (w 1) 63 52 = 0 ∧ bits (w 1) 31 20 = 0 ∧ w 5 = 0 ∧ w 6 = 0 ∧ w 7 = 0 ∧ (w 4).toNat % 16 = 0) &&
    muTable m (w 2).toNat nf 32 && muTable m (w 3).toNat (bits (w 1) 51 32) 4

/-- A function's entry, whose records lie in the module (R420). -/
def muFuncOk (m : List Byte) (f : Nat) : Bool :=
  let o := (muWord m 0x10).toNat + 32 * f
  let w := fun n => muWord m (o + 8 * n)
  decide (1 ≤ bits (w 0) 63 32 ∧ bits (w 1) 63 1 = 0 ∧ bits (w 3) 63 21 = 0 ∧
    (muWord m 0x20).toNat + 16 * (bits (w 0) 31 0 + bits (w 0) 63 32) ≤ m.length) &&
    (bit (w 1) 0 || decide (w 2 = 0 ∧ w 3 = 0))

/-- SHAPE, SPM, NARG and PAIR of a kernel (R142). -/
def muKernelOk (m : List Byte) (f : Nat) : Bool :=
  let o := (muWord m 0x10).toNat + 32 * f
  let sh := muWord m (o + 16)
  let w := muWord m (o + 24)
  decide (1 ≤ kBX sh ∧ 1 ≤ kBY sh ∧ 1 ≤ kBZ sh ∧ kBX sh * kBY sh * kBZ sh ≤ 2048 ∧ 1 ≤ kTX sh ∧ 1 ≤ kTY sh ∧ 1 ≤ kTZ sh ∧
    bits sh 63 60 = 0 ∧ bits w 11 0 ≤ (if bit w 20 then 2048 else 1024) ∧ bits w 19 12 ≤ 192)

/-- Record i of the module's code. -/
def muRecAt (m : List Byte) (i : Nat) : MuRec :=
  let o := (muWord m 0x20).toNat + 16 * i
  muRec (muWord m o) (muWord m (o + 8))

/-- The first fault of n records from record k of a function: its status and record. -/
def muRecords (m : List Byte) (start count : Nat) : Nat → Nat → Option (Nat × Nat)
  | 0, _ => none
  | n + 1, k =>
    match (muRecAt m (start + k)).status (bits (muWord m 8) 51 32) (bits (muWord m 8) 19 0) count (decide (k + 1 = count)) with
    | 0 => muRecords m start count n (k + 1)
    | e => some (e, k)

/-- The first fault of n functions from function f: status, function and record. -/
def muFuncs (m : List Byte) : Nat → Nat → Option (Nat × Nat × Nat)
  | 0, _ => none
  | n + 1, f =>
    let o := (muWord m 0x10).toNat + 32 * f
    let start := bits (muWord m o) 31 0
    let count := bits (muWord m o) 63 32
    if !(muFuncOk m f) then some (muFORMAT, f, 0)
    else if bit (muWord m (o + 8)) 0 && !(muKernelOk m f) then some (muKERNEL, f, 0)
    else
      match muRecords m start count count 0 with
      | some (e, k) => some (e, f, k)
      | none => muFuncs m n (f + 1)

/-- The status of a load, with the function and record of the first fault in module order. -/
def muLoad (m : List Byte) : Nat × Nat × Nat :=
  if !(muHeaderOk m) then (muFORMAT, 0, 0)
  else
    match muFuncs m (bits (muWord m 8) 19 0) 0 with
    | some e => e
    | none => if 4095 < Config.overlaysNeeded m then (muSIZE, 0, 0) else (muOK, 0, 0)

end Sys2Proof.Machine
end

