-- ==== Sys2Proof/Machine/SvcAccess.lean ====
section
/-! DEFINITION. The accesses of the service cores (R14, R24, R25, R66, R72, R105): Sv48 translation by the RISC-V privileged architecture
(assumption 93), loads, instruction fetches and stores, and the reads of device registers by every agent that reaches them (R25, R30). -/

namespace Sys2Proof.Machine

/-! ## Sv48 as the privileged architecture states it (R72) -/

inductive SvTr
  | ok (pa : Nat)
  | page
  | access
  | wait

/-- Whether a leaf permits an access in a mode, with SUM and MXR of mstatus; A, and D for a write, must be set. -/
def svPerm (c : SvcCore) (p : DWord) (a : Acc) : Bool :=
  let st := c.stored Csr.mstatus
  (if c.mode = .user then bit p 4 else !(bit p 4) || (bit st 18 && decide (a ≠ .exec))) &&
    (!a.reads || bit p 1 || (bit st 19 && bit p 3)) && (!a.writes || bit p 2) && (decide (a ≠ .exec) || bit p 3) && bit p 6 &&
    (!a.writes || bit p 7)

/-- The physical address of a leaf at a level, or none for a misaligned large page or a format that Svnapot does not give. -/
def svLeaf (p : DWord) (level va : Nat) : Option Nat :=
  let ppn := bits p 53 10
  if bit p 63 then if level = 0 ∧ ppn % 16 = 8 then some (ppn / 16 * 2 ^ 16 + va % 2 ^ 16) else none
  else if ppn % 2 ^ (9 * level) = 0 then some (ppn * 4096 + va % 2 ^ (12 + 9 * level)) else none

def svWalk (s : State) (sc va : Nat) (a : Acc) : List Nat → Nat → SvTr × State
  | [], _ => (.page, s)
  | level :: rest, table =>
    let pte := table + 8 * (va / 2 ^ (12 + 9 * level) % 512)
    if !(dramOk s pte) then (.access, s)
    else
      match readSector s (65 + sc / 4) (s.regF (Reg.clPid (sc / 4)) 3 0) (secOf pte) with
      | (false, s1) => (.wait, s1)
      | (true, s1) =>
        let p := mem64 s1 pte
        if !(bit p 0) || (bit p 2 && !(bit p 1)) || decide (bits p 62 54 ≠ 0) then (.page, s1)
        else if bit p 1 || bit p 3 then
          match svLeaf p level va with
          | some pa => (if svPerm (svcCore s1 sc) p a then .ok pa else .page, s1)
          | none => (.page, s1)
        else if bit p 63 || decide (bits p 7 6 ≠ 0) || bit p 4 then (.page, s1)
        else svWalk s1 sc va a rest (bits p 53 10 * 4096)

/-- The translation of a service core: none in M mode and while satp is bare. -/
def svcTranslate (s : State) (sc va : Nat) (a : Acc) : SvTr × State :=
  let c := svcCore s sc
  let satp := c.stored Csr.satp
  if c.mode = .machine ∨ bits satp 63 60 = 0 then (if va < 2 ^ 44 then .ok va else .access, s)
  else if !(canonical va) then (.page, s)
  else
    match svWalk s sc va a [3, 2, 1, 0] (bits satp 43 0 * 4096) with
    | (.ok pa, s1) => (if pa < 2 ^ 44 then .ok pa else .access, s1)
    | x => x

/-! ## Device registers (R5, R25, R30) -/

def inWindow (pa : Nat) : Bool := decide (0xF00 ≤ pa / 2 ^ 32 ∧ pa / 2 ^ 32 ≤ 0xF03)

/-- Four bytes of the registers at a physical address. -/
def readReg4 (s : State) (pa : Nat) : Nat :=
  match regInfo (if pa / 2 ^ 31 % 2 = 1 then pa - 2 ^ 31 else pa) with
  | some _ => bits (readReg s pa) 31 0
  | none => if pa % 8 = 4 then bits (readReg s (pa - 4)) 63 32 else 0

/-- A read of 4 or 8 bytes of a register window, naturally aligned. -/
def readWindow (s : State) (pa size : Nat) : DWord :=
  BitVec.ofNat 64 (readReg4 s pa + if size = 8 then 2 ^ 32 * readReg4 s (pa + 4) else 0)

def regShape (pa size : Nat) : Bool := decide ((size = 4 ∧ pa % 4 = 0) ∨ (size = 8 ∧ pa % 8 = 0))

/-! ## Accesses (R24, R25, R66, R105) -/

/-- The PCIe outbound window, which is unassigned while PCIe is an endpoint (R22, R24). -/
def outbound (pa : Nat) : Bool := Config.pcieRoot && decide (0xF80 ≤ pa / 2 ^ 32 ∧ pa / 2 ^ 32 ≤ 0xFBF)

def loaded (size : Nat) (sx : Bool) (v : Nat) : DWord :=
  if sx then BitVec.ofInt 64 (signExt (v % 2 ^ (8 * size)) (8 * size)) else BitVec.ofNat 64 (v % 2 ^ (8 * size))

def giveX (s : State) (sc rd : Nat) (v : DWord) : State := setSvc s sc ((svcCore s sc).setX rd v)

/-- A service core reads a line at its home, through a recall from an L1 that owns it; it holds the line in S, and an owning cache keeps
it shared (R66, R105). -/
def svcHold (s : State) (sc pa : Nat) (instr : Bool) : Bool × State :=
  match readSector s (65 + sc / 4) (s.regF (Reg.clPid (sc / 4)) 3 0) (secOf pa) with
  | (false, s0) => (false, s0)
  | (true, s0) =>
    match dirEnsure s0 (lineOf pa) with
    | some s1 =>
      let e := svcShare (dirEnt s1 (lineOf pa))
      (true, svcKeep (setDir s1 (lineOf pa) { e with svc := if (e.svc.find sc).isSome then e.svc else e.svc.set sc .s }) sc (lineOf pa) instr)
    | none => (false, s)

/-- A load of a service core at a physical address; `va` is what a trap reports. -/
def svcLoadAt (s : State) (sc va pa size rd : Nat) (sx : Bool) : State :=
  if inWindow pa then if regShape pa size then giveX s sc rd (loaded size sx (readWindow s pa size).toNat) else svcFault s sc cLoadAccess va
  else if outbound pa then let v := s.freeVal; giveX v.2 sc rd (loaded size sx v.1.toNat)
  else if !(dramOk s pa) then svcFault s sc cLoadAccess va
  else if pa % size ≠ 0 then svcFault s sc cLoadMisaligned va
  else
    match svcHold s sc pa false with
    | (true, s1) =>
      if poisoned s1 (secOf pa) then svcFault s1 sc cHardware va else giveX s1 sc rd (loaded size sx (leNat (s1.ms.mem.readN pa size)))
    | (false, s1) => s1

/-- A service core's load of a byte by its physical address. -/
def serviceRead (s : State) (sc pa : Nat) : State := if sc < 16 then svcLoadAt s sc pa pa 1 0 false else s

/-- A store of a service core in DRAM asks for E or M of its line (R87); one to an unassigned range is not performed (R24). -/
def svcStoreAt (s : State) (sc va pa : Nat) (bs : List Byte) : State :=
  if outbound pa then s
  else if !(dramOk s pa) then svcFault s sc cStoreAccess va
  else if pa % bs.length ≠ 0 then svcFault s sc cStoreMisaligned va
  else if lineHeld s (lineOf pa) then s
  else exclRequest s sc pa bs

def svcFetchAt (s : State) (sc va pa : Nat) : State :=
  if dramOk s pa then (svcHold s sc pa true).2 else svcFault s sc cFetchAccess va

/-- What a service core does; a store into a register window is the register write that `fetch` runs. -/
def svcDoes (s : State) (sc : Nat) : SvcAct → State
  | .compute c => setSvc s sc { c with ic := (svcCore s sc).ic, dc := (svcCore s sc).dc }
  | .csr rd n => giveX s sc rd (csrRead s sc n)
  | .load va size rd sx =>
    if size ≠ 1 ∧ size ≠ 2 ∧ size ≠ 4 ∧ size ≠ 8 then s
    else
      match svcTranslate s sc va .read with
      | (.ok pa, s1) => svcLoadAt s1 sc va pa size rd sx
      | (.page, s1) => svcFault s1 sc cLoadPage va
      | (.access, s1) => svcFault s1 sc cLoadAccess va
      | (.wait, s1) => s1
  | .fetch va =>
    match svcTranslate s sc va .exec with
    | (.ok pa, s1) => svcFetchAt s1 sc va pa
    | (.page, s1) => svcFault s1 sc cFetchPage va
    | (.access, s1) => svcFault s1 sc cFetchAccess va
    | (.wait, s1) => s1
  | .store va bs =>
    match svcTranslate s sc va .write with
    | (.ok pa, s1) => svcStoreAt s1 sc va pa bs
    | (.page, s1) => svcFault s1 sc cStorePage va
    | (.access, s1) => svcFault s1 sc cStoreAccess va
    | (.wait, s1) => s1
  | .interrupt => svcInterrupt s sc

/-- A turn of a service core, which is released from its reset (R414). -/
def svcTurn (s : State) (sc : Nat) (a : SvcAct) : State := if sc < 16 ∧ s.gov.holdReset = false then svcDoes s sc a else s

/-- The register write that a service core's store makes, where its address lies in a window. -/
def svcBus (s : State) (sc : Nat) (a : SvcAct) : Option BusWrite :=
  match a with
  | .store va bs =>
    match svcTranslate s sc va .write with
    | (.ok pa, _) =>
      if h : sc < 16 then
        if inWindow pa ∧ s.gov.holdReset = false then
          some { src := .svc ⟨sc, h⟩, pa := BitVec.ofNat 44 pa, size := bs.length, val := BitVec.ofNat 64 (leNat bs) }
        else none
      else none
    | _ => none
  | _ => none

/-- Register x0 of the Governor's pair reads as zero and discards writes. -/
def GovCpu.setX (c : GovCpu) (r : Nat) (v : Word) : GovCpu := if r = 0 ∨ 32 ≤ r then c else { c with x := c.x.set r v }

/-- A read of a device register by an agent that reaches the windows (R25). The Governor reads into its registers, a queue processor and
the debug port into their read buffers. -/
def regReadTurn (s : State) (src : Writer) (pa size rd : Nat) : State :=
  if !(inWindow pa) ∨ !(busReaches s { src := src, pa := BitVec.ofNat 44 pa, size := size, val := 0 }) then s
  else
    match src with
    | .svc sc => svcLoadAt s sc.val pa pa size rd false
    | _ =>
      if !(regShape pa size) then s
      else
        let v := readWindow s pa size
        match src with
        | .gov =>
          let c := s.gov.cpu.setX rd (lo32 v)
          s.withGov { s.gov with cpu := if size = 8 then c.setX (rd + 1) (hi32 v) else c }
        | .qp d => { s with reads := s.reads.set d.val v }
        | _ => { s with reads := s.reads.set 2 v }

/-- The Governor's pair performs instructions that touch only its registers and its SRAM of 256 KiB. -/
def govTurn (s : State) (c : GovCpu) (bs : List (Nat × Byte)) : State :=
  s.withGov { s.gov with cpu := c, sram := (bs.filter fun b => decide (b.1 < 2 ^ 18)).foldl (fun m b => m.write b.1 b.2) s.gov.sram }

end Sys2Proof.Machine
end

