-- ==== Sys2Proof/Machine/MuCode.lean ====
section
/-! DEFINITION. The native code of a Muhilu module (R424, R425, R427): each virtual register in a register of its own, one clause for each
word, completion flag f11 for every CPA, and the load of a module by a service core. A module that needs more registers than a warp has,
an alignment that its own register numbers do not give, two literals in one word, a call of an earlier function or more than one overlay
is translated as the loader's version does (`Config.muTranslation`, assumption 94). -/

namespace Sys2Proof.Machine

/-! ## Registers -/

/-- The function's return link has a v pair of its own, below the scratch pair v254:v255 and above the virtual registers. -/
def muLink (f : Nat) : Nat := 252 - 2 * f
def muVLimit (nfunc : Nat) : Nat := 254 - 2 * nfunc

/-- The pair that holds the address of a function for a LEA. -/
def muScratch (uni : Bool) : Nat := if uni then 256 + 190 else 254

/-- The native field of an operand; a literal is the clause's IMM. -/
def MuOpnd.place : MuOpnd → Option Nat
  | .v n => if n < 256 then some n else none
  | .s n => if n < 190 then some (256 + n) else none
  | .p n => if n ≤ 6 then some n else none
  | .native n => some n
  | .lit _ => some 511
  | .target _ => some 448
  | .func _ => some 448

def muLits (os : List MuOpnd) : List Nat := (os.filterMap fun o => match o with
  | .lit n => some n
  | _ => none).eraseDups

def muTarget (os : List MuOpnd) : Option Nat := os.findSome? fun o => match o with
  | .target n => some n
  | _ => none

def muCallee (os : List MuOpnd) : Option Nat := os.findSome? fun o => match o with
  | .func n => some n
  | _ => none

/-! ## Where a record's code stands -/

def muNfunc (m : List Byte) : Nat := bits (muWord m 8) 19 0
def muNlit (m : List Byte) : Nat := bits (muWord m 8) 51 32
def muLit (m : List Byte) (i : Nat) : Nat := leNat ((m.drop ((muWord m 0x18).toNat + 4 * i)).take 4)
def muFuncStart (m : List Byte) (f : Nat) : Nat := bits (muWord m ((muWord m 0x10).toNat + 32 * f)) 31 0
def muFuncCount (m : List Byte) (f : Nat) : Nat := bits (muWord m ((muWord m 0x10).toNat + 32 * f)) 63 32

/-- The operands of record k of function f. -/
def muOs (m : List Byte) (f k : Nat) : MuRec × List MuOpnd :=
  let r := muRecAt m (muFuncStart m f + k)
  (r, (r.operands (muNlit m) (muNfunc m)).getD [])

/-- The clauses of a record: two more load the address of a function for a LEA. -/
def muClauses (m : List Byte) (f k : Nat) : Nat :=
  let x := muOs m f k
  if x.1.opc = 0x009 ∧ (muCallee x.2).isSome then 3 else 1

/-- The first clause of record k of function f: functions stand one after another, each word in a clause of its own. -/
def muClauseOf (m : List Byte) (f k : Nat) : Nat :=
  let before := (List.range f).foldl (fun n g => (List.range (muFuncCount m g)).foldl (fun a i => a + muClauses m g i) n) 0
  (List.range k).foldl (fun a i => a + muClauses m f i) before

/-! ## Clauses (R424) -/

/-- A word before which the completion of every earlier CPA is observed (R424); a CPA is among them, since it accesses the scratchpad. -/
def muObserves (opc : Nat) (w : VWord) : Bool :=
  decide (opc = 0x0A2 ∨ opc = 0x0A3 ∨ opc = 0x0A6 ∨ opc = 0x102 ∨ opc = 0x120 ∨ opc = 0x121 ∨ (0x123 ≤ opc ∧ opc ≤ 0x125) ∨
    (0x140 ≤ opc ∧ opc ≤ 0x144) ∨ opc = 0x149 ∨ opc = 0x160 ∨ opc = 0x161) ||
    (decide ((0x100 ≤ opc ∧ opc ≤ 0x118) ∧ w.space = 1)) || (decide (opc = 0x122 ∧ w.subS % 2 = 1))

/-- The header of a clause of one word. -/
def muHeader (opc : Nat) (w : VWord) (imm : Nat) : DWord :=
  BitVec.ofNat 64 (0xC1 * 2 ^ 56 + (if muObserves opc w then 2 ^ 55 else 0) + (if opc = 0x102 then 11 else 15) * 2 ^ 40 + 15 * 2 ^ 36 +
    2 ^ 33 + imm % 2 ^ 32)

/-- MOV of the clause immediate into a register. -/
def muMovImm (uni : Bool) (reg imm : Nat) : List DWord :=
  let w : VWord := { guard := 7, u := if uni then 1 else 0, dst := BitVec.ofNat 9 reg, srcA := 511, srcB := 448, srcC := 448, mod := 0 }
  [muHeader 0x066 w imm, vPack 0x066 w]

/-- The native words, headers included, of record k of function f, with the image at a virtual address. -/
def muWords (m : List Byte) (va f k : Nat) : Option (List DWord) :=
  let (r, os) := muOs m f k
  let fld := fun n => ((os[n]?).bind MuOpnd.place)
  match fld 0, fld 1, fld 2, fld 3 with
  | some d, some a, some b, some c =>
    let uni := decide (r.u = 1)
    let callee := (muCallee os).getD 0
    let lea := decide (r.opc = 0x009) && (muCallee os).isSome
    let mod := match muTarget os with
      | some t => BitVec.ofNat 13 (2 * muClauseOf m f t)
      | none => if r.opc = 0x0A2 then BitVec.ofNat 13 (2 * muClauseOf m callee 0) else r.mod
    let w : VWord :=
      { guard := BitVec.ofNat 4 ((if r.gneg then 8 else 0) + if r.guard = 127 then 7 else r.guard), u := r.u
        dst := BitVec.ofNat 9 (if r.opc = 0x0A2 then muLink callee else d)
        srcA := BitVec.ofNat 9 (if r.opc = 0x0A3 then muLink f else if lea then muScratch uni else a)
        srcB := BitVec.ofNat 9 b, srcC := BitVec.ofNat 9 c, mod := mod }
    let virt := { w with dst := BitVec.ofNat 9 d, srcA := BitVec.ofNat 9 (if lea then 448 else a) }
    let ok := decide (r.guard ≤ 6 ∨ r.guard = 127) && vGuardOk w && vUniformOk r.opc w && vRegOk r.opc w && vModOk r.opc w &&
      (decide (r.opc = 0x0A2 ∨ r.opc = 0x0A3) || vAllotOk r.opc virt (muVLimit (muNfunc m))) && decide ((muLits os).length ≤ 1) &&
      (decide (r.opc ≠ 0x0A2) || decide (f < callee))
    if !ok then none
    else
      let entry := va + 16 * muClauseOf m callee 0
      let pre := if lea then muMovImm uni (muScratch uni) (entry % 2 ^ 32) ++ muMovImm uni (muScratch uni + 1) (entry / 2 ^ 32) else []
      some (pre ++ [muHeader r.opc w (((muLits os).head?.map (muLit m)).getD 0), vPack (BitVec.ofNat 10 r.opc) w])
  | _, _, _, _ => none

/-! ## The load (R427) -/

def muAll {α : Type} : List (Option (List α)) → Option (List α)
  | [] => some []
  | some l :: t => (muAll t).map fun r => l ++ r
  | none :: _ => none

/-- The words of the module's code, function by function. -/
def muCode (m : List Byte) (va : Nat) : Option (List DWord) :=
  muAll ((List.range (muNfunc m)).flatMap fun f => (List.range (muFuncCount m f)).map fun k => muWords m va f k)

/-- The header of a kernel function (R142), and 64 zero bytes for another function. -/
def muKernel (m : List Byte) (va ovt f : Nat) : List DWord :=
  let o := (muWord m 0x10).toNat + 32 * f
  let k := muWord m (o + 24)
  if bit (muWord m (o + 8)) 0 then
    [BitVec.ofNat 64 (0x4B484452 + 2 ^ 32),
     BitVec.ofNat 64 (31 + 192 * 2 ^ 5 + bits k 20 20 * 2 ^ 13 + bits k 11 0 * 2 ^ 14 + bits k 19 12 * 2 ^ 32),
     muWord m (o + 16), BitVec.ofNat 64 (va + 16 * muClauseOf m f 0), BitVec.ofNat 64 ovt, 0, 0, 0]
  else List.replicate 8 0

/-- What a load leaves in memory from a virtual address on: one overlay of 64 KiB, its table with AUTO = 1 after it, and a kernel header
for each function. -/
def muImage (m : List Byte) (va : Nat) : List Byte :=
  match muCode m va with
  | some ws =>
    if 8192 < ws.length then Config.muTranslation m va
    else
      let ovt := va + 65536
      let table : List DWord := [BitVec.ofNat 64 (0x4F564C54 + 2 ^ 32 + 2 ^ 36), 1, 0, 0, BitVec.ofNat 64 va, 15 + 32, 0, 0]
      wordsBytes (ws ++ List.replicate (8192 - ws.length) 0 ++ table ++ (List.range (muNfunc m)).flatMap (muKernel m va ovt))
  | none => Config.muTranslation m va

/-- The line record of the n-th word of the code: function and record (R427). -/
def muLine (m : List Byte) (n : Nat) : Option (Nat × Nat) :=
  ((List.range (muNfunc m)).flatMap fun f => (List.range (muFuncCount m f)).map fun k => (f, k)).find? fun x =>
    decide (muClauseOf m x.1 x.2 ≤ n / 2 ∧ n / 2 < muClauseOf m x.1 x.2 + muClauses m x.1 x.2)

/-- The loader on a service core loads a module: its status, function and record in a0 to a2 (R428), and, translated, its code by stores
of the core. On a failure nothing is placed. -/
def muLoadTurn (s : State) (sc pa va : Nat) (m : List Byte) : State :=
  let x := muLoad m
  let give := fun (a : State) => giveX (giveX (giveX a sc 10 (BitVec.ofNat 64 x.1)) sc 11 (BitVec.ofNat 64 x.2.1)) sc 12 (BitVec.ofNat 64 x.2.2)
  if 16 ≤ sc ∨ s.gov.holdReset = true then s
  else if x.1 ≠ muOK then give s
  else if pa % 4096 ≠ 0 ∨ va % 4096 ≠ 0 ∨ !(dramOk s pa) ∨ !(dramOk s (pa + (muImage m va).length - 1)) then s
  else
    match regionTakes s pa (muImage m va).length with
    | none => s
    | some s1 => give (homeWrite s1 (65 + sc / 4) (s1.regF (Reg.clPid (sc / 4)) 3 0) pa (muImage m va)).1

end Sys2Proof.Machine
end

