-- ==== Sys2Proof/Machine/Fetch.lean ====
section
/-! DEFINITION. What a turn runs: the fetch and decoding of a warp's header or word, a walker's word, a thread's packet, an
engine's command and a register write, and the turns of the environment that no row of the opcode table stands for. -/

namespace Sys2Proof.Machine

/-- What a fetch gives: an instruction to run, or the turn's whole effect. -/
inductive Fetch
  | run (i : Instr) (s : State)
  | done (s : State)

/-! ## Warps (R107, R187, R188, R206, R213, R216) -/

/-- The entry point of a card's work on a core: looked up once while the core holds the work (R200, R213). -/
def coreEntry (s : State) (core card gen va : Nat) : (Except OvE OvAddr) × State :=
  match (istore s core).looked.find? fun e => decide (e.1 = card ∧ e.2.1 = gen ∧ e.2.2.1 = va) with
  | some e => (.ok e.2.2.2, s)
  | none =>
    match lookup s core card va with
    | (.ok (ovid, off), s1) =>
      let a : OvAddr := { tok := coldTok ovid, off := off }
      (.ok a, s1.setIst core { istore s1 core with looked := (card, gen, va, a) :: (istore s1 core).looked })
    | (.error e, s1) => (.error e, s1)

/-- The entry virtual addresses of lanes that stand at one are looked up (R213). -/
def lookEntry (s : State) (wid : Nat) (w : Warp) (core l : Nat) : State :=
  let a := laneGet zeroAddr w.pc l
  match coreEntry s core w.card w.gen a.off with
  | (.ok dest, s1) =>
    s1.setWarp wid { w with pc := w.pc.map fun b => if b = a then dest else b, savedOn := none, look := false }
  | (.error .wait, s1) => s1
  | (.error e, s1) => trapWarp (s1.setWarp wid { w with rot := l, savedOn := none }) wid { e.cause with lane := l } (w.pathOf l)

/-- The header at which the path of a lane stands. -/
def headerFetch (s : State) (wid : Nat) (w : Warp) (core l : Nat) : Fetch :=
  let a := laneGet zeroAddr w.pc l
  if w.look ∧ a.tok = 0 then .done (lookEntry s wid w core l)
  else
    match resolvePath s wid w core l with
    | (none, s1) => .done s1
    | (some w1, s1) =>
      let b := laneGet zeroAddr w1.pc l
      match tokCurrent s1 core w1.card w1.gen b.tok with
      | none => .done s1
      | some o =>
        if 4096 * o.npg ≤ b.off then
          .done (trapWarp (s1.setWarp wid { w1 with rot := l }) wid { code := tOVTOK, detail := 2, lane := l } (w1.pathOf l))
        else if (istore s1 core).bad.contains (o.base + b.off / 4096) then .done s1
        else .run (.clauseBegin (storeWord s1 core b)) (s1.setWarp wid { w1 with rot := l, savedOn := none })

/-- The trap of a word whose opcode R232 does not list. -/
def visionEnc (s : State) (wid : Nat) (w : Warp) (c : Clause) (x : DWord) : State :=
  trapWarp s wid { code := tENC, detail := 2 } (c.lanes &&& w.liveMask &&& guardMask w (vFieldsOf x))

/-- An overlay has been executed in (R211). -/
def stampOvl (s : State) (core : Nat) (o : Ovl) : State :=
  let k := stamp s
  setOvl k.2 core { o with used := k.1 }

/-- The next word of the clause the warp is in; a clause restored under a stale token is resolved first. -/
def wordFetch (s : State) (wid : Nat) (w : Warp) (p : Nat × Nat) (c : Clause) : Fetch :=
  let core := p.1
  match tokCurrent s core w.card w.gen c.at_.tok with
  | none =>
    match resolve s core w.card w.gen c.at_ w.entry (w.ovFirst.map fun (x : OvWant) => x.first) with
    | (.ok b, s1) => .done (s1.setWarp wid { w with clause := some { c with at_ := b }, ovFirst := none, ovWait := none })
    | (.trap e, s1) => .done (trapWarp (s1.setWarp wid { w with ovFirst := none, ovWait := none }) wid e (c.lanes &&& w.liveMask))
    | (r, s1) => .done (s1.setWarp wid (w.await (s1.now (coreDie core)) r))
  | some o =>
    let a : OvAddr := { c.at_ with off := c.at_.off + 8 * c.next }
    if (istore s core).bad.contains (o.base + a.off / 4096) then .done s
    else
      let x := storeWord s core a
      let s1 := takeTurn (stampOvl (s.setWarp wid { w with savedOn := none, ovFirst := none, ovWait := none }) core o) wid p c
      match decodeVision x with
      | .ok i => .run i s1
      | .error _ => .done (visionEnc s1 wid w c x)

/-- A path whose fence is over goes on with the rest of its clause (R292). -/
def reenter (w : Warp) (x : Susp) : Warp :=
  { w with
    clause := some { x.clause with next := x.clause.next + 1, doneLanes := 0 }
    susp := w.susp.filter fun y => decide (y ≠ x)
    wait := lanes32.map fun l => if laneIn x.clause.lanes l then .none else laneGet .none w.wait l
    rot := ((lanesOf x.clause.lanes).head?).getD 0 }

/-- At a clause boundary: waits that are over, YIELD, and the path whose clause comes next. -/
def boundaryFetch (s : State) (wid : Nat) (w0 : Warp) (p : Nat × Nat) : Fetch :=
  let core := p.1
  let w := settle s { w0 with yieldTo := w0.yieldTo.filter fun i => canIssue s i }
  let s1 := s.setWarp wid w
  if w.yieldTo ≠ [] then .done s1
  else
    match nextPath s1 w core with
    | none => .done s1
    | some l =>
      match w.susp.find? fun (x : Susp) => laneIn x.clause.lanes l && x.ended with
      | some x =>
        let w2 := reenter w x
        match w2.clause with
        | some c => wordFetch (s1.setWarp wid w2) wid w2 p c
        | none => .done s1
      | none => headerFetch s1 wid w core l

/-- A restored warp resolves the saved program counters of its lanes, from lane n on, before it goes on (R213). -/
def resolveSaved (s : State) (wid : Nat) (w : Warp) (core : Nat) : List Nat → State
  | [] => s.setWarp wid { w with resolving := none }
  | l :: t =>
    if !(w.isLive l) ∨ (w.look ∧ (laneGet zeroAddr w.pc l).tok = 0) then resolveSaved s wid w core t
    else
      match resolvePath s wid { w with resolving := some l } core l with
      | (some w1, s1) => resolveSaved s1 wid w1 core t
      | (none, s1) => s1

/-- A placed warp takes its turn: it retires, resolves what a restore has left to be resolved, or issues in the rotation of its
partition (R187). -/
def warpFetch (s : State) (wid : Nat) : Fetch :=
  match s.warps.find wid with
  | none => .done s
  | some w =>
    match w.place with
    | none => .done s
    | some p =>
      if !(warpGoes s w p.1) then .done s
      else if w.nonHelper = 0 then .done (tryRetire s wid)
      else
        match w.resolving with
        | some n => .done (resolveSaved s wid w p.1 (lanes32.drop n))
        | none =>
          if canIssue s wid && !(hasTurn s wid w p) then .done s
          else
            match w.clause with
            | some c => wordFetch s wid w p c
            | none => boundaryFetch s wid w p

/-! ## Walkers, threads and path coverage engines (R206, R138, R381) -/

def walkerFetch (s : State) (tc e : Nat) : Fetch :=
  match tileFetch s tc e with
  | .done s1 => .done s1
  | .word v s1 =>
    match decodeTile v with
    | .ok i => .run i s1
    | .error _ => .done (tileEnc s1 tc e (tFieldsOf v))

/-- The packet in the shadow; an OP that R139 does not assign is a packet error. -/
def packetFetch (s : State) (d th : Nat) : Fetch :=
  let t := thread s d th
  if !(qpRuns s d th) ∨ t.st ≠ .exec then .done s
  else
    let p := shadowPkt s d th t.idx
    match decodePacket p with
    | .ok i => .run i s
    | .error _ => .done (qpHalt s d th eBADPKT p)

/-- The record of eight words. -/
def wordsRec (l : List DWord) : Rec64 := rec64 fun k => dwz l k

/-- The record of a command; its read fails, or its OP is invalid (R381, R386). -/
def commandRead (s : State) (d : Nat) (p : Pce) : Fetch :=
  let hdr := match s.ddx.rel.find (pceCard p) with
    | some r => r.hdr
    | none => []
  let s0 := s.setPce d { p with cmd := none }
  match readChecked s0 (pceSpace s0 d (pceCard p)) ((dwz hdr 2).toNat + 64 * p.idx) 8 with
  | (.error e, s1) => .done (pceFail s1 d e .command)
  | (.ok l, s1) =>
    match decodeCommand (wordsRec l) with
    | .ok i => .run i s1
    | .error _ => .done (pceFail (s1.setPce d { p with cmd := some (wordsRec l), surf := [] }) d (tPATH, 7, 0) .command)

def commandFetch (s : State) (d : Nat) : Fetch :=
  match s.pces.find d with
  | none => .done s
  | some p =>
    if !(pceGo s p) then .done s
    else
      match p.st, p.cmd with
      | .command, _ => commandRead s d p
      | .running, some r =>
        (match decodeCommand r with
         | .ok i => .run i s
         | .error _ => .done s)
      | _, _ => .done s

/-! ## Turns of the environment -/

/-- An error of a storage array or of execution (R81, R190, R198, R321, R334). -/
def upsetTurn (s : State) : Upset → State
  | .dram sec => (setPoison s sec).regInc (Reg.eccUe (homeSlice s (64 * sec))) 32
  | .ecc h => if h < 32 then s.regInc (Reg.eccCe h) 32 else s
  | .vreg wid r l =>
    match s.warps.find wid with
    | some w => s.setWarp wid { w with badV := insertNat (vKey r l) w.badV }
    | none => s
  | .uniform wid n =>
    match s.warps.find wid with
    | some w => s.setWarp wid { w with badU := insertNat n w.badU }
    | none => s
  | .spm b word =>
    match s.ddx.blocks.find b with
    | some x => s.withDdx { s.ddx with blocks := s.ddx.blocks.set b { x with poison := insertNat word x.poison } }
    | none => s
  | .istoreCe c => s.setIst c { istore s c with corrected := (istore s c).corrected + 1 }
  | .istore c slot => if slot < storeSlots c then s.setIst c { istore s c with bad := insertNat slot (istore s c).bad } else s
  | .acc tc row slot =>
    match s.tiles.find tc with
    | some t => s.setTile tc { t with bad := insertNat (128 * row + slot) t.bad }
    | none => s
  | .command tc e =>
    match s.tiles.find tc with
    | some t => s.setTile tc { t with soft := some e }
    | none => s

/-- A translation cache drops a translation (R75). -/
def forgetTurn (s : State) (n : Nat) : State := s.withMs { s.ms with tlb := dropAt s.ms.tlb n }

/-- An event of the hardware: a row that no words encode. -/
def eventFetch (s : State) (i : Instr) (a : EvArgs) : Fetch :=
  if (encode i).isNone then .run i { s with ev := a } else .done s

/-- What the agent of a turn runs. -/
def fetch (s : State) : Who → Fetch
  | .warp wid => warpFetch { s with focus := .warp wid } wid
  | .walker tc e => walkerFetch { s with focus := .walker tc e } tc e
  | .qp d th => packetFetch { s with focus := .qp d th } d th
  | .pce d => commandFetch { s with focus := .pce d } d
  | .bus b => .run (decodeBus b) s
  | .hw i a => eventFetch s i a
  | .upset u => .done (upsetTurn s u)
  | .svcRead sc pa => .done (serviceRead s sc pa)
  | .svcDo sc a =>
    match svcBus s sc a with
    | some b => .run (decodeBus b) s
    | none => .done (svcTurn s sc a)
  | .regRead src pa size rd => .done (regReadTurn s src pa size rd)
  | .muLoad sc pa va m => .done (muLoadTurn s sc pa va m)
  | .gov c bs => .done (govTurn s c bs)
  | .forget n => .done (forgetTurn s n)

/-- The copies of device time advance (R28, R29). -/
def Times.advance (t : Times) (a : Adv) : Times :=
  { t with hub := t.hub + a.hub, m0 := t.m0 + a.m0, m1 := t.m1 + a.m1, host := t.host + a.host }

/-- The state in which a turn begins: its time has passed, no agent or event of an earlier turn stands, the team barriers whose bound has
passed have released (R194), and the DDX has stored the done words whose time has come (R140, R151). -/
def beginTurn (s : State) (t : Turn) (rest : List Turn) : State :=
  let s1 := noteArrivals s
  storeDones (releaseDue { s1 with agenda := rest, time := s1.time.advance t.adv, focus := .none, ev := EvArgs.none })

/-- With no turn left, one nanosecond passes. -/
def idle (s : State) : State := s.withTime (s.time.advance { hub := 1, m0 := 1, m1 := 1, host := 1 })

/-! ## Placing a word to be run next -/

/-- A turn without the passing of time. -/
def turnOf (w : Who) : Turn := { adv := { hub := 0, m0 := 0, m1 := 0, host := 0 }, who := w }

/-- Card 0 with no stop under way. -/
def placeCard (s : State) : State := setCardSt s 0 CardSt.none

def placedOvl (s : State) : Ovl :=
  { base := 0, npg := 1, st := .resident, pid := cardPid s 0, card := 0, gen := cardGen s 0, ovid := 1, image := 0, doomed := false,
    used := 0, ops := [], cmd := false, pos := 64, since := 0 }

/-- An overlay of one page in slot 0 of a core's store, holding words from its start. -/
def placeText (s : State) (c : Nat) (ws : List DWord) : State :=
  let i := istore s c
  s.setIst c { i with
    bytes := i.bytes.writeN 0 (wordsBytes ws)
    ovls := placedOvl s :: i.ovls.filter fun (o : Ovl) => decide (0 < o.base ∧ (o.card, o.gen, o.ovid) ≠ (0, cardGen s 0, 1))
    bad := i.bad.filter fun n => decide (n ≠ 0) }

def placedTok (s : State) (c : Nat) : Word := mkTok 1 0 (sgenOf s c 0)

/-- A warp of card 0 at the start of the overlay in slot 0 of vision core 0. -/
def placedWarp (s : State) : Warp :=
  { newWarp 0 (cardGen s 0) 0 0 31 [] 0 (s.now 0) 0 with
    pc := List.replicate 32 { tok := placedTok s 0, off := 0 }, look := false, entry := false, place := some (0, 0) }

/-- The header of a clause of one word that sets no flag. -/
def oneWordHdr : DWord := 0xC1000FF200000000

/-- A header, or a vision word in a clause of its own. -/
def placeVision (s : State) (x : DWord) : State :=
  let s1 := placeCard s
  let w := placedWarp s1
  if hdrSig x = 0xC1 then (placeText s1 0 [x]).setWarp 0 w
  else
    (placeText s1 0 [oneWordHdr, x]).setWarp 0 { w with
      clause := some { at_ := { tok := placedTok s1 0, off := 0 }, hdr := oneWordHdr, next := 1, lanes := BitVec.allOnes 32,
                       doneLanes := 0 } }

/-- Walkers of a program at the start of the overlay in slot 0 of a tile core. -/
def placedWalker (s : State) : Walker :=
  { st := .run, pc := { tok := placedTok s 32, off := 0 }, count := 0, rep := 0, retiring := false, pops := [], pushes := [],
    k := List.replicate 32 0, ch := 0, tf := 0, wct := 0, asked := none, uses := none, ecc := none, sent := false, ans := none,
    ovFirst := none, ovWait := none }

/-- A release of card 0 whose kernel header allows a slip of 64. -/
def placedRel : Release :=
  { hdr := [0, 64, 0, 0, 0, 0, 0, 0], args := [], grid := 0, argsVa := 0, ig := 0, tok := 0, launcher := .periodic, doneSig := none,
    shade := [], obound := 0, unplaced := [[], []], seq := 0, dlrel := 0 }

/-- A tile word at every walker of tile core 0, with a token in every FIFO. -/
def placeTile (s : State) (x : DWord) : State :=
  let s1 := setCardState (placeCard s) 0 stRunning
  let s2 := s1.withDdx { s1.ddx with rel := s1.ddx.rel.set 0 placedRel }
  let t := { TileCore.blank (cardCtx s2 0) (s2.now 0) with
    walkers := List.replicate 5 (placedWalker s2), fifo := List.replicate 6 [0]
    formed := [{ count := 0, pc := (placedWalker s2).pc, word := x, k := (placedWalker s2).k }] }
  (placeText s2 32 [x]).setTile 0 t

/-- A packet in the shadow of queue 0 of M0, at its thread. -/
def placePacket (s : State) (p : Rec64) : State :=
  let s1 := (s.setMem (s.ms.mem.writeN 64 (wordsBytes p.words))).withGov
    { s.gov with holdReset := false, minimal := false, qpRestart := s.gov.qpRestart.del 0 }
  let s2 := ((s1.setRegF (Reg.qpCtl 0) 0 0 1).setRegF (Reg.qpStatus 0) 2 2 0).setReg (Reg.mqShadow 0 0) 0
  setThread s2 0 0 { Thread.empty with st := .exec, have_ := 1 }

/-- The walker that performs a tile word: the first, or that of its tag. -/
def wordWalker (x : DWord) : Nat := if 2 ≤ (tFieldsOf x).t ∧ (tFieldsOf x).t ≤ 4 then (tFieldsOf x).t - 1 else 0

end Sys2Proof.Machine
end

