-- ==== Sys2Proof/Machine/Step.lean ====
section
/-! DEFINITION. One step: the next turn of the agenda is fetched and run; with none left, time passes. -/

namespace Sys2Proof.Machine

/-- A fetched instruction is executed. -/
def runFetch : Fetch → Host.Outcome State Fault Refusal
  | .run i s => exec i s
  | .done s => .next s

def step (s : State) : Host.Outcome State Fault Refusal :=
  match s.agenda with
  | [] => .next (idle s)
  | t :: rest => runFetch (fetch (beginTurn s t rest) t.who)

/-- The state with a word placed so that the next step fetches and runs it: a tile word up to 48 bits, a vision word or
clause header up to 64, a packet above. -/
def State.withFetchWord (s : State) (nbits w : Nat) : State :=
  let x : DWord := BitVec.ofNat 64 w
  let put := fun (a : State) (who : Who) => { a with agenda := turnOf who :: a.agenda }
  if nbits ≤ 48 then put (placeTile s x) (.walker 0 (wordWalker x))
  else if nbits ≤ 64 then put (placeVision s x) (.warp 0)
  else put (placePacket s (rec64 fun k => BitVec.ofNat 64 (w >>> (64 * k)))) (.qp 0 0)

end Sys2Proof.Machine
end

