-- ==== Sys2Proof/Safety.lean ====
section
/-! DEFINITION. What counts as a safe run, and the words in which the statements speak: what it takes for an instruction
to act, and what each kind of instruction may change. -/

namespace Sys2Proof.Machine

/-! ## Runs -/

/-- A state from which the next step answers a next state. -/
def Goes (s : State) : Prop := ∃ t, step s = .next t

/-- A run: each state is what the step makes of the one before it. -/
def IsRun (f : Nat → State) : Prop := ∀ n, step (f n) = .next (f (n + 1))

/-- At n a warp has its turn. -/
def TurnAt (f : Nat → State) (n wid : Nat) : Prop := ((f n).agenda.head?).map (fun x => x.who) = some (.warp wid)

/-- Forward progress of the warps (R187, R196), as the agenda of a run gives it: a warp that stays ready to issue has a turn again and
again. What gives the turns their times is no part of the machine (notes/assumptions/4.md, notes/assumptions/23.md); the rotation that
orders the warps of a partition is. -/
structure Fair (f : Nat → State) : Prop where
  run : IsRun f
  turns : ∀ n wid, (∀ m, n ≤ m → canIssue (f m) wid = true) → ∃ m, n ≤ m ∧ TurnAt f m wid

/-- DRAM is in canonical form: addresses strictly rising, and no entry equal to what an unlisted address reads as. -/
structure StoresOk (s : State) : Prop where
  dram : s.ms.mem.wf = true

/-! ## Vision words (R215 to R240) -/

/-- Warp `k.wid` is the agent of the turn and issues a word that passes every check at issue: it is placed, ready and
inside a clause, the word passes R233, no operation in flight holds it back (R218, R219), and no uncorrectable error
stands in its registers (R190). -/
structure Issues (s : State) (opc : Nat) (x : VWord) (k : VCtx) : Prop where
  agent : s.focus = .warp k.wid
  found : s.warps.find k.wid = some k.w
  placed : k.w.place = some (k.core, k.part)
  inside : k.w.clause = some k.c
  ready : k.w.st = .ready
  free : k.w.hold = none
  legal : vEnc opc x (allot k.w) k.last = none
  clear : hazard s k.wid opc x = false
  room : flagFull k.w k.c opc x = false
  soundV : k.w.badV = []
  soundU : k.w.badU = []
  masks : k = vCtx k.wid k.w (k.core, k.part) k.c opc x

/-- Contents of a register field (R225) in a lane: v registers below 256, s registers from 256. -/
def Warp.field (w : Warp) (f l : Nat) : Word := if f < 256 then w.vGet f l else w.sGet (f - 256)

/-- The lane whose result a word leaves in field f as lane l reads it (R224, R239, R240). -/
def writerOf (k : VCtx) (f l : Nat) : Option Nat :=
  if k.x.uni then
    if k.performs && (decide (256 ≤ f) || decide (lowLane k.path = some l)) then lowLane k.path else none
  else if f < 256 then (if laneIn k.exec l then some l else none)
  else (lanesOf k.exec).getLast?

/-- Flags that a word raises (R239, R240). -/
def raisedBy (k : VCtx) (f : Nat → Nat) : Nat :=
  if k.x.uni then
    match k.performs, lowLane k.path with
    | true, some l => f l
    | _, _ => 0
  else laneFlags k.act f

/-- Nothing but the warps changes, and of the other warps only that none waits any longer for warp i to issue (R187). -/
structure OnlyWarp (s t : State) (i : Nat) : Prop where
  rest : t = { s with warps := t.warps }
  others : ∀ j, j ≠ i → t.warps.find j =
    (s.warps.find j).map fun w => { w with yieldTo := w.yieldTo.filter fun n => decide (n ≠ i) }

/-- The path of the word has gone past it: to the next word of the clause, or to the next header (R216, R220). -/
structure Advanced (k : VCtx) (w : Warp) : Prop where
  clause : w.clause = if k.last then none else some { k.c with next := k.c.next + 1, doneLanes := 0 }
  pc : ∀ l, l < 32 → laneGet zeroAddr w.pc l = if k.last && laneIn k.path l then k.nextHeader else laneGet zeroAddr k.w.pc l

/-- The effect of a word that writes n registers from DST up with the results `f` gives each lane, ORs the raised flags into
sr.fpflags, sets sr.deadsrc where `dead` says so, and changes nothing else: no other register, predicate, completion flag or condition of a lane, no memory, no
other state of the device. -/
def Wrote (s t : State) (k : VCtx) (n : Nat) (f : LaneFn) (dead : Bool) : Prop :=
  OnlyWarp s t k.wid ∧ ∃ w, t.warps.find k.wid = some w ∧ Advanced k w ∧
    (∀ r l, r < 448 → l < 32 → w.field r l =
      match (if k.x.dst.toNat ≤ r ∧ r < k.x.dst.toNat + n then writerOf k r l else none) with
      | some j => (f j).1.getD (r - k.x.dst.toNat) 0
      | none => k.w.field r l) ∧
    (w.fpflags = (k.w.fpflags ||| raisedBy k fun l => (f l).2) % 32 ∨
      (w.fpflags = k.w.fpflags ∧ (raisedBy k fun l => (f l).2) = 0)) ∧
    w.deadsrc = (k.w.deadsrc || dead) ∧
    w = { k.w with v := w.v, s := w.s, fpflags := w.fpflags, deadsrc := w.deadsrc, clause := w.clause, pc := w.pc,
                   yieldTo := w.yieldTo }

/-- The effect of a word that writes predicate DST: in the lanes that perform it, or in all 32 (R239, R240). -/
def WrotePred (s t : State) (k : VCtx) (f : Nat → Bool × Nat) : Prop :=
  OnlyWarp s t k.wid ∧ ∃ w, t.warps.find k.wid = some w ∧ Advanced k w ∧
    (∀ l, l < 32 → w.pGet k.x.dst.toNat l =
      if k.x.uni then
        match k.performs, lowLane k.path with
        | true, some j => (f j).1
        | _, _ => k.w.pGet k.x.dst.toNat l
      else if laneIn k.exec l then (f l).1 else k.w.pGet k.x.dst.toNat l) ∧
    (∀ n, n ≠ k.x.dst.toNat → w.pMask n = k.w.pMask n) ∧
    (w.fpflags = (k.w.fpflags ||| raisedBy k fun l => (f l).2) % 32 ∨
      (w.fpflags = k.w.fpflags ∧ (raisedBy k fun l => (f l).2) = 0)) ∧
    w = { k.w with p := w.p, fpflags := w.fpflags, clause := w.clause, pc := w.pc, yieldTo := w.yieldTo }

/-- An instruction made of a word completes, under every state in which it issues, with the register effect given. -/
def WordWrites (mk : VWord → Instr) (opc n : Nat) (f : VCtx → LaneFn) : Prop :=
  ∀ s x k, Issues s opc x k → ∃ t, exec (mk x) s = .next t ∧ Wrote s t k n (f k) false

/-- The same with a predicate effect. -/
def WordTests (mk : VWord → Instr) (opc : Nat) (f : VCtx → Nat → Bool × Nat) : Prop :=
  ∀ s x k, Issues s opc x k → ∃ t, exec (mk x) s = .next t ∧ WrotePred s t k (f k)

/-- The floating-point result of a word, element by element: sources negated as the word says (R249), rounded as RM says. -/
def fpWord (g : Fmt → RMode → Nat → Nat → Nat → Nat × Nat) (k : VCtx) : LaneFn := fun l =>
  let r := mapElems k.x.typ fun i =>
    g (typFmt k.x.typ) (RMode.ofBits k.x.rm) (fpA k.x (k.a l) i) (fpB k.x (k.b l) i) (fpC k.x (k.cc l) i)
  ([r.1], r.2)

/-- The FP32 result of a word of one source, its sign inverted where the word says. -/
def fpWord1 (g : RMode → Nat → Nat × Nat) (k : VCtx) : LaneFn := fun l =>
  let r := g (RMode.ofBits k.x.rm) (fpA k.x (k.a l) 0)
  ([BitVec.ofNat 32 r.1], r.2)

/-- An exchange: each lane takes the value of its source lane, or its own where that lane does not perform the word (R265). -/
def takes (k : VCtx) (src : Nat → Nat) : LaneFn := fun l => ([if laneIn k.exec (src l) then k.a (src l) else k.a l], 0)

/-- Some lane's source is dead and performs nothing (R265). -/
def deadSource (k : VCtx) (src : Nat → Nat) : Bool :=
  (lanesOf k.exec).any fun l => !(laneIn k.exec (src l)) && laneIn k.w.dead (src l)

/-! ## Transfers and waits (R270 to R275) -/

/-- A transfer to overlay address a arrives at b (R206, R271): a is in range, and its token, or failing it the overlay of its
number in the same release, names a resident overlay long enough. -/
structure Lands (s : State) (k : VCtx) (a b : OvAddr) : Prop where
  range : a.off < 2 ^ 16 ∧ a.off % 8 = 0 ∧ tokOvid a.tok ≠ 0
  there : ∃ o, o.st = .resident ∧ a.off < 4096 * o.npg ∧ b = { tok := ovlTok s k.core o, off := a.off } ∧
    (tokCurrent s k.core k.w.card k.w.gen a.tok = some o ∨
      (tokCurrent s k.core k.w.card k.w.gen a.tok = none ∧
        (istore s k.core).ovls.find? (fun (x : Ovl) =>
          decide (x.card = k.w.card ∧ x.gen = k.w.gen ∧ x.ovid = tokOvid a.tok)) = some o))

/-- The effect of a transfer: lanes that perform it stand at b with their depth changed and the rest of the path at the next
header; a link writes the address of the next header to the register pair DST; an overlay that waited to be unpinned may go. -/
def Moved (s t : State) (k : VCtx) (b : Nat → OvAddr) (d : Nat → Nat) (link : Bool) : Prop :=
  t = { s with warps := t.warps, ist := t.ist } ∧ (∀ c, c ≠ k.core → istore t c = istore s c) ∧
  ((∀ o ∈ (istore s k.core).ovls, o.doomed = false) → t.ist = s.ist) ∧
  ∃ w, t.warps.find k.wid = some w ∧ w.clause = none ∧
    (∀ l, l < 32 → laneGet zeroAddr w.pc l =
      if laneIn k.exec l then b l else if laneIn k.path l then k.nextHeader else laneGet zeroAddr k.w.pc l) ∧
    (∀ l, l < 32 → w.depth.getD l 0 = if laneIn k.exec l then d (k.w.depth.getD l 0) else k.w.depth.getD l 0) ∧
    (∀ r l, r < 448 → l < 32 → w.field r l =
      if link ∧ k.x.dst.toNat ≤ r ∧ r < k.x.dst.toNat + 2 ∧ (writerOf k r l).isSome then
        (if r = k.x.dst.toNat then BitVec.ofNat 32 k.nextHeader.off else k.c.at_.tok)
      else k.w.field r l) ∧
    w = { k.w with v := w.v, s := w.s, pc := w.pc, depth := w.depth, clause := none, ovFirst := none, ovWait := none,
                   yieldTo := w.yieldTo }

/-- A transfer has moved its lanes; then executors that wait for a placement on the core try again (R207). -/
def Jumped (s t : State) (k : VCtx) (b : Nat → OvAddr) (d : Nat → Nat) (link : Bool) : Prop :=
  ∃ u, Moved s u k b d link ∧ t = retryPlaces u k.core

/-- Lanes m of the path stand at the word under a wait; the rest of the path goes on; nothing else of the device changes, and of the
warp only what a wait that is over at the same time changes. -/
def Stood (s t : State) (k : VCtx) (m : Word) (how : LWait) : Prop :=
  OnlyWarp s t k.wid ∧ ∃ w, t.warps.find k.wid = some w ∧ w.clause = none ∧
    (∀ l, l < 32 → laneIn m l → laneGet .none w.wait l = how ∧
      laneGet zeroAddr w.pc l = { k.c.at_ with off := k.c.at_.off + 8 * k.c.next }) ∧
    (∀ l, l < 32 → laneIn k.path l → laneIn m l = false → laneGet .none k.w.wait l = .none →
      laneGet .none w.wait l = .none ∧ laneGet zeroAddr w.pc l = k.nextHeader) ∧
    w = { k.w with clause := none, pc := w.pc, wait := w.wait, flags := w.flags, ch := w.ch, ordDone := w.ordDone,
                   held := w.held, yieldTo := w.yieldTo }

/-- Lanes m of the path did not have to wait: they stand at the next header, as the rest of the path does. -/
def WentOn (s t : State) (k : VCtx) (m : Word) : Prop :=
  OnlyWarp s t k.wid ∧ ∃ w, t.warps.find k.wid = some w ∧ w.clause = none ∧
    (∀ l, l < 32 → laneIn k.path l → (laneIn m l ∨ laneGet .none k.w.wait l = .none) →
      laneGet .none w.wait l = .none ∧ laneGet zeroAddr w.pc l = k.nextHeader) ∧
    w = { k.w with clause := none, pc := w.pc, wait := w.wait, flags := w.flags, ch := w.ch, ordDone := w.ordDone,
                   held := w.held, yieldTo := w.yieldTo }

/-- The warp has issued a long-latency operation and gone on (R218, R219): the operation keeps its kind, lanes, destination and
flag, the flag counts one more, and no register of the warp changes yet. -/
def LongIssued (s t : State) (k : VCtx) (kind : OpKind) (lanes : List LaneAcc) : Prop :=
  ∃ o w, t.ops.find s.next = some o ∧ o.wid = k.wid ∧ o.core = k.core ∧ o.ctx = { card := k.w.card, gen := k.w.gen } ∧
    o.kind = kind ∧ o.dst = dstRef k.x.dst.toNat ∧ o.flag = k.c.flag k.x.fs ∧ o.lanes = lanes ∧ o.back = some k.c ∧
    t.warps.find k.wid = some w ∧ Advanced k w ∧
    (∀ n, n < 12 → w.flagCount n = k.w.flagCount n + if k.c.flag k.x.fs = some n then 1 else 0) ∧
    w = { k.w with flags := w.flags, hold := w.hold, fpflags := w.fpflags, clause := w.clause, pc := w.pc, yieldTo := w.yieldTo }

/-- The value-returning atomics with their operations (R290). -/
def atomWords : List ((VWord → Instr) × Nat × RedOp) :=
  [(.atomAdd, 0x110, .add), (.atomMin, 0x111, .min), (.atomMax, 0x112, .max), (.atomAnd, 0x113, .and), (.atomOr, 0x114, .or),
   (.atomXor, 0x115, .xor), (.atomExch, 0x116, .exch), (.atomCas, 0x117, .cas), (.atomFadd, 0x118, .fadd)]

/-- The reductions with their operations (R291). -/
def fredWords : List ((VWord → Instr) × Nat × RedOp) :=
  [(.fredAdd, 0x119, .add), (.fredMin, 0x11A, .min), (.fredMax, 0x11B, .max), (.fredAnd, 0x11C, .and), (.fredOr, 0x11D, .or),
   (.fredXor, 0x11E, .xor), (.fredFadd, 0x11F, .fadd)]

/-- The queue words with their operations, what each asks of the controller, and whether a release comes first (R299 to R301). -/
def queueOps : List ((VWord → Instr) × Nat × QOp × Bool × Option Acc) :=
  [(.qenq, 0x140, .enq, true, some .read), (.qdeq, 0x141, .deq, false, some .write), (.qres, 0x142, .res, true, none),
   (.qdone, 0x143, .done, true, none)]

/-! ## Tile words (R309 to R317, R328 to R355) -/

/-- Walker `k.e` of tile core `k.tc` is the agent of the turn and performs the word: its program runs, it is neither too far ahead
(R310) nor ahead of the checker, the word passes R328 and carries the walker's tag or a common one, its command equals the one the
checker has formed (R321), and its tokens are popped (R313). -/
structure Walks (s : State) (opc : Nat) (k : TCtx) : Prop where
  agent : s.focus = .walker k.tc k.e
  found : s.tiles.find k.tc = some k.t
  loaded : k.t.card = some k.x
  here : k.t.walkers[k.e]? = some k.w
  moves : tileGo s k.tc k.t k.x k.w = true
  going : k.w.st = .run
  slip : k.w.count - minCount k.t < tileSlip s k.x.card
  checked : checkerBehind k.t k.e k.w = false
  legal : tEnc opc k.word = none
  mine : k.word.t = 0 ∨ k.word.t = 5 ∨ k.word.t = k.e + 1
  sound : k.e < 4 → commandOk k.t k.e k.w opc k.word = true
  tokens : k.word.t = 0 ∨ k.word.t = 5 ∨ ∀ f ∈ popFifos k.e k.word, (k.w.pops.find f).isSome

/-- The tile core becomes t', but for the walker that moves, which becomes w; no other tile core and nothing else changes. -/
def WalkerIs (s t : State) (k : TCtx) (t' : TileCore) (w : Walker) : Prop :=
  t = { s with tiles := t.tiles } ∧ (∀ j, j ≠ k.tc → t.tiles.find j = s.tiles.find j) ∧
  t.tiles.find k.tc = some { t' with walkers := setAt k.t.walkers k.e w }

/-- The walker has left the overlay it stood in: the tile core is as `WalkerIs` says, no store of another core changes, and this one's
only where an overlay waited for its last executor (R204). -/
def WalkerLeft (s t : State) (k : TCtx) (t' : TileCore) (w : Walker) : Prop :=
  WalkerIs { s with ist := t.ist } t k t' w ∧ (∀ c, c ≠ k.core → istore t c = istore s c) ∧
  ((∀ o ∈ (istore s k.core).ovls, o.doomed = false) → t.ist = s.ist)

/-- The same where reads that the word asked for are over. -/
def WalkerRead (s t : State) (k : TCtx) (i : Nat) (t' : TileCore) (w : Walker) : Prop :=
  t = { s with tiles := t.tiles, ops := t.ops } ∧ (∀ j, j ≠ k.tc → t.tiles.find j = s.tiles.find j) ∧
  t.tiles.find k.tc = some { t' with walkers := setAt k.t.walkers k.e w } ∧
  (∀ j, t.ops.find j = if j = i then none else s.ops.find j)

/-- The walker has finished its word: its count is raised, it stands at pc, nothing of the word is left, and beside that at most
the replica differs (R309). -/
def Past (k : TCtx) (pc : OvAddr) (w : Walker) : Prop :=
  w = { k.w with k := w.k, pc := pc, count := k.w.count + 1, rep := 0, retiring := false, pops := [], pushes := [], asked := none,
                 uses := none, sent := false, ans := none, ovFirst := none, ovWait := none }

/-- The address of the next word, and that of a branch (R309, R337). -/
def TCtx.nextPc (k : TCtx) : OvAddr := { k.w.pc with off := k.w.pc.off + 8 }

/-- The replica of w is that of the walker with register n written. -/
def WrotesK (k : TCtx) (w : Walker) (n : Nat) (v : DWord) : Prop := ∀ j, w.kr j = if j = n then v else k.w.kr j

/-- A K word completes wherever its walker performs it: it writes the register kd of the walker's replica and goes on. -/
def KWrites (mk : TWord → Instr) (opc : Nat) (f : TCtx → DWord) : Prop :=
  ∀ s k, Walks s opc k → ∃ t w, exec (mk k.word) s = .next t ∧ WalkerIs s t k k.t w ∧ WrotesK k w k.word.kd (f k) ∧ Past k k.nextPc w

/-- A conditional branch completes: to its target, `imm` words on, or to the next word; no register changes (R337). -/
def KBranch (mk : TWord → Instr) (opc : Nat) (taken : DWord → DWord → Prop) : Prop :=
  ∀ s k, Walks s opc k → ∃ t w, exec (mk k.word) s = .next t ∧ WalkerIs s t k k.t w ∧ w.k = k.w.k ∧
    (taken (k.w.kr k.word.kd) (k.w.kr k.word.ka) → Past k (kTarget k.w.pc k.word.imm) w) ∧
    (¬ taken (k.w.kr k.word.kd) (k.w.kr k.word.ka) → Past k k.nextPc w)

/-- From walker w0, a repetition has been performed: w goes on to the next one, or its word retires with its tokens owed (R313,
R314). -/
def RepDone (k : TCtx) (w0 w : Walker) : Prop :=
  w = if w0.rep + 1 < k.word.n then { w0 with rep := w0.rep + 1, asked := none }
      else { w0 with retiring := true, asked := none, pushes := pushFifos k.e k.word }

/-- Every sector that the walker's reads asked for is at hand. -/
def AtHand (s : State) (k : TCtx) (i : Nat) (o : PendOp) : Prop :=
  k.w.asked = some i ∧ s.ops.find i = some o ∧ ∀ x ∈ o.order, (o.got.find x).isSome

/-- The slots of operand a hold, element by element, the values and flags `f` gives, without an uncorrectable error; every other
slot is as before, and nothing else of the tile core changes (R316, R331). -/
def SlotsWritten (k : TCtx) (a : AccAt) (t' : TileCore) (f : Nat → Nat × Nat) : Prop :=
  t' = { k.t with acc := t'.acc, bad := t'.bad } ∧
  (∀ m, m < 128 → accSlot t' (a.slot m).1 (a.slot m).2 = (f m).1 % 2 ^ 40 + 2 ^ 40 * ((f m).2 % 64) ∧
    accBad t' (a.slot m).1 (a.slot m).2 = false) ∧
  (∀ r j, j < 128 → (∀ m, m < 128 → a.slot m ≠ (r, j)) → accSlot t' r j = accSlot k.t r j ∧ accBad t' r j = accBad k.t r j)

/-- The first bytes of row r become `bs`; a slot that holds a byte marked there has DEAD set; every other byte of the store is as
before, and nothing else of the tile core changes (R331, R334). -/
def RowWritten (k : TCtx) (r : Nat) (t' : TileCore) (bs : List (Byte × Bool)) : Prop :=
  t' = { k.t with acc := t'.acc, bad := t'.bad } ∧
  (∀ i, i < 768 → t'.acc.read (768 * r + i) =
    (if i < bs.length then (bs.getD i (0, false)).1 else k.t.acc.read (768 * r + i)) |||
      (if i % 6 = 5 ∧ ∃ j, j < bs.length ∧ j / 6 = i / 6 ∧ (bs.getD j (0, false)).2 = true then 0x20 else 0)) ∧
  (∀ i, ¬ (768 * r ≤ i ∧ i < 768 * r + 768) → t'.acc.read i = k.t.acc.read i) ∧
  (∀ n, t'.bad.contains n = (k.t.bad.contains n && !decide (768 * r ≤ 6 * n ∧ 6 * n + 6 ≤ 768 * r + bs.length)))

/-- The walker of a word that notes an uncorrectable input for its retirement, with the address it will name (R334). -/
def noted (k : TCtx) (pa : Option Nat) : Walker :=
  { k.w with ecc := match pa with
      | some a => some (k.w.ecc.getD a)
      | none => k.w.ecc }

/-- A V word on A40 elements completes for every pair of operands in range: each destination slot gets the value and flags `f` makes
of the slots' contents, with DEAD where an input was uncorrectable (R334, R347). -/
def SlotWord (mk : TWord → Instr) (opc : Nat) (readsA stepB : Bool) (f : Slot → Slot → Nat × Nat) : Prop :=
  ∀ s k a b, Walks s opc k → k.w.asked = none → accAt k k.word.opa k.step = some a → accAt k k.word.opb (if stepB then k.step else 0) = some b →
    let A := fun m => readSlot k.t (a.slot m).1 (a.slot m).2
    let B := fun m => readSlot k.t (b.slot m).1 (b.slot m).2
    let dead := fun m => (readsA && (A m).bad) || (B m).bad
    ∃ t t' w, exec (mk k.word) s = .next t ∧ WalkerIs s t k t' w ∧
      RepDone k (noted k (if (List.range 128).any dead then some 0 else none)) w ∧
      SlotsWritten k a t' (fun m => ((f (A m) (B m)).1, (f (A m) (B m)).2 ||| if dead m then 32 else 0))

/-- The same of a word with a destination operand alone. -/
def SlotWord1 (mk : TWord → Instr) (opc : Nat) (reads : Bool) (f : TCtx → Slot → Nat × Nat) : Prop :=
  ∀ s k a, Walks s opc k → k.w.asked = none → accAt k k.word.opa k.step = some a →
    let A := fun m => readSlot k.t (a.slot m).1 (a.slot m).2
    ∃ t t' w, exec (mk k.word) s = .next t ∧ WalkerIs s t k t' w ∧
      RepDone k (noted k (if (List.range 128).any fun m => reads && (A m).bad then some 0 else none)) w ∧
      SlotsWritten k a t' (fun m => ((f k (A m)).1, (f k (A m)).2 ||| if reads && (A m).bad then 32 else 0))

/-- A V word that writes a whole row or its I24 lanes completes: the bytes with the marks of uncorrectable inputs, and SATST where an
element saturated (R334, R348 to R350). -/
def RowWord (mk : TWord → Instr) (opc : Nat) (twoOps : Bool) (f : TCtx → Nat → Nat → List (Byte × Bool) × Bool) : Prop :=
  ∀ s k a b, Walks s opc k → k.w.asked = none → accAt k k.word.opa k.step = some a →
    (if twoOps then accAt k k.word.opb k.step = some b else b = a) →
    let r := f k a.theRow b.theRow
    ∃ t t' w, exec (mk k.word) s = .next t ∧ RowWritten k a.theRow t' r.1 ∧
      RepDone k (noted k (if ∃ e ∈ r.1, e.2 = true then some 0 else none)) w ∧
      t = { s with tiles := t.tiles, regs := t.regs } ∧ (∀ j, j ≠ k.tc → t.tiles.find j = s.tiles.find j) ∧
      t.tiles.find k.tc = some { t' with walkers := setAt k.t.walkers k.e w } ∧
      (r.2 = false → t.regs = s.regs) ∧
      (r.2 = true → t = { s.setRegF (Reg.tcStat k.tc) 7 7 1 with tiles := t.tiles })

/-- An I24 lane as three bytes with its mark. -/
def lane3 (x : Int) (bad : Bool) : List (Byte × Bool) := (leBytes 3 (narrow x 24)).map fun b => (b, bad)

/-- Output (m, n) of an X word has an uncorrectable input: its activation row, a weight of its column, or its slot (R334). -/
def deadOut (k : TCtx) (k0 kn : Nat) (acts : List ActRow) (m n : Nat) : Bool :=
  ((acts[m]?).map fun a => a.bad).getD false || ((List.range kn).any fun i => (xbFile k).poison.contains (128 * (k0 + i) + n)) ||
    (readSlot k.t (128 * (xbTile k).toNat + m) n).bad

/-- The tile's slots after an X word with weight rows k0 to k0 + kn - 1 (R345, R346): slot (m, n) holds the sum of row m and column n
by the rule, with the slot's flags, those raised, and DEAD where an input was uncorrectable; every other slot is as before, and
nothing else of the tile core changes. -/
def Multiplied (k : TCtx) (t' : TileCore) (k0 kn : Nat) (r : SumRule) (acts : List ActRow) : Prop :=
  t' = { k.t with acc := t'.acc, bad := t'.bad } ∧
  (∀ m n a, m < 128 → n < 128 → acts[m]? = some a →
    let c := readSlot k.t (128 * (xbTile k).toNat + m) n
    let o := outElem r a ((List.range kn).map fun i => (fileRow (xbFile k) (k0 + i)).getD n 0) c.val
    accSlot t' (128 * (xbTile k).toNat + m) n =
      (o.1 + 2 ^ 40 * (c.flags ||| o.2 ||| if deadOut k k0 kn acts m n then 32 else 0)) % 2 ^ 48) ∧
  (∀ row j, j < 128 → ¬ (128 * (xbTile k).toNat ≤ row ∧ row < 128 * (xbTile k).toNat + 128) →
    accSlot t' row j = accSlot k.t row j ∧ accBad t' row j = accBad k.t row j)

/-! ## Register writes (R5, R25, R26) -/

/-- A write that reaches its window and touches one register. -/
def BusOne (s : State) (b : BusWrite) (q : RegPart) : Prop := busReaches s b = true ∧ busParts b = [q]

/-- One register takes a value; nothing else changes. -/
def OnlyReg (s t : State) (r : Nat) (v : DWord) : Prop :=
  t = { s with regs := t.regs } ∧ t.reg r = v ∧ ∀ x, x ≠ r → t.reg x = s.reg x

/-- Nothing changes but registers of a list. -/
def OnlyRegs (s t : State) (l : List Nat) : Prop := t = { s with regs := t.regs } ∧ ∀ x, x ∉ l → t.reg x = s.reg x

/-- The registers whose write does something of its own, beside the fields it writes. -/
def ownEffect (r : Nat) : Prop :=
  r ∈ [Reg.pwrCap, Reg.pwrBase, Reg.tlim, Reg.ddxCmd, Reg.govCmd, Reg.govPol] ∨ (∃ c, c < 4 ∧ r = Reg.ctxCmd c) ∨
  (∃ g, g < 64 ∧ r = Reg.graphCfg g) ∨ (∃ n, n < 9 ∧ r = Reg.spPid n) ∨ (∃ c, c < 56 ∧ r = Reg.ovlCmd c) ∨
  (∃ d, d < 2 ∧ ((dieBase d + 0x200 ≤ r ∧ r < dieBase d + 0x400) ∨ r = Reg.shootCtl d ∨ (∃ c, c < 4 ∧ r = Reg.lqCmd d c) ∨
    ∃ i, i < 32 ∧ r ∈ [Reg.mqCfg d i, Reg.mqSatp d i, Reg.mqShadow d i]))

/-- The commands of a leat port with the operation each forwards (R132). -/
def lqCommands : List ((BusWrite → Instr) × (State → Nat → Nat → LOp)) :=
  [(.lqEnq, fun _ _ _ => .enq []), (.lqDeq, fun _ _ _ => .deq), (.lqResv, fun s d c => .res (s.reg (Reg.lqArg0 d c)).toNat),
   (.lqDone, fun s d c => .done (s.reg (Reg.lqArg0 d c)).toNat),
   (.lqInit, fun s d c => .init (s.reg (Reg.lqArg0 d c)) (s.reg (Reg.lqArg1 d c)) (s.reg (Reg.lqBuf d c))),
   (.lqDrain, fun _ _ _ => .drain), (.lqClose, fun _ _ _ => .close), (.lqReopen, fun _ _ _ => .reopen),
   (.lqRepair, fun s d c => .repair (s.reg (Reg.lqArg0 d c)).toNat), (.lqQuery, fun _ _ _ => .query)]

/-! ## Packets and path commands (R135 to R147, R376 to R388) -/

/-- Thread th of the queue processor of die d is the agent of the turn, its processor runs and serves its queue, it performs a packet,
its shadow has received the STAGE it is owed (R158), and the packet has been read at its home: the packet acts on u. -/
structure Performs (s : State) (d th : Nat) (u : State) : Prop where
  agent : s.focus = .qp d th
  runs : qpRuns s d th = true
  exec : (thread s d th).st = .exec
  read : ∃ v, qpOwesNot s d th = (true, v) ∧ qpReads v d th [(thread s d th).idx] = (true, u)

/-- The packet has completed (R135, R138): STAGE goes to EMPTY and the thread to FETCH, or to BEGUN at the next packet of its arm. -/
def Completed (u t : State) (d th : Nat) : Prop :=
  t = qpDone u d th ∧
  ((thread u d th).armLeft = 0 → (thread t d th).st = .fetch ∧ (thread t d th).have_ = 0) ∧
  ((thread u d th).armLeft ≠ 0 → (thread t d th).st = .exec ∧ (thread t d th).idx = (thread u d th).idx + 1 ∧
    (thread t d th).armLeft = (thread u d th).armLeft - 1)

/-- An effect may go out (R158): its STAGE ISSUED stands in the shadow, in v, and the release before it has completed. -/
def Sends (u v : State) (d th : Nat) : Prop :=
  v = (if (thread u d th).issued then u
       else qpStage (setThread u d th { thread u d th with issued := true }) d th 2 (thread u d th).idx) ∧
  (thread v d th).owes = none ∧ qpReleased v d = true

/-- A register that the memory system itself counts in: those of a sluice (R174), or EVH of a slice (R66). -/
def MemReg (x : Nat) : Prop :=
  (∃ m r, m < 16 ∧ r < 73 ∧ x ∈ [Reg.sluCnt m r, Reg.sluHold m r, Reg.sluRun m r, Reg.sluOvw m r]) ∨ ∃ h, h < 32 ∧ x = Reg.evh h

/-- What accesses at their homes leave alone outside the memory system: every register but those it counts in and those listed, and
all that the controllers of leats hold but the notifications. -/
def HomeFrame (s t : State) (l : List Nat) : Prop :=
  t.lq = { s.lq with notes := t.lq.notes } ∧ ∀ x, ¬ MemReg x → x ∉ l → t.reg x = s.reg x

/-- A thread without the notification that its WAIT may have had. -/
def unnoted (t : Thread) : Thread :=
  match t.blk with
  | some (.cond n x _) => { t with blk := some (.cond n x false) }
  | _ => t

/-- Nothing but the memory system, one thread, notifications and the registers listed changes. -/
def ThreadFrame (s t : State) (d th : Nat) (l : List Nat) : Prop :=
  t = { s with regs := t.regs, ms := t.ms, th := t.th, lq := t.lq, next := t.next, qpch := t.qpch } ∧ HomeFrame s t l ∧
  ∀ k, k ≠ thKey d th → (t.th.find k).map unnoted = (s.th.find k).map unnoted

/-- Die d's path coverage engine is the agent of the turn, runs, and holds p. -/
structure Draws (s : State) (d : Nat) (p : Pce) : Prop where
  agent : s.focus = .pce d
  found : s.pces.find d = some p
  goes : pceGo s p = true

/-- STAGE of a thread's shadow has become a stage and a position (R158): the two words at its start are written, and no other byte
of memory changes. -/
def Staged (s t : State) (d th stage pos : Nat) : Prop :=
  ∀ a, t.ms.mem.read a =
    if shadowPa s d th ≤ a ∧ a < shadowPa s d th + 16 then
      (leBytes 8 (thread s d th).seq ++ leBytes 8 (stage + 8 * pos)).getD (a - shadowPa s d th) 0
    else s.ms.mem.read a

/-- STAGE of a thread's shadow becomes a stage and a position, with release (R97, R158): it has been written there, or the thread owes it
because the processor's horizon has not been reached, the home or the sluice holds the write. -/
def Staging (s t : State) (d th stage pos : Nat) : Prop :=
  ((thread t d th).owes = none ∧ qpReleased s d = true ∧ Staged s t d th stage pos) ∨
  ((thread t d th).owes = some (stage, pos) ∧ ∀ a, t.ms.mem.read a = s.ms.mem.read a)

/-! ## Events at a line's home (R78 to R90) -/

/-- Bytes written over memory: of a byte listed more than once, the last. -/
def WroteBytes (s t : State) (bs : List (Nat × Byte)) : Prop :=
  ∀ a, t.ms.mem.read a = ((bs.reverse.find? fun e => decide (e.1 = a)).map (·.2)).getD (s.ms.mem.read a)

/-- Poison is cleared where a store covers its whole sector, and nowhere else (R81). -/
def PoisonLeft (s t : State) (sec : Nat) (bs : List (Nat × Byte)) : Prop :=
  ∀ x, x ∈ t.ms.poison ↔ x ∈ s.ms.poison ∧ ¬ (x = sec ∧ coversSec sec bs = true)

/-- Request q is the one the event names, its slice is open to it, and its agent's program, if it is a tile core's, is resident. -/
structure AtHome (s : State) (q : Req) : Prop where
  found : findReq s s.ev.i = some q
  slice : sliceOpen s q = true
  resident : ∀ tc e, q.agent = .teng tc e → ∃ z ∈ s.tiles, z.2.card = q.ctx ∧ z.2.walkers ≠ []

/-- The WCT of a write performed now goes to the horizon of the warp that issued it (R86). -/
def HorizonRaised (s t : State) (q : Req) : Prop :=
  ∀ i w, q.agent = .warp i → s.warps.find i = some w →
    t.warps.find i = some { w with ch := max w.ch (max (s.now (paDie (512 * (q.sec / 8)))) (horizonOf s (q.sec / 8))) }

/-! ## Waits that end (R193, R274, R294 to R298) -/

/-- Of warp w, the live lanes whose wait satisfies p go on at the next header; nothing else of it changes. -/
def GoesOn (w w' : Warp) (p : Nat → LWait → Prop) : Prop :=
  w' = { w with pc := w'.pc, wait := w'.wait } ∧ ∀ l, l < 32 →
    (w.isLive l = true ∧ p l (laneGet .none w.wait l) → laneGet .none w'.wait l = .none ∧
      laneGet zeroAddr w'.pc l = { laneGet zeroAddr w.pc l with off := (laneGet zeroAddr w.pc l).off + 8 }) ∧
    (¬ (w.isLive l = true ∧ p l (laneGet .none w.wait l)) → laneGet .none w'.wait l = laneGet .none w.wait l ∧
      laneGet zeroAddr w'.pc l = laneGet zeroAddr w.pc l)

/-- The warps of a list whose lanes stand at wait k go on; no other warp changes. -/
def WarpsGoOn (s t : State) (ws : List Nat) (k : LWait) : Prop :=
  ∀ i, (i ∉ ws → t.warps.find i = s.warps.find i) ∧
    (i ∈ ws → ∀ w, s.warps.find i = some w → ∃ w', t.warps.find i = some w' ∧ GoesOn w w' fun _ x => x = k)

/-! ## Leats at their controller (R109 to R131) -/

/-- Request q is the one the event names, nothing before it at its block or from its requester holds it back, and the homes and the
sluice of its sectors have let it, which leaves u. -/
structure TakenUp (s : State) (q : LReq) (u : State) : Prop where
  found : (s.lq.reqs.find? fun x => decide (x.id = s.ev.i)) = some q
  ready : reqReady s q = true
  takes : leatGate s q = (true, u)

/-- The same of a request that passes the common checks of R114 and R115. -/
structure AtLeat (s : State) (q : LReq) (u : State) : Prop extends TakenUp s q u where
  passes : commonCheck u q = none

/-- Nobody waits at the block and it wakes nobody, and its ring lies apart from it. -/
structure Quiet (s : State) (cb : Nat) : Prop where
  alone : waitersOf s cb = []
  asleep : bit (readCb s cb).wake 63 = false
  apart : ∀ i, (readCb s cb).slot i + (readCb s cb).es ≤ cb ∨ cb + 64 ≤ (readCb s cb).slot i

/-- The request is over and its requester hears a: a port in its status word, a lane of a warp among its operation's answers. -/
def Answered (s t : State) (q : LReq) (a : LAns) : Prop :=
  ((∀ n, q.who ≠ .sp n) → ∀ x ∈ t.lq.reqs, x.id ≠ q.id) ∧
  (∀ d c, q.who = .port d c → t.reg (Reg.lqStat d c) = BitVec.ofNat 64 (match a.trap with
    | some (code, _) => 256 * code
    | none => a.status)) ∧
  (∀ i op l o, q.who = .warp i op l → s.ops.find op = some o → (t.ops.find op).bind (fun x => x.answers.find l) = some a)

/-- Memory keeps every byte outside the block and the n bytes from pa up. -/
def KeptBut (s t : State) (cb pa n : Nat) : Prop :=
  ∀ a, ¬ (cb ≤ a ∧ a < cb + 64) → ¬ (pa ≤ a ∧ a < pa + n) → t.ms.mem.read a = s.ms.mem.read a

/-- The waiter w is the only one at the block, and waits to dequeue. -/
structure WaitsAlone (s : State) (cb : Nat) (w : Waiter) : Prop where
  only : waitersOf s cb = [w]
  ids : ∀ x ∈ s.lq.waiters, x.id = w.id → x = w
  deq : w.q.op.isDeq = true
  live : w.marked = false

/-! ## Events of the Governor and the DDX (R397 to R419) -/

/-- The registers of the Governor's event ring (R406). -/
def inEventRing (r : Nat) : Prop := r = Reg.govEvtHead ∨ r = Reg.govEvtDrop ∨ ∃ h, h < 128 ∧ Reg.govEvt h ≤ r ∧ r < Reg.govEvt h + 24

/-- One event is posted: a record at HEAD, which moves on, or with a full ring one more drop; nothing else changes (R406). -/
def Posted (s t : State) (kind sub a b : Nat) : Prop :=
  let h := (s.reg Reg.govEvtHead).toNat
  t = { s with regs := t.regs } ∧ (∀ r, ¬ inEventRing r → t.reg r = s.reg r) ∧
  ((h + 2 ^ 32 - (s.reg Reg.govEvtTail).toNat) % 2 ^ 32 < 128 →
    (t.reg (Reg.govEvt (h % 128))).toNat = kind % 256 + 256 * (sub % 256) + 65536 * (a % 65536) ∧
    t.reg (Reg.govEvt (h % 128) + 8) = BitVec.ofNat 64 b ∧ t.reg (Reg.govEvt (h % 128) + 16) = BitVec.ofNat 64 (s.now 3) ∧
    (t.reg Reg.govEvtHead).toNat = (h + 1) % 2 ^ 32) ∧
  (128 ≤ (h + 2 ^ 32 - (s.reg Reg.govEvtTail).toNat) % 2 ^ 32 →
    OnlyReg s t Reg.govEvtDrop (BitVec.ofNat 64 (satInc (s.reg Reg.govEvtDrop).toNat 32)))

/-- A failed start or a restart is counted in GOV_MODE, with its cause (R416). -/
def Counted (s t : State) (cause : Nat) : Prop :=
  OnlyReg s t Reg.govMode (t.reg Reg.govMode) ∧ t.regF Reg.govMode 11 8 = min 15 (s.regF Reg.govMode 11 8 + 1) ∧
  t.regF Reg.govMode 23 16 = cause

/-- A device restart of a cause: it is counted, and the device starts again. -/
def Restarts (s t : State) (cause : Nat) : Prop := ∃ u, Counted s u cause ∧ t = newStart u

/-- A snapshot of every window is latched at Now() (R419). -/
def Latched (s u : State) : Prop :=
  u = { s with snap := u.snap, regs := u.regs, gov := u.gov } ∧
  u.gov = { s.gov with snapArmed := u.gov.snapArmed, snapDies := [], snapWins := u.gov.snapWins, lastLatch := some (s.now 3) } ∧
  (∀ w, w < 4 → w ∈ u.gov.snapWins) ∧ u.reg Reg.govSnapLast = BitVec.ofNat 64 (s.now 3) ∧
  (∀ r, ¬ inEventRing r → r ≠ Reg.govSnapT → r ≠ Reg.govSnapLast → u.reg r = s.reg r)

/-- A restart of a die's control engines (R411): the queue processor is down from Now() on, its heartbeat sample is forgotten, and the
other die's processor adopts its queues where one partition holds both dies and it is not itself restarting. -/
def ControlRestart (s t : State) (d : Nat) : Prop :=
  t.gov.qpRestart.find d = some (decide (partOfQ s 0 = partOfQ s 2) && (s.gov.qpRestart.find (1 - d)).isNone) ∧
  t.gov.ctlRestart.find d = some (t.now 3) ∧ t.gov.hb.find d = none

/-- What an action of the table of R408 does. -/
def ActsOn (u t : State) : GovAct → Prop
  | .deviceRestart c => Restarts u t c
  | .qpFail d τ => ∃ v, Posted u v 2 0 d τ ∧ ControlRestart v t d
  | .distFail d => ((u.gov.qpRestart.find d).isSome = true → t = u) ∧ ((u.gov.qpRestart.find d).isSome = false → ControlRestart u t d)
  | .skewErr c => Posted u t 6 0 c 0
  | .hbMiss c third => ∃ v, Posted u v 1 4 c 0 ∧ (third = false → t = v) ∧ (third = true → Restarts v t 7)

/-- An action of R408: after a snapshot at Now(), or, where one was latched less than 100 us ago or an action already waits, queued. -/
def Supervises (s t : State) (a : GovAct) : Prop :=
  ((s.gov.todo = [] ∧ ∀ l, s.gov.lastLatch = some l → l + 100000 ≤ s.now 3) → ∃ u, Latched s u ∧ ActsOn u t a) ∧
  (¬ (s.gov.todo = [] ∧ ∀ l, s.gov.lastLatch = some l → l + 100000 ≤ s.now 3) →
    t = s.withGov { s.gov with todo := s.gov.todo ++ [a] })

/-- Record r reaches TRAPQ of its PID (R397, R398): its words are the new element, the queue's TAIL and FREE move, no other byte of
memory changes, and vector 0 of the PID's cluster is pending; the record is no longer owed. -/
def Delivered (s t : State) (i : Nat) (r : TrapRec) : Prop :=
  let cb := trapqPa s r.pid
  let c := readCb s cb
  readCb t cb = { c with tail := inc c.tail 1, free := c.free - 1 } ∧
  t.ms.mem.readN (c.slot c.tail) 64 = wordsBytes r.words ∧ KeptBut s t cb (c.slot c.tail) 64 ∧
  t.ddx.recs = dropAt s.ddx.recs i ∧ t.regBit (Reg.clIpend (pidCluster s r.pid) 0) 0 = true

/-- A record is handed to TRAPQ of its PID: its context, unless it is a notice, is still current, no element of the queue is offered,
and the homes of what it writes have let it, which leaves u. -/
structure Handed (s : State) (r : TrapRec) (u : State) : Prop where
  current : r.notice = false → cardGen s r.card = r.gen
  idle : offered s (trapqPa s r.pid) = none
  takes : trapTakes s r = (true, u)

/-- TRAPQ takes the record: it is enabled, and its block sound, quiet, in plain mode with elements of 64 bytes, open and not full. -/
structure TrapqTakes (s : State) (r : TrapRec) (u : State) : Prop extends Handed s r u where
  pid : r.pid < 16
  enabled : u.regBit (Reg.trapq r.pid) 63 = true
  dram : dramOk u (trapqPa u r.pid) = true
  sound : cbCheck (readCb u (trapqPa u r.pid)) (trapqPa u r.pid) = none
  match_ : pidMatches u (readCb u (trapqPa u r.pid)) (some r.pid) = true
  plain : (readCb u (trapqPa u r.pid)).mode = 0
  size : (readCb u (trapqPa u r.pid)).es = 64
  open_ : (readCb u (trapqPa u r.pid)).state = lOPEN
  room : 0 < (readCb u (trapqPa u r.pid)).free
  quiet : Quiet u (trapqPa u r.pid)

/-- The Governor judges: step 5 of a start is past, and it does not itself restart. -/
def Judges (s : State) : Prop := s.gov.warm = false ∧ s.gov.holdReset = false

end Sys2Proof.Machine
end

