-- ==== Sys2Proof/WellFormed.lean ====
section
/-! DEFINITION. Well-formed instructions: words that pass every check their bits alone decide (R233, R328), records
whose code is their constructor's (R139, R381), and aligned register writes whose row is their constructor's. -/

namespace Sys2Proof

/-- A vision word that passes R233 but for the allotment and the place in its clause. -/
def VWord.wellFormed (opc : Nat) (w : VWord) : Bool :=
  vGuardOk w && vUniformOk opc w && vRegOk opc w && vModOk opc w

/-- A tile word that passes R328. -/
def TWord.wellFormed (opc : Nat) (w : TWord) : Bool := decide (tEnc opc w = none)

/-- A packet of an OP (R139). -/
def Rec64.isPacket (p : Rec64) (op : Nat) : Bool := decide (bits p.w0 7 0 = op)

/-- A SIGNAL packet of a kind (R146). -/
def Rec64.isSignal (p : Rec64) (k : Nat) : Bool := decide (bits p.w0 7 0 = 5 ∧ bits p.w0 9 8 = k)

/-- A command record of an OP (R381). -/
def Rec64.isCommand (p : Rec64) (op : Nat) : Bool := decide (bits p.w0 3 0 = op)

/-- A naturally aligned write of 32 or 64 bits into a register window (R25). -/
def BusWrite.aligned (b : BusWrite) : Bool :=
  decide ((b.size = 4 ∨ b.size = 8) ∧ b.pa.toNat % b.size = 0) && inWindow b.pa.toNat

/-- A register write whose row is i. -/
def BusWrite.wellFormed (b : BusWrite) (i : Instr) : Bool := b.aligned && decide (decodeBus b = i)

/-- Whether an instruction is well formed; an event of the hardware always is. -/
def Instr.wellFormed : Instr → Bool
  | .registerWrite b => b.wellFormed (.registerWrite b)
  | .dtuLoadWrite b => b.wellFormed (.dtuLoadWrite b)
  | .dtuAdjWrite b => b.wellFormed (.dtuAdjWrite b)
  | .leaseCfgWrite b => b.wellFormed (.leaseCfgWrite b)
  | .shootPage b => b.wellFormed (.shootPage b)
  | .shootAsid b => b.wellFormed (.shootAsid b)
  | .shootAll b => b.wellFormed (.shootAll b)
  | .lqEnq b => b.wellFormed (.lqEnq b)
  | .lqDeq b => b.wellFormed (.lqDeq b)
  | .lqResv b => b.wellFormed (.lqResv b)
  | .lqDone b => b.wellFormed (.lqDone b)
  | .lqInit b => b.wellFormed (.lqInit b)
  | .lqDrain b => b.wellFormed (.lqDrain b)
  | .lqClose b => b.wellFormed (.lqClose b)
  | .lqReopen b => b.wellFormed (.lqReopen b)
  | .lqRepair b => b.wellFormed (.lqRepair b)
  | .lqQuery b => b.wellFormed (.lqQuery b)
  | .mqEnable b => b.wellFormed (.mqEnable b)
  | .mqSkip b => b.wellFormed (.mqSkip b)
  | .mqRetry b => b.wellFormed (.mqRetry b)
  | .mqStop b => b.wellFormed (.mqStop b)
  | .pktNop p => p.isPacket 0
  | .launch p => p.isPacket 1
  | .wait p => p.isPacket 2
  | .pred p => p.isPacket 3
  | .trigger p => p.isPacket 4
  | .signalStore p => p.isSignal 0
  | .signalAdd p => p.isSignal 1
  | .signalEnq p => p.isSignal 2
  | .signalIntr p => p.isSignal 3
  | .adopt b => b.wellFormed (.adopt b)
  | .handback b => b.wellFormed (.handback b)
  | .graphValidate b => b.wellFormed (.graphValidate b)
  | .graphTrigger b => b.wellFormed (.graphTrigger b)
  | .jobCardWrite b => b.wellFormed (.jobCardWrite b)
  | .activate b => b.wellFormed (.activate b)
  | .retire b => b.wellFormed (.retire b)
  | .ddxResume b => b.wellFormed (.ddxResume b)
  | .ddxKill b => b.wellFormed (.ddxKill b)
  | .sluCfgWrite b => b.wellFormed (.sluCfgWrite b)
  | .clauseBegin x => hdrOk x
  | .ovlCmdLoad b => b.wellFormed (.ovlCmdLoad b)
  | .invalCard b => b.wellFormed (.invalCard b)
  | .invalPid b => b.wellFormed (.invalPid b)
  | .iadd w => w.wellFormed 0x000
  | .isub w => w.wellFormed 0x001
  | .imul w => w.wellFormed 0x002
  | .imulhi w => w.wellFormed 0x003
  | .imad w => w.wellFormed 0x004
  | .imin w => w.wellFormed 0x005
  | .imax w => w.wellFormed 0x006
  | .iabs w => w.wellFormed 0x007
  | .ineg w => w.wellFormed 0x008
  | .lea w => w.wellFormed 0x009
  | .icmp w => w.wellFormed 0x00A
  | .sel w => w.wellFormed 0x00B
  | .and w => w.wellFormed 0x020
  | .or w => w.wellFormed 0x021
  | .xor w => w.wellFormed 0x022
  | .not w => w.wellFormed 0x023
  | .shl w => w.wellFormed 0x024
  | .shr w => w.wellFormed 0x025
  | .rot w => w.wellFormed 0x026
  | .bfe w => w.wellFormed 0x027
  | .bfi w => w.wellFormed 0x028
  | .popc w => w.wellFormed 0x029
  | .clz w => w.wellFormed 0x02A
  | .brev w => w.wellFormed 0x02B
  | .fadd w => w.wellFormed 0x040
  | .fsub w => w.wellFormed 0x041
  | .fmul w => w.wellFormed 0x042
  | .ffma w => w.wellFormed 0x043
  | .fmin w => w.wellFormed 0x044
  | .fmax w => w.wellFormed 0x045
  | .fcmp w => w.wellFormed 0x046
  | .fclass w => w.wellFormed 0x047
  | .frcp w => w.wellFormed 0x048
  | .frsq w => w.wellFormed 0x049
  | .fsqrt w => w.wellFormed 0x04A
  | .fexp2 w => w.wellFormed 0x04B
  | .flog2 w => w.wellFormed 0x04C
  | .fsin w => w.wellFormed 0x04D
  | .fcos w => w.wellFormed 0x04E
  | .cvt w => w.wellFormed 0x060
  | .pack w => w.wellFormed 0x061
  | .unpack w => w.wellFormed 0x062
  | .dp4 w => w.wellFormed 0x063
  | .dp8 w => w.wellFormed 0x064
  | .bsel w => w.wellFormed 0x065
  | .mov w => w.wellFormed 0x066
  | .pcomb w => w.wellFormed 0x067
  | .psave w => w.wellFormed 0x068
  | .pload w => w.wellFormed 0x069
  | .qxch w => w.wellFormed 0x080
  | .lpick w => w.wellFormed 0x081
  | .vote w => w.wellFormed 0x082
  | .scan w => w.wellFormed 0x083
  | .red w => w.wellFormed 0x084
  | .lsame w => w.wellFormed 0x085
  | .lfirst w => w.wellFormed 0x086
  | .bra w => w.wellFormed 0x0A0
  | .brx w => w.wellFormed 0x0A1
  | .call w => w.wellFormed 0x0A2
  | .ret w => w.wellFormed 0x0A3
  | .ocall w => w.wellFormed 0x0A4
  | .conv w => w.wellFormed 0x0A5
  | .exit w => w.wellFormed 0x0A6
  | .sleep w => w.wellFormed 0x0A7
  | .waitf w => w.wellFormed 0x0A8
  | .nop w => w.wellFormed 0x0A9
  | .ovld w => w.wellFormed 0x0C0
  | .ovqry w => w.wellFormed 0x0C1
  | .ovrel w => w.wellFormed 0x0C2
  | .rdsr w => w.wellFormed 0x0C3
  | .wrsr w => w.wellFormed 0x0C4
  | .trap w => w.wellFormed 0x0C5
  | .bkpt w => w.wellFormed 0x0C6
  | .svc w => w.wellFormed 0x0C7
  | .ld w => w.wellFormed 0x100
  | .st w => w.wellFormed 0x101
  | .cpa w => w.wellFormed 0x102
  | .atomAdd w => w.wellFormed 0x110
  | .atomMin w => w.wellFormed 0x111
  | .atomMax w => w.wellFormed 0x112
  | .atomAnd w => w.wellFormed 0x113
  | .atomOr w => w.wellFormed 0x114
  | .atomXor w => w.wellFormed 0x115
  | .atomExch w => w.wellFormed 0x116
  | .atomCas w => w.wellFormed 0x117
  | .atomFadd w => w.wellFormed 0x118
  | .fredAdd w => w.wellFormed 0x119
  | .fredMin w => w.wellFormed 0x11A
  | .fredMax w => w.wellFormed 0x11B
  | .fredAnd w => w.wellFormed 0x11C
  | .fredOr w => w.wellFormed 0x11D
  | .fredXor w => w.wellFormed 0x11E
  | .fredFadd w => w.wellFormed 0x11F
  | .fence w => w.wellFormed 0x120
  | .bar w => w.wellFormed 0x121
  | .pbinit w => w.wellFormed 0x122
  | .pbarr w => w.wellFormed 0x123
  | .pbwait w => w.wellFormed 0x124
  | .tbar w => w.wellFormed 0x125
  | .qenq w => w.wellFormed 0x140
  | .qdeq w => w.wellFormed 0x141
  | .qres w => w.wellFormed 0x142
  | .qdone w => w.wellFormed 0x143
  | .qctl w => w.wellFormed 0x144
  | .cres w => w.wellFormed 0x148
  | .cpost w => w.wellFormed 0x149
  | .ordin w => w.wellFormed 0x160
  | .ordout w => w.wellFormed 0x161
  | .knop w => w.wellFormed 0x00
  | .kadd w => w.wellFormed 0x01
  | .ksub w => w.wellFormed 0x02
  | .kmul w => w.wellFormed 0x03
  | .kand w => w.wellFormed 0x04
  | .kor w => w.wellFormed 0x05
  | .kxor w => w.wellFormed 0x06
  | .kshl w => w.wellFormed 0x07
  | .kshr w => w.wellFormed 0x08
  | .ksra w => w.wellFormed 0x09
  | .kmin w => w.wellFormed 0x0A
  | .kmax w => w.wellFormed 0x0B
  | .kpack w => w.wellFormed 0x0F
  | .kaddi w => w.wellFormed 0x0C
  | .kli w => w.wellFormed 0x0D
  | .klis w => w.wellFormed 0x0E
  | .kbeq w => w.wellFormed 0x10
  | .kbne w => w.wellFormed 0x11
  | .kblt w => w.wellFormed 0x12
  | .kbge w => w.wellFormed 0x13
  | .kbltu w => w.wellFormed 0x14
  | .kbgeu w => w.wellFormed 0x15
  | .kjmp w => w.wellFormed 0x16
  | .kloop w => w.wellFormed 0x17
  | .kocall w => w.wellFormed 0x18
  | .kret w => w.wellFormed 0x19
  | .ktime w => w.wellFormed 0x1A
  | .kwch w => w.wellFormed 0x1B
  | .kld w => w.wellFormed 0x1C
  | .tbind w => w.wellFormed 0x20
  | .tunbind w => w.wellFormed 0x21
  | .ldw w => w.wellFormed 0x22
  | .ldr w => w.wellFormed 0x23
  | .lpf w => w.wellFormed 0x24
  | .xmmI8 w => w.wellFormed 0x30
  | .xmmI4 w => w.wellFormed 0x31
  | .xmmBf16 w => w.wellFormed 0x32
  | .xmmFp16 w => w.wellFormed 0x33
  | .xmmbI8 w => w.wellFormed 0x34
  | .xmmbI4 w => w.wellFormed 0x35
  | .vclr w => w.wellFormed 0x40
  | .vmov w => w.wellFormed 0x41
  | .vadd w => w.wellFormed 0x42
  | .vsub w => w.wellFormed 0x43
  | .vmul w => w.wellFormed 0x44
  | .vmax w => w.wellFormed 0x45
  | .vmin w => w.wellFormed 0x46
  | .vscl w => w.wellFormed 0x47
  | .vbadd w => w.wellFormed 0x48
  | .vflclr w => w.wellFormed 0x52
  | .viadd w => w.wellFormed 0x49
  | .viadds w => w.wellFormed 0x4A
  | .vishr w => w.wellFormed 0x4B
  | .vcvti w => w.wellFormed 0x4C
  | .vcvtf w => w.wellFormed 0x4D
  | .vcvth w => w.wellFormed 0x50
  | .vcvtb w => w.wellFormed 0x51
  | .vqnt8 w => w.wellFormed 0x4E
  | .vqnt4 w => w.wellFormed 0x4F
  | .sst w => w.wellFormed 0x60
  | .sredi w => w.wellFormed 0x61
  | .sredf w => w.wellFormed 0x62
  | .sqsig w => w.wellFormed 0x63
  | .tfence w => w.wellFormed 0x70
  | .ttok w => w.wellFormed 0x71
  | .tnop w => w.wellFormed 0x72
  | .ckpt w => w.wellFormed 0x78
  | .tend w => w.wellFormed 0x79
  | .tsync w => w.wellFormed 0x7A
  | .pclr p => p.isCommand 1
  | .pfill p => p.isCommand 2
  | .prsv p => p.isCommand 3
  | .ctxResume b => b.wellFormed (.ctxResume b)
  | .ctxResumeAt b => b.wellFormed (.ctxResumeAt b)
  | .ctxKill b => b.wellFormed (.ctxKill b)
  | .ctxSkip b => b.wellFormed (.ctxSkip b)
  | .govAssign b => b.wellFormed (.govAssign b)
  | .merge b => b.wellFormed (.merge b)
  | .split b => b.wellFormed (.split b)
  | .restartPid b => b.wellFormed (.restartPid b)
  | .restartCtl b => b.wellFormed (.restartCtl b)
  | .govSnapshot b => b.wellFormed (.govSnapshot b)
  | .bootOk b => b.wellFormed (.bootOk b)
  | .restartDevice b => b.wellFormed (.restartDevice b)
  | .govSnapTWrite b => b.wellFormed (.govSnapTWrite b)
  | .powerOnReset => true
  | .bootTmo => true
  | .lockstepMismatch => true
  | .linkRetrainFail => true
  | .thermTrip => true
  | .debugUnlock => true
  | .pcieInboundRead => true
  | .dtuCorrection => true
  | .ppsInEdge => true
  | .ppsOutPulse => true
  | .homeReadFill => true
  | .rdcFill => true
  | .homeStore => true
  | .homeReduction => true
  | .ownerRecallComplete => true
  | .engineLineRelease => true
  | .serviceCoreExclRequest => true
  | .serviceCoreExclGrant => true
  | .shootComplete => true
  | .requestDrop => true
  | .completionArrival => true
  | .streamBurst => true
  | .frameStart => true
  | .frameEnd => true
  | .frameRecordIssue => true
  | .leatEnqueue => true
  | .leatDequeuePlain => true
  | .leatDequeuePacket => true
  | .leatReserve => true
  | .leatDone => true
  | .qctlInit => true
  | .qctlDrain => true
  | .qctlClose => true
  | .qctlReopen => true
  | .qctlRepair => true
  | .qctlQuery => true
  | .publishNotify => true
  | .offerAnswer => true
  | .offerTimeout => true
  | .waiterRemoval => true
  | .waiterReissue => true
  | .releaseEndReeval => true
  | .qpPacketFetch => true
  | .waitNotify => true
  | .waitPoll => true
  | .waitTimeout => true
  | .qpBlockedResume => true
  | .adoptStartThreads => true
  | .handbackResume => true
  | .graphNodeComplete => true
  | .ddxReleaseRequest => true
  | .periodicRelease => true
  | .dispatch => true
  | .preemptSaveComplete => true
  | .cardWorkDone => true
  | .deadlineMiss => true
  | .thermalStep => true
  | .opChangeDone => true
  | .sluiceWindow => true
  | .sluiceOverrunReport => true
  | .teamPlace => true
  | .steal => true
  | .stealRetry => true
  | .contRecordRead => true
  | .binTimeout => true
  | .contWarpPlace => true
  | .teamNodeForward => true
  | .teamBarrierRelease => true
  | .blockBarrierRelease => true
  | .phaseBarrierRecheck => true
  | .longLatencyComplete => true
  | .fenceWaitEnd => true
  | .sleepExpiry => true
  | .visionPreempt => true
  | .ordboundExpiry => true
  | .visionRestore => true
  | .overlayLoadDone => true
  | .overlayLoadFail => true
  | .placeTimeout => true
  | .istoreRefetch => true
  | .tileDispatch => true
  | .wordRetire => true
  | .ckptMeet => true
  | .tileSaveComplete => true
  | .tileRestore => true
  | .ckspanExpiry => true
  | .pceReleaseStart => true
  | .pceCommandComplete => true
  | .pceSpawn => true
  | .spawnedWarpPlace => true
  | .pceStop => true
  | .trapDeliver => true
  | .trapResend => true
  | .snapshotLatch => true
  | .ddxSilence => true
  | .qpHbSample => true
  | .distributorSilence => true
  | .skewReport => true
  | .serviceHbPeriod => true
  | .governorReport => true
  | .ozashLinkDown => true
  | .ozashLinkRetrained => true
  | .flitReplay => true
  | .powerLoss => true
  | .dieTemperatureChange => true
  | .governorWarmRestartDone => true
  | .qpRestartComplete => true
  | .rehomeHorizonReached => true

end Sys2Proof
end

