-- ==== Sys2Proof/Certificates/Slice0/Obligations.lean ====
section
/-! DEFINITION. The statements for the provers. -/

open Sys2Proof Sys2Proof.Machine


/-! ## Decoding, encoding and the step -/

/-- R139, R140, R222, R315: words that the encoding tables and the worked examples write out bit by bit decode to the instructions
they stand for; opcodes that no row assigns decode to nothing. -/
def Obligations.WordDecoding : Prop :=
  decodeVision 0x001C04027FF80000 =
    .ok (.iadd { guard := 7, u := 0, dst := 4, srcA := 4, srcB := 511, srcC := 448, mod := 0 }) ∧
  decodeVision 0x005F0381F0780000 =
    .ok (.isub { guard := 7, u := 1, dst := 259, srcA := 259, srcB := 449, srcC := 448, mod := 0 }) ∧
  decodeVision 0x10C80603FC80C100 =
    .ok (.ffma { guard := 2, u := 0, dst := 6, srcA := 7, srcB := 498, srcC := 6, mod := 0x100 }) ∧
  decodeTile 0x2A8800088000 =
    .ok (.ldw { high := 0, tag := 1, popP := 0, popN := 1, pushP := 0, pushN := 1, rep := 0, step := 0, opa := 0x088, opb := 0 }) ∧
  decodeTile 0x9183F9108000 =
    .ok (.sst { high := 0, tag := 4, popP := 1, popN := 0, pushP := 0, pushN := 0, rep := 127, step := 1, opa := 0x108, opb := 0 }) ∧
  (∀ p : Rec64, p.w0 = 0x0000000700000401 → decodePacket p = .ok (.launch p)) ∧
  decodeVision 0x03C0000000000000 = .error .visionOpcode ∧ decodeTile 0x01FC00000000 = .error .tileOpcode

/-- Decoding and encoding agree: what the encoder gives of a well-formed instruction decodes to it, with every operand; and a vision
word or a tile word that decodes is the one that the encoder gives of what it decodes to, so that no two words are one instruction. -/
def Obligations.DecodeEncode : Prop :=
  (∀ i e, i.wellFormed = true → encode i = some e → decode e = .ok i) ∧
  (∀ v i, decodeVision v = .ok i → encode i = some (.vision v)) ∧
  (∀ v i, decodeTile v = .ok i → encode i = some (.tile v))

/-- A step takes the first turn of the agenda, lets its time pass and runs what its agent fetches: a warp the next word of its clause,
or the header at which the path stands whose clause comes next; a walker the word at its program counter; a thread of a queue
processor the packet in its shadow; a path coverage engine its command; a register write and an event of the hardware themselves.
The word of a warp takes the turn of its partition (R187), and the checker, at its word, forms the commands the engines' are held to
(R321). With no turn left, 1 ns passes (the model's choice: notes/assumptions/4.md). -/
def Obligations.StepRunsDecoded : Prop :=
  (∀ s, s.agenda = [] → step s = .next (idle s)) ∧
  (∀ s x rest b, s.agenda = x :: rest → x.who = .bus b → step s = exec (decodeBus b) (beginTurn s x rest)) ∧
  (∀ s x rest sc a b, s.agenda = x :: rest → x.who = .svcDo sc a → svcBus (beginTurn s x rest) sc a = some b →
    step s = exec (decodeBus b) (beginTurn s x rest)) ∧
  (∀ s x rest i a, s.agenda = x :: rest → x.who = .hw i a → encode i = none → step s = exec i { beginTurn s x rest with ev := a }) ∧
  (∀ s x rest wid w p c o i, s.agenda = x :: rest → x.who = .warp wid →
    let s0 := { beginTurn s x rest with focus := .warp wid }
    let a : OvAddr := { c.at_ with off := c.at_.off + 8 * c.next }
    s0.warps.find wid = some w → w.place = some p → warpGoes s0 w p.1 = true → w.nonHelper ≠ 0 → w.resolving = none →
    (canIssue s0 wid = true → hasTurn s0 wid w p = true) → w.clause = some c →
    tokCurrent s0 p.1 w.card w.gen c.at_.tok = some o → (istore s0 p.1).bad.contains (o.base + a.off / 4096) = false →
    decodeVision (storeWord s0 p.1 a) = .ok i → step s = exec i
      (takeTurn (stampOvl (s0.setWarp wid { w with savedOn := none, ovFirst := none, ovWait := none }) p.1 o) wid p c)) ∧
  (∀ s x rest wid w p o l, s.agenda = x :: rest → x.who = .warp wid →
    let s0 := { beginTurn s x rest with focus := .warp wid }
    let w1 := settle s0 { w with yieldTo := w.yieldTo.filter fun i => canIssue s0 i }
    let s1 := s0.setWarp wid w1
    let a := laneGet zeroAddr w1.pc l
    s0.warps.find wid = some w → w.place = some p → warpGoes s0 w p.1 = true → w.nonHelper ≠ 0 → w.resolving = none →
    (canIssue s0 wid = true → hasTurn s0 wid w p = true) → w.clause = none → w1.yieldTo = [] → nextPath s1 w1 p.1 = some l → (∀ y ∈ w1.susp, laneIn y.clause.lanes l = true → y.ended = false) →
    ¬ (w1.look = true ∧ a.tok = 0) → tokCurrent s1 p.1 w1.card w1.gen a.tok = some o → a.off % 8 = 0 → a.off < 4096 * o.npg →
    a.off < 2 ^ 16 →
    (istore s1 p.1).bad.contains (o.base + a.off / 4096) = false →
    step s = exec (.clauseBegin (storeWord s1 p.1 a)) (s1.setWarp wid { w1 with rot := l, savedOn := none, ovFirst := none, ovWait := none })) ∧
  (∀ s x rest tc e t c w o i, s.agenda = x :: rest → x.who = .walker tc e →
    let s0 := wakeWalker { beginTurn s x rest with focus := .walker tc e } tc e
    s0.tiles.find tc = some t → t.card = some c → t.walkers[e]? = some w → tileGo s0 tc t c w = true →
    fetchStalls s0 tc t = false →
    tokCurrent s0 (tc + 32) c.card c.gen w.pc.tok = some o → w.pc.off < 4096 * o.npg →
    let v := (istore s0 (tc + 32)).bytes.read64 (4096 * o.base + w.pc.off)
    let s1 := setOvl (stamp s0).2 (tc + 32) { o with used := (stamp s0).1 }
    decodeTile v = .ok i →
    step s = exec i (if e = 4 ∧ w.count - minCount t < tileSlip s0 c.card then formHere s1 tc w v else s1)) ∧
  (∀ s x rest d th i, s.agenda = x :: rest → x.who = .qp d th →
    let s0 := { beginTurn s x rest with focus := .qp d th }
    qpRuns s0 d th = true → (thread s0 d th).st = .exec → decodePacket (shadowPkt s0 d th (thread s0 d th).idx) = .ok i →
    step s = exec i s0) ∧
  (∀ s x rest d p r i, s.agenda = x :: rest → x.who = .pce d →
    let s0 := { beginTurn s x rest with focus := .pce d }
    s0.pces.find d = some p → pceGo s0 p = true → p.st = .running → p.cmd = some r → decodeCommand r = .ok i → step s = exec i s0) ∧
  (∀ s x rest d p l s1 i, s.agenda = x :: rest → x.who = .pce d →
    let s0 := { beginTurn s x rest with focus := .pce d }
    let s2 := s0.setPce d { p with cmd := none }
    let hdr := ((s0.ddx.rel.find (pceCard p)).map fun r => r.hdr).getD []
    s0.pces.find d = some p → pceGo s0 p = true → p.st = .command →
    readChecked s2 (pceSpace s2 d (pceCard p)) ((dwz hdr 2).toNat + 64 * p.idx) 8 = (.ok l, s1) →
    decodeCommand (wordsRec l) = .ok i → step s = exec i s1)

/-- No state stops: whatever the instruction, the machine goes on to a next state, a trap being one of them; so does every step. -/
def Obligations.NothingStops : Prop := (∀ i s, ∃ t, exec i s = .next t) ∧ ∀ s, Goes s

/-- R28, R34, R83, R405, R414: right after a power-on reset device time is 0 and has not been loaded, every register holds the value
at reset of its map (where the map gives none, the model's: notes/assumptions/2.md), memory lists nothing and is in canonical form, the
device is held in reset, and no warp, tile program, path command, operation or request exists. -/
def Obligations.ResetState : Prop :=
  (∀ d, d < 4 → State.reset.now d = 0) ∧ (∀ r, State.reset.reg r = regReset r) ∧ StoresOk State.reset ∧
  (∀ a, State.reset.ms.mem.read a = Mem.unlisted) ∧ State.reset.ms.poison = [] ∧ State.reset.ms.reqs = [] ∧
  State.reset.warps = [] ∧ State.reset.tiles = [] ∧ State.reset.pces = [] ∧ State.reset.ops = [] ∧ State.reset.agenda = [] ∧
  State.reset.gov.holdReset = true ∧
  regReset Reg.govPart = 0xE4 ∧ (∀ d p, d < 2 → p < 16 → regReset (Reg.leaseCfg d p) = 16) ∧
  regReset (Reg.ovlMask 0 0) = 0xFFFFFFFFFFFF ∧ regReset (Reg.rdcWaymask 0 0) = 0xFFFF

/-- Every step keeps DRAM in canonical form: addresses rising, and no entry equal to what an unlisted address reads as. -/
def Obligations.StepKeepsStores : Prop := ∀ s t, StoresOk s → step s = .next t → StoresOk t

/-! ## Rules stated whole -/

/-- R266: QXCH exchanges the words of a quad, and its other SUB values raise ENC with detail MOD. -/
def Obligations.QuadExchange : Prop :=
  (∀ s x k, Issues s 0x080 x k → ∃ t, exec (.qxch x) s = .next t ∧
    Wrote s t k 1 (takes k fun l =>
        match x.subX with
        | 0 => l ^^^ 1
        | 1 => l ^^^ 2
        | 2 => l ^^^ 3
        | n => 4 * (l / 4) + (n - 4))
      (deadSource k fun l =>
        match x.subX with
        | 0 => l ^^^ 1
        | 1 => l ^^^ 2
        | 2 => l ^^^ 3
        | n => 4 * (l / 4) + (n - 4))) ∧
  (∀ x n last, (x.subX = 3 ∨ 8 ≤ x.subX) → vGuardOk x = true → vUniformOk 0x080 x = true → vRegOk 0x080 x = true →
    vAllotOk 0x080 x n = true → vEnc 0x080 x n last = some 7) ∧
  (∀ x n last, vEnc 0x080 x n last = none → x.subX ∈ [0, 1, 2, 4, 5, 6, 7])

/-- R310: a walker whose walk count is SLIP or more above that of some walker that has not ended, the checker among them, does not
begin its next word and is in WAIT; the count is of words, and a word is counted when all its repetitions are over. -/
def Obligations.SlipBound : Prop :=
  (∀ (v : DWord) i s tc e t x w, decodeTile v = .ok i → s.focus = .walker tc e → s.tiles.find tc = some t → t.card = some x →
    t.walkers[e]? = some w → tileGo s tc t x w = true → (w.st = .run ∨ w.st = .wait) →
    (∃ y ∈ t.walkers, y.walks = true ∧ y.count + bits (relHdr s x.card 1) 7 0 ≤ w.count) →
    ∃ u, exec i s = .next u ∧ u = { s with tiles := u.tiles } ∧ (∀ j, j ≠ tc → u.tiles.find j = s.tiles.find j) ∧
      u.tiles.find tc = some { t with walkers := setAt t.walkers e { w with st := .wait } }) ∧
  (∀ (w : Walker) pc, (w.finish pc).count = w.count + 1)

/-- R373: the coverage of an area word by rule. -/
def Obligations.CoverageRules : Prop :=
  (∀ a : Int, fillRule 0 a = min (a.natAbs : Int) 65536) ∧ fillRule 0 (-2 ^ 31) = 65536 ∧
  (∀ a u : Int, u = (a.natAbs : Int) % 131072 → fillRule 1 a = if u ≤ 65536 then u else 131072 - u) ∧
  (∀ a : Int, fillRule 2 a = min (max a (-65536)) 65536 ∧ (fillRule 2 a < 0 ↔ a < 0) ∧ (0 < fillRule 2 a ↔ 0 < a))

/-! ## Vision words that write registers or predicates (R238 to R269) -/

/-- R244: an integer word computes each element exactly and narrows it, or clamps it and raises SAT; nothing else changes. -/
def Claims.IntegerWords : Prop :=
  WordWrites .iadd 0x000 1 (fun k l => intOp k.x (fun a b _ => a + b) (k.a l) (k.b l) (k.cc l)) ∧
  WordWrites .isub 0x001 1 (fun k l => intOp k.x (fun a b _ => a - b) (k.a l) (k.b l) (k.cc l)) ∧
  WordWrites .imul 0x002 1 (fun k l => intOp k.x (fun a b _ => a * b) (k.a l) (k.b l) (k.cc l)) ∧
  WordWrites .imulhi 0x003 1 (fun k l => intOp k.x (fun a b _ => a * b / 2 ^ 32) (k.a l) (k.b l) (k.cc l)) ∧
  WordWrites .imad 0x004 1 (fun k l => intOp k.x (fun a b c => a * b + c) (k.a l) (k.b l) (k.cc l)) ∧
  WordWrites .imin 0x005 1 (fun k l => intOp k.x (fun a b _ => min a b) (k.a l) (k.b l) (k.cc l)) ∧
  WordWrites .imax 0x006 1 (fun k l => intOp k.x (fun a b _ => max a b) (k.a l) (k.b l) (k.cc l)) ∧
  WordWrites .iabs 0x007 1 (fun k l => intOp k.x (fun a _ _ => a.natAbs) (k.a l) (k.b l) (k.cc l)) ∧
  WordWrites .ineg 0x008 1 (fun k l => intOp k.x (fun a _ _ => -a) (k.a l) (k.b l) (k.cc l))

/-- R38, R244: every element of an integer result is the exact value of the elements it is made of, narrowed; under SAT it is
clamped to the element's range, and SAT is raised just when some element was clamped. -/
def Claims.PackedElements : Prop :=
  ∀ (x : VWord) (g : Int → Int → Int → Int) (a b c : Word), x.typ ∈ [0, 1, 5, 6, 7] →
    let n := elemBits x.typ
    let exact := fun i => g (elemInt x.typ a i) (elemInt x.typ b i) (elemInt x.typ c i)
    let lo : Int := if x.typ = 1 then 0 else -2 ^ (n - 1)
    let hi : Int := if x.typ = 1 then 2 ^ n - 1 else 2 ^ (n - 1) - 1
    ∃ r fl, intOp x g a b c = ([r], fl) ∧
      (∀ i, i < elemCount x.typ →
        (x.sat = false → (elem x.typ r i : Int) = exact i % 2 ^ n) ∧
        (x.sat = true → elemInt x.typ r i = max lo (min hi (exact i)))) ∧
      (x.sat = false → fl = 0) ∧
      (x.sat = true → fl = if ∃ i, i < elemCount x.typ ∧ (exact i < lo ∨ hi < exact i) then 16 else 0)

/-- R245, R247, R256, R258, R259, R261: the words that move, select and take apart words. -/
def Claims.MovingWords : Prop :=
  WordWrites .lea 0x009 2 (fun k l =>
    let b : DWord := if k.x.sub / 8 % 2 = 1 then (k.b l).signExtend 64 else (k.b l).zeroExtend 64
    let r : DWord := k.a64 l + b <<< (k.x.sub % 8)
    ([r.extractLsb' 0 32, r.extractLsb' 32 32], 0)) ∧
  WordWrites .sel 0x00B 1 (fun k l => ([if k.w.pGet k.x.srcC.toNat l then k.a l else k.b l], 0)) ∧
  WordWrites .mov 0x066 1 (fun k l => ([k.a l], 0)) ∧
  WordWrites .unpack 0x062 1 (fun k l =>
    let e := elem k.x.typ (k.a l) (k.x.sub % 8)
    ([if 8 ≤ k.x.sub then BitVec.ofNat 32 e else BitVec.ofInt 32 (signExt e (elemBits k.x.typ))], 0)) ∧
  WordWrites .bsel 0x065 1 (fun k l => ([bselRes (k.a l) (k.b l) (k.cc l)], 0)) ∧
  WordWrites .psave 0x068 1 (fun k l =>
    ([if k.x.uni then k.w.pMask k.x.srcA.toNat else if k.w.pGet k.x.srcA.toNat l then 1 else 0], 0))

/-- R248: the logic words, shifts and bit fields. A shift by 32 or more gives 0, or 32 copies of the sign. -/
def Claims.LogicWords : Prop :=
  WordWrites .and 0x020 1 (fun k l => ([k.a l &&& k.b l], 0)) ∧
  WordWrites .or 0x021 1 (fun k l => ([k.a l ||| k.b l], 0)) ∧
  WordWrites .xor 0x022 1 (fun k l => ([k.a l ^^^ k.b l], 0)) ∧
  WordWrites .not 0x023 1 (fun k l => ([~~~k.a l], 0)) ∧
  WordWrites .shl 0x024 1 (fun k l => ([k.a l <<< (k.b l).toNat], 0)) ∧
  WordWrites .shr 0x025 1 (fun k l =>
    ([if k.x.typ = 1 then k.a l >>> (k.b l).toNat else (k.a l).sshiftRight (k.b l).toNat], 0)) ∧
  WordWrites .rot 0x026 1 (fun k l => ([(k.a l).rotateLeft (k.b l).toNat], 0)) ∧
  WordWrites .bfe 0x027 1 (fun k l => ([bfeRes k.x.typ (k.a l) (k.b l)], 0)) ∧
  WordWrites .bfi 0x028 1 (fun k l => ([bfiRes (k.a l) (k.b l) (k.cc l)], 0)) ∧
  WordWrites .popc 0x029 1 (fun k l => ([BitVec.ofNat 32 ((List.range 32).countP fun i => (k.a l).getLsbD i)], 0)) ∧
  WordWrites .clz 0x02A 1 (fun k l => ([(k.a l).clz], 0)) ∧
  WordWrites .brev 0x02B 1 (fun k l => ([(k.a l).reverse], 0))

/-- R249 to R251: the floating-point words of two and three sources. -/
def Claims.FloatWords : Prop :=
  WordWrites .fadd 0x040 1 (fpWord fun f m a b _ => f.add m a b) ∧
  WordWrites .fsub 0x041 1 (fpWord fun f m a b _ => f.add m a (f.neg true b)) ∧
  WordWrites .fmul 0x042 1 (fpWord fun f m a b _ => f.mul m a b) ∧
  WordWrites .ffma 0x043 1 (fpWord fun f m a b c => f.fma m a b c) ∧
  WordWrites .fmin 0x044 1 (fpWord fun f _ a b _ => f.minMax false a b) ∧
  WordWrites .fmax 0x045 1 (fpWord fun f _ a b _ => f.minMax true a b)

/-- R252, R253: classification, and the approximations of one source. -/
def Claims.FloatFunctions : Prop :=
  WordWrites .fclass 0x047 1 (fpWord1 fun _ a => (fclass a, 0)) ∧
  WordWrites .frcp 0x048 1 (fpWord1 fun _ a => frcp a) ∧
  WordWrites .frsq 0x049 1 (fpWord1 fun _ a => frsq a) ∧
  WordWrites .fsqrt 0x04A 1 (fpWord1 fsqrt) ∧
  WordWrites .fexp2 0x04B 1 (fpWord1 fun _ a => fexp2 a) ∧
  WordWrites .flog2 0x04C 1 (fpWord1 fun _ a => flog2 a) ∧
  WordWrites .fsin 0x04D 1 (fpWord1 fun _ a => fsincos false a) ∧
  WordWrites .fcos 0x04E 1 (fpWord1 fun _ a => fsincos true a)

/-- R254, R255, R257: conversions, packing and dot products. A CVT from SX16 that meets a code with E = 255 in an active lane
traps SCALE_INV and writes nothing. -/
def Claims.ConvertWords : Prop :=
  (∀ s x k, Issues s 0x060 x k → cvtBadLane k = none →
    ∃ t, exec (.cvt x) s = .next t ∧ Wrote s t k 1 (fun l => ([(cvtRes x (k.a l) (k.b l)).1], (cvtRes x (k.a l) (k.b l)).2)) false) ∧
  (∀ s x k l, Issues s 0x060 x k → cvtBadLane k = some l →
    exec (.cvt x) s = .next (trapWarp s k.wid { code := 0x19, detail := 0, lane := l } k.exec)) ∧
  WordWrites .pack 0x061 1 (fun k l => ([(packRes k.x (k.a l) (k.b l)).1], (packRes k.x (k.a l) (k.b l)).2)) ∧
  WordWrites .dp4 0x063 1 (fun k l => dotRes k.x 8 (k.a l) (k.b l) (k.cc l)) ∧
  WordWrites .dp8 0x064 1 (fun k l => dotRes k.x 4 (k.a l) (k.b l) (k.cc l))

/-- R246, R250, R260, R261: the words that write a predicate. -/
def Claims.PredicateWords : Prop :=
  WordTests .icmp 0x00A (fun k l =>
    let a := elemInt k.x.typ (k.a l) 0
    let b := elemInt k.x.typ (k.b l) 0
    (match k.x.sub with
     | 0 => a = b
     | 1 => a ≠ b
     | 2 => a < b
     | 3 => a ≤ b
     | 4 => b < a
     | _ => b ≤ a, 0)) ∧
  WordTests .fcmp 0x046 (fun k l => fcmp k.x.sub (fpA k.x (k.a l) 0) (fpB k.x (k.b l) 0)) ∧
  WordTests .pcomb 0x067 (fun k l =>
    (k.x.sub.testBit (2 * (k.w.pGet k.x.srcA.toNat l).toNat + (k.w.pGet k.x.srcB.toNat l).toNat), 0)) ∧
  (∀ s x k, Issues s 0x069 x k → x.uni = false →
    ∃ t, exec (.pload x) s = .next t ∧ WrotePred s t k fun l => (decide (k.a l ≠ 0), 0)) ∧
  (∀ s x k, Issues s 0x069 x k → x.uni = true → ∃ t w, exec (.pload x) s = .next t ∧ OnlyWarp s t k.wid ∧
    t.warps.find k.wid = some w ∧ Advanced k w ∧
    (∀ n, w.pMask n = if n = x.dst.toNat ∧ k.performs then k.a 0 else k.w.pMask n) ∧
    w = { k.w with p := w.p, clause := w.clause, pc := w.pc, yieldTo := w.yieldTo })

/-- R262 to R269: the words that combine lanes. LPICK takes its own value where the source lane is not valid, and notes a
dead source in sr.deadsrc. -/
def Claims.CollectiveWords : Prop :=
  (∀ s x k, Issues s 0x081 x k → ∃ t, exec (.lpick x) s = .next t ∧
    Wrote s t k 1 (takes k fun l => lpickSrc x.subX x.width l (k.b l).toNat)
      (deadSource k fun l => lpickSrc x.subX x.width l (k.b l).toNat)) ∧
  (∀ s x k, Issues s 0x082 x k → x.subX = 2 → ∃ t, exec (.vote x) s = .next t ∧
    Wrote s t k 1 (fun l => ([voteMask k l], 0)) false) ∧
  (∀ s x k, Issues s 0x082 x k → x.subX < 2 → ∃ t, exec (.vote x) s = .next t ∧
    WrotePred s t k fun l =>
      (if x.subX = 0 then (x.uni || laneIn k.act l) && decide (∀ i ∈ collective k l, k.w.pGet x.srcA.toNat i)
       else decide (∃ i ∈ collective k l, k.w.pGet x.srcA.toNat i), 0)) ∧
  (∀ s x k, Issues s 0x083 x k → ∃ t, exec (.scan x) s = .next t ∧
    Wrote s t k 1 (fun l =>
      ([(scanChain (x.subX % 8) x.typ k.a ((contributors k x.width l).filter fun i =>
          decide (i < l) || (decide (x.subX < 8) && decide (i = l)))).1],
       (scanChain (x.subX % 8) x.typ k.a (contributors k x.width l)).2)) false) ∧
  (∀ s x k, Issues s 0x084 x k → ∃ t, exec (.red x) s = .next t ∧
    Wrote s t k 1 (fun l =>
      ([(scanChain (x.subX % 8) x.typ k.a (collective k l)).1], (scanChain (x.subX % 8) x.typ k.a (collective k l)).2)) false) ∧
  WordWrites .lsame 0x085 1 (fun k l => ([sameMask k l], 0)) ∧
  (∀ s x k, Issues s 0x086 x k → x.uni = true → ∃ t, exec (.lfirst x) s = .next t ∧
    Wrote s t k 1 (fun _ => ([((lowLane k.act).map k.a).getD 0], 0)) false) ∧
  (∀ s x k, Issues s 0x086 x k → x.uni = false → ∃ t, exec (.lfirst x) s = .next t ∧
    WrotePred s t k fun l => (decide ((contributors k x.width l).head? = some l), 0))

/-- R231, R275, R277: special values are read into a register or a pair; WRSR writes sr.deadsrc or sr.fpflags and waits, with no
effect, while a floating atomic of the warp is in flight; NOP only goes on. -/
def Claims.SpecialRegisterWords : Prop :=
  (∀ s x k, Issues s 0x0C3 x k → ∃ t, exec (.rdsr x) s = .next t ∧
    Wrote s t k (if srnWide x.srn then 2 else 1) (fun l =>
      (if x.uni then
         (if srnLane x.srn then ((lowLane k.act).map (specialWords s k x.srn)).getD [0] else specialWords s k x.srn 0)
       else specialWords s k x.srn l, 0)) false) ∧
  (∀ s x k, Issues s 0x0C4 x k → (x.srn = 0x15 → faddPending s k.wid = false) →
    ∃ t w, exec (.wrsr x) s = .next t ∧ OnlyWarp s t k.wid ∧ t.warps.find k.wid = some w ∧ Advanced k w ∧
      w.deadsrc = (if k.performs ∧ x.srn = 0x14 then laneIn (k.a 0) 0 else k.w.deadsrc) ∧
      w.fpflags = (if k.performs ∧ x.srn = 0x15 then (k.a 0).toNat % 32 else k.w.fpflags) ∧
      w = { k.w with deadsrc := w.deadsrc, fpflags := w.fpflags, clause := w.clause, pc := w.pc, yieldTo := w.yieldTo }) ∧
  (∀ s x k, Issues s 0x0C4 x k → x.srn = 0x15 → faddPending s k.wid = true → exec (.wrsr x) s = .next s) ∧
  (∀ s x k, Issues s 0x0A9 x k →
    ∃ t w, exec (.nop x) s = .next t ∧ OnlyWarp s t k.wid ∧ t.warps.find k.wid = some w ∧ Advanced k w ∧
      w = { k.w with clause := w.clause, pc := w.pc, yieldTo := w.yieldTo })

/-! ## Control words of the vision array (R270 to R278) -/

/-- R271: BRA, BRX, CALL, RET and OCALL move the lanes that perform them to their targets, link and count the call depth, and let
the rest of the path go on, when every target is the address of an overlay in the store. -/
def Claims.TransferWords : Prop :=
  (∀ s x k b, Issues s 0x0A0 x k →
    (∀ l, l < 32 → laneIn k.exec l → Lands s k { tok := k.c.at_.tok, off := 8 * x.mod.toNat } (b l)) →
    ∃ t, exec (.bra x) s = .next t ∧ Jumped s t k b (fun d => d) false) ∧
  (∀ s x k b, Issues s 0x0A1 x k →
    (∀ l, l < 32 → laneIn k.exec l →
      (k.a l).toNat < 2 ^ 16 ∧ Lands s k { tok := k.c.at_.tok, off := (k.a l).toNat } (b l)) →
    ∃ t, exec (.brx x) s = .next t ∧ Jumped s t k b (fun d => d) false) ∧
  (∀ s x k b, Issues s 0x0A2 x k →
    (∀ l, l < 32 → laneIn k.exec l →
      k.w.depth.getD l 0 < 255 ∧ Lands s k { tok := k.c.at_.tok, off := 8 * x.mod.toNat } (b l)) →
    ∃ t, exec (.call x) s = .next t ∧ Jumped s t k b (fun d => d + 1) true) ∧
  (∀ s x k b, Issues s 0x0A3 x k →
    (∀ l, l < 32 → laneIn k.exec l → 0 < k.w.depth.getD l 0 ∧ k.w.depth.getD l 0 ≤ 255 ∧ Lands s k (ovAddr (k.a64 l)) (b l)) →
    ∃ t, exec (.ret x) s = .next t ∧ Jumped s t k b (fun d => d - 1) false) ∧
  (∀ s x k b, Issues s 0x0A4 x k → x.dst.toNat ≠ 448 →
    (∀ l, l < 32 → laneIn k.exec l → k.w.depth.getD l 0 < 255 ∧ Lands s k (ovAddr (k.a64 l)) (b l)) →
    ∃ t, exec (.ocall x) s = .next t ∧ Jumped s t k b (fun d => d + 1) true) ∧
  (∀ s x k b, Issues s 0x0A4 x k → x.dst.toNat = 448 →
    (∀ l, l < 32 → laneIn k.exec l → Lands s k (ovAddr (k.a64 l)) (b l)) →
    ∃ t, exec (.ocall x) s = .next t ∧ Jumped s t k b (fun d => d) false)

/-- R271: a CALL at depth 255 and a RET at depth 0 trap TRAPI of group DEPTH with detail 0 and 1, naming the lowest such lane; no lane moves. -/
def Claims.CallDepthTraps : Prop :=
  (∀ s x k l, Issues s 0x0A2 x k → (lanesOf k.exec).find? (fun i => decide (k.w.depth.getD i 0 = 255)) = some l →
    exec (.call x) s = .next (trapWarp s k.wid { code := 0x16, detail := 2 ^ 31, lane := l } k.exec)) ∧
  (∀ s x k l, Issues s 0x0A3 x k → (lanesOf k.exec).find? (fun i => decide (k.w.depth.getD i 0 = 0)) = some l →
    exec (.ret x) s = .next (trapWarp s k.wid { code := 0x16, detail := 2 ^ 31 + 1, lane := l } k.exec))

/-- R272, R274, R294, R297: the words at which lanes stand. CONV goes on at once when every live lane of its mask is there, WAITF
when the flags it names are clear; SLEEP of 0 goes on. -/
def Claims.WaitingWords : Prop :=
  (∀ s x k j, Issues s 0x0A5 x k → j < 32 → laneIn (k.a 0) j → k.w.isLive j → laneIn k.exec j = false →
    (∀ m, laneGet .none k.w.wait j ≠ .conv m) →
    ∃ t, exec (.conv x) s = .next t ∧ Stood s t k k.exec (.conv (k.a 0))) ∧
  (∀ s x k, Issues s 0x0A5 x k → (∀ j, j < 32 → laneIn (k.a 0) j → k.w.isLive j → laneIn k.exec j) →
    (∀ i j, laneIn k.exec i → laneIn k.exec j → k.w.depth.getD i 0 = k.w.depth.getD j 0) →
    ∃ t, exec (.conv x) s = .next t ∧ WentOn s t k k.exec) ∧
  (∀ s x k, Issues s 0x0A7 x k → (k.a 0).toNat ≠ 0 →
    ∃ t, exec (.sleep x) s = .next t ∧ Stood s t k k.exec (.sleep (s.now (coreDie k.core) + (k.a 0).toNat))) ∧
  (∀ s x k, Issues s 0x0A7 x k → (k.a 0).toNat = 0 →
    ∃ t w, exec (.sleep x) s = .next t ∧ OnlyWarp s t k.wid ∧ t.warps.find k.wid = some w ∧ Advanced k w ∧
      w = { k.w with clause := w.clause, pc := w.pc, yieldTo := w.yieldTo }) ∧
  (∀ s x k, Issues s 0x0A8 x k → k.w.flagsClear ((k.a 0).toNat % 2 ^ 12) = true →
    ∃ t, exec (.waitf x) s = .next t ∧ WentOn s t k k.exec ∧
      ∀ w n, t.warps.find k.wid = some w → n < 12 → (k.a 0).toNat.testBit n → k.exec ≠ 0 →
        (k.w.flags.getD n (0, 0)).2 ≤ w.ch) ∧
  (∀ s x k, Issues s 0x0A8 x k → k.w.flagsClear ((k.a 0).toNat % 2 ^ 12) = false →
    ∃ t, exec (.waitf x) s = .next t ∧ Stood s t k k.exec (.waitf ((k.a 0).toNat % 2 ^ 12))) ∧
  (∀ s x k, Issues s 0x121 x k → ∃ t, exec (.bar x) s = .next t ∧ Stood s t k k.exec .bar) ∧
  (∀ s x k, Issues s 0x125 x k →
    (k.act ≠ 0 → ((warpTeam s k.w).map fun p => p.2.phase).getD 0 = (k.a 0).toNat % 65536) →
    ∃ t, exec (.tbar x) s = .next t ∧ Stood s t k k.exec .tbar)

/-- R273: EXIT ends the lanes that perform it; the others go on, and executors that wait for a placement on the core try again (R207); a warp with no lane left that is drained and whose flags are clear
retires. -/
def Claims.ExitWord : Prop :=
  (∀ s x k, Issues s 0x0A6 x k → k.w.nonHelper &&& ~~~k.exec ≠ 0 →
    ∃ t w, exec (.exit x) s = .next (retryPlaces t k.core) ∧ t = { s with warps := t.warps, ist := t.ist } ∧
      t.warps.find k.wid = some w ∧ Advanced k w ∧ w.exited = k.w.exited ||| k.exec ∧
      w = { k.w with exited := w.exited, clause := w.clause, pc := w.pc, yieldTo := w.yieldTo }) ∧
  (∀ s x k, Issues s 0x0A6 x k → k.w.nonHelper &&& ~~~k.exec = 0 → k.w.held = false → k.w.flagsClear 0xFFF = true →
    (∀ q ∈ s.ms.reqs, q.agent ≠ .warp k.wid) → (∀ e ∈ s.ops, e.2.wid ≠ k.wid) →
    ∃ t, exec (.exit x) s = .next t ∧ t.warps.find k.wid = none ∧ t.ms.mem = s.ms.mem)

/-- R278: TRAP, BKPT and SVC trap the warp and name the active lanes; with no active lane the path goes on. -/
def Claims.TrapWords : Prop :=
  (∀ s x k l, lowLane k.act = some l →
    (Issues s 0x0C5 x k → exec (.trap x) s =
      .next (trapWarp s k.wid { code := 0x16, detail := (k.a 0).toNat % 2 ^ 16, lane := l } k.act)) ∧
    (Issues s 0x0C6 x k → exec (.bkpt x) s =
      .next (trapWarp s k.wid { code := 0x17, detail := (k.a 0).toNat % 2 ^ 16, lane := l } k.act)) ∧
    (Issues s 0x0C7 x k → exec (.svc x) s =
      .next (trapWarp s k.wid { code := 0x16, detail := 2 ^ 30 + (k.a 0).toNat % 2 ^ 16, lane := l } k.act))) ∧
  (∀ s x k, k.act = 0 → ∀ e ∈ ([(.trap, 0x0C5), (.bkpt, 0x0C6), (.svc, 0x0C7)] : List ((VWord → Instr) × Nat)), Issues s e.2 x k →
    ∃ t w, exec (e.1 x) s = .next t ∧ OnlyWarp s t k.wid ∧ t.warps.find k.wid = some w ∧ Advanced k w ∧
      w = { k.w with clause := w.clause, pc := w.pc, yieldTo := w.yieldTo })

/-- R220, R398, R399: a trap of a warp stops it in TRAPPED with its place, registers and clause kept, and queues one record that
names its card, generation, code, detail, address, lanes, time and the word at which it stands; nothing else changes. -/
def Claims.WarpTrapEntry : Prop :=
  ∀ s wid w c lanes, s.warps.find wid = some w →
    ∃ t r, trapWarp s wid c lanes = t ∧ t = { s with warps := t.warps, ddx := t.ddx } ∧
      t.warps.find wid = some { w with st := .trapped, trap := some c } ∧
      (∀ i, i ≠ wid → t.warps.find i = s.warps.find i) ∧
      t.ddx = { s.ddx with recs := s.ddx.recs ++ [r] } ∧
      r.code = c.code ∧ r.detail = c.detail ∧ r.addr = c.addr ∧ r.lane = c.lane ∧ r.lanes = lanes.toNat ∧
      r.notice = false ∧ r.src = 0 ∧ r.card = w.card ∧ r.gen = w.gen ∧ r.pid = cardPid s w.card ∧ r.core = warpCore w ∧
      r.time = s.now (coreDie (warpCore w)) ∧
      (∀ k, w.clause = some k → r.pc = k.at_.tok.toNat * 2 ^ 32 + (k.at_.off + 8 * k.next) ∧
        r.next = k.at_.tok.toNat * 2 ^ 32 + (k.at_.off + 8 * (hdrLen k.hdr + 1)) ∧ r.done = k.doneLanes.toNat)

/-- R220, R233: a word that fails a check of R233 raises ENC with the detail of the first check it fails, and has no effect. -/
def Claims.IllegalWordsTrap : Prop :=
  ∀ (v : DWord) (i : Instr) (s : State) (wid : Nat) (w : Warp) (p : Nat × Nat) (c : Clause) (d : Nat),
    decodeVision v = .ok i → s.focus = .warp wid → s.warps.find wid = some w → w.place = some p → w.clause = some c →
    w.st = .ready → w.hold = none →
    vEnc (vOpcode v) (vFieldsOf v) (allot w) (decide (c.next = hdrLen c.hdr)) = some d →
    exec i s = .next (trapWarp s wid { code := 0x01, detail := d } (c.lanes &&& w.liveMask &&& guardMask w (vFieldsOf v)))

/-- R276: an OVREL drops the overlay it names for the warp's card, at once or when it is unpinned, but leaves one that is LOADING; then
executors that wait for a placement try again. OVLD and OVQRY issue a
long-latency operation with the answer of the explicit load, or of the table and the store. -/
def Claims.OverlayWords : Prop :=
  (∀ s x k, Issues s 0x0C2 x k → k.performs = true →
    ∃ t, exec (.ovrel x) s = .next t ∧ t = { s with warps := t.warps, ist := t.ist, regs := t.regs, ms := t.ms } ∧
      t.ms = { s.ms with stamp := t.ms.stamp } ∧
      (∀ pa, pa ≠ Reg.ovlCnt k.core → Tbl.find t.regs pa = Tbl.find s.regs pa) ∧
      (ovWaiters s k.core = [] → t = { s with warps := t.warps, ist := t.ist }) ∧
      (∀ o ∈ (istore t k.core).ovls, o.card = k.w.card → o.gen = k.w.gen → o.ovid = (k.a 0).toNat % 2 ^ 12 →
        o.st = .loading ∨ o.doomed = true) ∧
      ∃ w, t.warps.find k.wid = some w ∧ Advanced k w) ∧
  (∀ s x k st tok s2, Issues s 0x0C0 x k → k.performs = true →
    let i := issueOp s k (.ovld k.core (k.b 0).toNat) [] []
    explicitLoad i.2 k.core k.w.card ((k.a 0).toNat % 2 ^ 12) (k.b 0).toNat (some i.1) false = (.now st tok, s2) →
    exec (.ovld x) s = .next (vDoneHere (finishOps s2 [i.1] tok st) k)) ∧
  (∀ s x k b s2, Issues s 0x0C0 x k → k.performs = true →
    let i := issueOp s k (.ovld k.core (k.b 0).toNat) [] []
    explicitLoad i.2 k.core k.w.card ((k.a 0).toNat % 2 ^ 12) (k.b 0).toNat (some i.1) false = (.later b, s2) →
    exec (.ovld x) s = .next (vDoneHere s2 k)) ∧
  (∀ s x k e s1, Issues s 0x0C1 x k → k.performs = true →
    ovEntry s k.core k.w.card ((k.a 0).toNat % 2 ^ 12) = (e, s1) → e ≠ .wait →
    ∃ t o, exec (.ovqry x) s = .next t ∧ t.ops.find s1.next = some o ∧ o.kind = .ovqry ∧ o.wid = k.wid ∧
      o.dst = dstRef x.dst.toNat ∧ o.flag = k.c.flag x.fs ∧
      o.result = ovqryRes s1 k.core k.w.card k.w.gen ((k.a 0).toNat % 2 ^ 12) e) ∧
  (∀ s x k, k.performs = false → ∀ e ∈ ([(.ovld, 0x0C0), (.ovqry, 0x0C1), (.ovrel, 0x0C2)] : List ((VWord → Instr) × Nat)),
    Issues s e.2 x k → ∃ t w, exec (e.1 x) s = .next t ∧ OnlyWarp s t k.wid ∧ t.warps.find k.wid = some w ∧ Advanced k w ∧
      w = { k.w with clause := w.clause, pc := w.pc, yieldTo := w.yieldTo })

/-- R215 to R218: a clause begins at a path's header. A malformed header raises ENC, a clause that leaves its overlay OVTOK,
and an uncorrectable error in a flag waited for ECC (R190); a header whose wait mask names a flag that is not clear does nothing; else the path enters the clause at its first word, and the
horizons of the flags waited for join the warp's. -/
def Claims.ClauseBegins : Prop :=
  ∀ s h wid w p, s.focus = .warp wid → s.warps.find wid = some w → w.place = some p → w.st = .ready → w.hold = none →
    w.clause = none → w.isLive w.rot = true →
    let a := laneGet zeroAddr w.pc w.rot
    (hdrOk h = false → exec (.clauseBegin h) s = .next (trapWarp s wid { code := 0x01, detail := 1 } (w.pathOf w.rot))) ∧
    (hdrOk h = true → clauseFits s p.1 w a (hdrLen h) = false →
      exec (.clauseBegin h) s = .next (trapWarp s wid { code := 0x0A, detail := 2 } (w.pathOf w.rot))) ∧
    (hdrOk h = true → clauseFits s p.1 w a (hdrLen h) = true → w.badFlags (hdrWait h) = true →
      exec (.clauseBegin h) s = .next (trapWarp s wid { code := 0x10, detail := 0 } (w.pathOf w.rot))) ∧
    (hdrOk h = true → clauseFits s p.1 w a (hdrLen h) = true → w.badFlags (hdrWait h) = false →
      w.flagsClear (hdrWait h) = false → exec (.clauseBegin h) s = .next s) ∧
    (hdrOk h = true → clauseFits s p.1 w a (hdrLen h) = true → w.badFlags (hdrWait h) = false →
      w.flagsClear (hdrWait h) = true →
      ∃ t w', exec (.clauseBegin h) s = .next t ∧ t = { s with warps := t.warps, ist := t.ist, ms := t.ms } ∧
        t.ms = { s.ms with stamp := t.ms.stamp } ∧
        t.warps.find wid = some w' ∧ (∀ i, i ≠ wid → t.warps.find i = s.warps.find i) ∧
        w'.clause = some { at_ := a, hdr := h, next := 1, lanes := w.pathOf w.rot, doneLanes := 0 } ∧
        (∀ n, n < 12 → w'.flags.getD n (0, 0) =
          if (hdrWait h).testBit n then ((w.flags.getD n (0, 0)).1, 0) else w.flags.getD n (0, 0)) ∧
        (∀ n, n < 12 → (hdrWait h).testBit n → (w.flags.getD n (0, 0)).2 ≤ w'.ch) ∧ w.ch ≤ w'.ch ∧
        w' = { w with clause := w'.clause, flags := w'.flags, ch := w'.ch, entry := false })

/-! ## Memory and synchronization words of the vision array (R279 to R303, R391 to R393) -/

/-- R279: the checks of one lane's address in their order: alignment, then the scratchpad's bound; a scratchpad address that passes
is the offset itself, and a global one is translated. -/
def Claims.LaneAddressChecks : Prop :=
  ∀ s k spm need size code a va l,
    (va % need ≠ 0 → laneCheck s k spm need size code a va l =
      (.trap { code := 0x03, detail := code, addr := if spm then 0 else va, lane := l }, s)) ∧
    (va % need = 0 → spm = true → spmSize s k.w < va + size → laneCheck s k spm need size code a va l =
      (.trap { code := 0x06, detail := va, lane := l }, s)) ∧
    (va % need = 0 → spm = true → va + size ≤ spmSize s k.w → laneCheck s k spm need size code a va l =
      (.ok [{ lane := l, pa := va, va := va, zero := false }], s)) ∧
    (va % need = 0 → spm = false → ∀ pa s1, translate s (cSpace s k) va a = (.ok pa, s1) →
      laneCheck s k spm need size code a va l = (.ok [{ lane := l, pa := pa, va := va, zero := false }], s1))

/-- R281, R282, R284: a load whose addresses pass their checks issues one long-latency operation that writes DST when it completes;
a scratchpad value is fixed at issue. Memory, the scratchpad and every register but the scratchpad counters stay. -/
def Claims.LoadWord : Prop :=
  ∀ s x k, Issues s 0x100 x k →
    (x.uni = true → k.performs = false → ∃ t w, exec (.ld x) s = .next t ∧ OnlyWarp s t k.wid ∧
      t.warps.find k.wid = some w ∧ Advanced k w ∧
      w = { k.w with clause := w.clause, pc := w.pc, yieldTo := w.yieldTo }) ∧
    ((x.uni = true → k.performs = true) →
      let spm := decide (x.space = 1)
      let chk := laneAddrs s k spm (if spm then min (2 ^ x.size) 4 else 2 ^ x.size) (2 ^ x.size) x.size .read (!x.uni)
        (fun l => if spm then (k.a l + k.b l).toNat else (k.a64 l + (k.b l).signExtend 64).toNat)
        (if x.uni then [0] else lanesOf k.exec)
      (∀ c s1, chk = (.trap c, s1) → exec (.ld x) s = .next (trapWarp s1 k.wid c k.exec)) ∧
      (∀ ls s1, chk = (.ok ls, s1) → ∃ t, exec (.ld x) s = .next t ∧
        LongIssued s1 t k (.load spm (2 ^ x.size) x.sx x.uni (decide (x.ord = 1))) ls ∧
        t = { s1 with ops := t.ops, warps := t.warps, next := t.next, ms := t.ms, regs := t.regs } ∧
        t.ms.mem = s1.ms.mem ∧ t.ms.poison = s1.ms.poison ∧ (spm = false → t.regs = s1.regs) ∧
        (∀ pa, (∀ c, pa ≠ Reg.spmWords c ∧ pa ≠ Reg.spmPasses c) → Tbl.find t.regs pa = Tbl.find s1.regs pa) ∧
        (spm = true → ∀ b o, warpBlock s k.w = some b → t.ops.find s1.next = some o → ∀ e ∈ ls, e.zero = false →
          (o.got.find e.lane).map (fun (d : Sec) => (d.data, d.poison)) =
            some (b.mem.readN e.pa (2 ^ x.size), spmPoisoned b e.pa (2 ^ x.size)))))

/-- R283, R284: a store to the scratchpad writes each active lane's bytes, in ascending lane order, and no other byte. -/
def Claims.ScratchpadStore : Prop :=
  ∀ s x k b (ls : List LaneAcc) s1, Issues s 0x101 x k → x.space = 1 → (x.uni = true → k.performs = true) → warpBlock s k.w = some b →
    laneAddrs s k true (min (2 ^ x.size) 4) (2 ^ x.size) x.size .write false (fun l => (k.a l + k.b l).toNat)
      (if x.uni then [0] else lanesOf k.act) = (.ok ls, s1) →
    ∃ t b', exec (.st x) s = .next t ∧ t.ddx = { s1.ddx with blocks := s1.ddx.blocks.set k.w.block b' } ∧
      t = { s1 with warps := t.warps, ddx := t.ddx, regs := t.regs } ∧
      (∀ pa, (∀ c, pa ≠ Reg.spmWords c ∧ pa ≠ Reg.spmPasses c) → Tbl.find t.regs pa = Tbl.find s1.regs pa) ∧
      b' = { b with mem := b'.mem, poison := b'.poison } ∧
      (∀ a, (∀ e ∈ ls, ¬ (e.pa ≤ a ∧ a < e.pa + 2 ^ x.size)) → b'.mem.read a = b.mem.read a) ∧
      (∀ (i : Nat) (e : LaneAcc) (j : Nat), ls[i]? = some e → j < 2 ^ x.size →
        (∀ (i' : Nat) (e' : LaneAcc), i < i' → ls[i']? = some e' → ¬ (e'.pa ≤ e.pa + j ∧ e.pa + j < e'.pa + 2 ^ x.size)) →
        b'.mem.read (e.pa + j) = (storeData k x.srcC.toNat e.lane (2 ^ x.size)).getD j 0) ∧
      ∃ w, t.warps.find k.wid = some w ∧ Advanced k w ∧ w = { k.w with clause := w.clause, pc := w.pc, yieldTo := w.yieldTo }

/-- R283, R284, R97: a store to global memory, its release fence complete, puts one request a sector on its way to the homes, holding
the bytes of the active lanes; no byte of memory changes at its issue. -/
def Claims.GlobalStore : Prop :=
  ∀ s x k ls s1, Issues s 0x101 x k → x.space ≠ 1 → (x.uni = true → k.performs = true) →
    (x.ord = 2 → fenceDone s k.wid k.w x.scope s.next = true) →
    laneAddrs s k false (2 ^ x.size) (2 ^ x.size) x.size .write false (fun l => (k.a64 l + (k.b l).signExtend 64).toNat)
      (if x.uni then [0] else lanesOf k.act) = (.ok ls, s1) →
    let bs := ls.flatMap fun (e : LaneAcc) => bytesAt e.pa (storeData k x.srcC.toNat e.lane (2 ^ x.size))
    ∃ t, exec (.st x) s = .next t ∧ t = { s1 with warps := t.warps, ms := t.ms, next := t.next } ∧
      (∀ a, t.ms.mem.read a = s1.ms.mem.read a) ∧ t.ms.poison = s1.ms.poison ∧
      (∀ e ∈ bs, ∃ q ∈ t.ms.reqs, q.agent = .warp k.wid ∧ q.sec = e.1 / 64 ∧
        q.kind = .store (bs.filter fun b => decide (b.1 / 64 = e.1 / 64))) ∧
      (∀ q ∈ t.ms.reqs, q ∈ s1.ms.reqs ∨ (q.agent = .warp k.wid ∧ ∃ e ∈ bs, q.sec = e.1 / 64)) ∧
      (∀ q ∈ s1.ms.reqs, q ∈ t.ms.reqs) ∧
      ∃ w, t.warps.find k.wid = some w ∧ Advanced k w ∧ w = { k.w with clause := w.clause, pc := w.pc, yieldTo := w.yieldTo }

/-- R290, R291: an atomic, its release fence complete, issues a long-latency operation that keeps each lane's operands; a global one
changes no byte at its issue. A reduction puts one request a lane on its way, in ascending lane order, and changes no register. -/
def Claims.AtomicWords : Prop :=
  (∀ e ∈ atomWords, ∀ s x k ls s1, Issues s e.2.1 x k →
    (2 ≤ x.ord → fenceDone s k.wid k.w x.scope s.next = true) →
    let spm := decide (x.space = 1)
    laneAddrs s k spm (2 ^ x.size) (2 ^ x.size) x.size .rw false
      (fun l => if spm then (k.a l).toNat else (k.a64 l).toNat) (lanesOf k.act) = (.ok ls, s1) →
    ∃ t, exec (e.1 x) s = .next t ∧
      LongIssued s1 t k (.atom e.2.2 spm (2 ^ x.size) x.sx (decide (x.ord = 1 ∨ x.ord = 3))
          ((List.range 32).map (laneOperand k x.srcB.toNat)) ((List.range 32).map (laneOperand k x.srcC.toNat)))
        (ls ++ (lanesOf (k.exec &&& k.w.helper)).map fun i => { lane := i, pa := 0, va := 0, zero := true }) ∧
      t.ms = s1.ms ∧ (spm = false → t.ddx = s1.ddx)) ∧
  (∀ e ∈ fredWords, ∀ s x k ls s1, Issues s e.2.1 x k →
    (x.ord = 2 → fenceDone s k.wid k.w x.scope s.next = true) →
    laneAddrs s k false (2 ^ x.size) (2 ^ x.size) x.size .write false (fun l => (k.a64 l).toNat) (lanesOf k.act) = (.ok ls, s1) →
    ∃ t qs, exec (e.1 x) s = .next t ∧ t = { s1 with warps := t.warps, ms := t.ms, next := t.next } ∧
      (∀ a, t.ms.mem.read a = s1.ms.mem.read a) ∧ t.ms.reqs = s1.ms.reqs ++ qs ∧
      qs.map (fun q => (q.agent, q.sec, q.kind)) = ls.map (fun (l : LaneAcc) =>
        (.warp k.wid, secOf l.pa, .red e.2.2 x.sx (2 ^ x.size) l.pa (laneOperand k x.srcB.toNat l.lane))) ∧
      ∃ w, t.warps.find k.wid = some w ∧ Advanced k w ∧ w = { k.w with clause := w.clause, pc := w.pc, yieldTo := w.yieldTo })

/-- R288, R292: CPA issues a long-latency copy of 16 bytes a lane; a FENCE that is complete goes on, and .sc sets the fresh time;
one that is not leaves its path waiting at the word, remembered with its scope. -/
def Claims.CopyAndFence : Prop :=
  (∀ s x k ls s1 ms s2, Issues s 0x102 x k →
    laneAddrs s k false 16 16 4 (if x.space = 1 then .read else .write) false (fun l => (k.a64 l).toNat) (lanesOf k.act) = (.ok ls, s1) →
    laneAddrs s1 k true 16 16 4 .read false (fun l => (k.b l).toNat) (lanesOf k.act) = (.ok ms, s2) →
    ∃ t, exec (.cpa x) s = .next t ∧
      LongIssued s2 t k (.copy (decide (x.space = 1)) (ls.map fun (e : LaneAcc) => (k.b e.lane).toNat)) ls ∧
      (∀ a, t.ms.mem.read a = s2.ms.mem.read a) ∧ t.ddx = s2.ddx) ∧
  (∀ s x k, Issues s 0x120 x k → k.exec = 0 ∨ fenceDone s k.wid k.w x.scope s.next = true →
    ∃ t w, exec (.fence x) s = .next t ∧ OnlyWarp s t k.wid ∧ t.warps.find k.wid = some w ∧ Advanced k w ∧
      w.tf = (if k.exec ≠ 0 ∧ x.sc then s.now (coreDie k.core) else k.w.tf) ∧
      w = { k.w with tf := w.tf, clause := w.clause, pc := w.pc, yieldTo := w.yieldTo }) ∧
  (∀ s x k, Issues s 0x120 x k → k.exec ≠ 0 → fenceDone s k.wid k.w x.scope s.next = false →
    ∃ t w, exec (.fence x) s = .next t ∧ OnlyWarp s t k.wid ∧ t.warps.find k.wid = some w ∧ w.clause = none ∧
      (∀ l, l < 32 → laneGet .none w.wait l = if laneIn k.path l then .fence else laneGet .none k.w.wait l) ∧
      w.susp = k.w.susp ++
        [{ clause := { k.c with lanes := k.path }, scope := x.scope, sc := x.sc, id := s.next, ended := false }] ∧
      w = { k.w with clause := none, wait := w.wait, susp := w.susp, yieldTo := w.yieldTo })

/-- R295, R296, R298: a phase-barrier object holds its phase, its count and its pending arrivals in one word. PBINIT writes phase 0
with n pending; PBARR in the current phase takes n arrivals off, and the last one starts the next phase; PBWAIT goes on once its phase
is over and else waits. Arrivals in a phase that is over, in another phase, or more than are pending trap. -/
def Claims.PhaseBarrierWords : Prop :=
  (∀ s x k l ls s1 b, Issues s 0x122 x k → k.act ≠ 0 → pbCheck s k .write = (.ok (l :: ls), s1) → x.subS % 2 = 1 →
    warpBlock s1 k.w = some b → 1 ≤ (k.b 0).toNat → (k.b 0).toNat < 2 ^ 24 →
    ∃ t b', exec (.pbinit x) s = .next t ∧ t.ddx.blocks.find k.w.block = some b' ∧ t.ms = s1.ms ∧ t.regs = s1.regs ∧
      b'.mem.read64 l.pa = BitVec.ofNat 64 ((k.b 0).toNat * 2 ^ 24 + (k.b 0).toNat) ∧
      (∀ a, ¬ (l.pa ≤ a ∧ a < l.pa + 8) → b'.mem.read a = b.mem.read a)) ∧
  (∀ s x k l ls s1, Issues s 0x122 x k → k.act ≠ 0 → pbCheck s k .write = (.ok (l :: ls), s1) → x.subS % 2 = 0 →
    1 ≤ (k.b 0).toNat → (k.b 0).toNat < 2 ^ 24 →
    ∃ t, exec (.pbinit x) s = .next t ∧ (∀ a, t.ms.mem.read a = s1.ms.mem.read a) ∧ t.regs = s1.regs ∧ t.ddx = s1.ddx ∧
      ∃ q ∈ t.ms.reqs, q.agent = .warp k.wid ∧ q.sec = l.pa / 64 ∧
        ∃ bs, q.kind = .store bs ∧ ∀ e ∈ bs, l.pa ≤ e.1 ∧ e.1 < l.pa + 8 ∧
          e.2 = BitVec.ofNat 8 (((k.b 0).toNat * 2 ^ 24 + (k.b 0).toNat) / 2 ^ (8 * (e.1 - l.pa)))) ∧
  (∀ s x k l ls s1 b, Issues s 0x123 x k → k.act ≠ 0 → pbCheck s k .rw = (.ok (l :: ls), s1) → x.subS % 2 = 1 →
    warpBlock s1 k.w = some b → spmPoisoned b l.pa 8 = false → fenceDone s1 k.wid k.w x.scope s1.next = true →
    let o := b.mem.read64 l.pa
    let n := (k.cc 0).toNat
    bits o 63 48 = (k.b 0).toNat % 65536 → 1 ≤ n → n ≤ bits o 23 0 →
    ∃ t b', exec (.pbarr x) s = .next t ∧ t.ddx.blocks.find k.w.block = some b' ∧ t.ms = s1.ms ∧ t.regs = s1.regs ∧
      (let o' := b'.mem.read64 l.pa
       bits o' 47 24 = bits o 47 24 ∧
       (n < bits o 23 0 → bits o' 63 48 = bits o 63 48 ∧ bits o' 23 0 = bits o 23 0 - n) ∧
       (n = bits o 23 0 → bits o' 63 48 = (bits o 63 48 + 1) % 65536 ∧ bits o' 23 0 = bits o 47 24)) ∧
      (∀ a, ¬ (l.pa ≤ a ∧ a < l.pa + 8) → b'.mem.read a = b.mem.read a)) ∧
  (∀ s x k l ls s1 b d, Issues s 0x123 x k → k.act ≠ 0 → pbCheck s k .rw = (.ok (l :: ls), s1) → x.subS % 2 = 1 →
    warpBlock s1 k.w = some b → spmPoisoned b l.pa 8 = false → fenceDone s1 k.wid k.w x.scope s1.next = true →
    let o := b.mem.read64 l.pa
    let ph := (k.b 0).toNat % 65536
    let n := (k.cc 0).toNat
    (d = 1 ∧ phaseOver (bits o 63 48) ph = true) ∨
      (d = 2 ∧ phaseOver (bits o 63 48) ph = false ∧ bits o 63 48 ≠ ph) ∨
      (d = 3 ∧ bits o 63 48 = ph ∧ (n = 0 ∨ bits o 23 0 < n)) →
    exec (.pbarr x) s = .next (trapWarp s1 k.wid { code := 0x0B, detail := d } k.exec)) ∧
  (∀ s x k l ls s0 s1 o, Issues s 0x124 x k → k.act ≠ 0 → pbCheck s k .read = (.ok (l :: ls), s0) →
    pbHome s0 k.core k.w.card (decide (x.subS % 2 = 1)) false l.pa = (true, s1) → s1.warps = s.warps →
    pbRead s1 k.wid k.w (decide (x.subS % 2 = 1)) l.pa = .val o false →
    (phaseOver (bits o 63 48) ((k.b 0).toNat % 65536) = true →
      ∃ t w, exec (.pbwait x) s = .next t ∧ OnlyWarp s1 t k.wid ∧ t.warps.find k.wid = some w ∧ Advanced k w) ∧
    (phaseOver (bits o 63 48) ((k.b 0).toNat % 65536) = false →
      ∃ t, exec (.pbwait x) s = .next t ∧ Stood s1 t k k.path
        (.pbwait (decide (x.subS % 2 = 1)) l.pa ((k.b 0).toNat % 65536) x.scope (s1.now (coreDie k.core) + 1000))))

/-- R299 to R303: a queue word whose lanes pass their checks issues one operation, sends one request to the controller of each lane's
leat in lane order, and holds the warp until every answer; the privileged sub-operations of QCTL trap PRIV. CRES issues its
reservation; CPOST publishes each lane's record and goes on, or traps QERR at the first lane whose index is not reserved. -/
def Obligations.QueueWords : Prop :=
  (∀ e ∈ queueOps, ∀ s x k ls s1, Issues s e.2.1 x k → (x.uni = true → k.performs = true) →
    queueLanes s k e.2.2.2.2 (if x.uni then [0] else (lanesOf k.act).filter fun l => !(laneIn k.c.doneLanes l)) = (.ok ls, s1) →
    (e.2.2.2.1 = true → fenceDone s1 k.wid k.w 4 s1.next = true) →
    ∃ t o w ns, exec (e.1 x) s = .next t ∧ t.ops.find s1.next = some o ∧ o.wid = k.wid ∧ o.order = ls.map (fun q => q.lane) ∧
      o.dst = dstRef x.dst.toNat ∧ o.flag = k.c.flag x.fs ∧ (∃ bufs, o.kind = .queue e.2.2.1 x.uni bufs) ∧
      t.lq.reqs = s1.lq.reqs ++ ns ∧ ns.map (fun r => (r.cb, r.who)) = ls.map (fun q => (q.cb, .warp k.wid s1.next q.lane)) ∧
      (∀ a, t.ms.mem.read a = s1.ms.mem.read a) ∧
      t.warps.find k.wid = some w ∧ w.hold = some s1.next ∧ Advanced k w) ∧
  (∀ s x k ls s1, Issues s 0x144 x k → x.subS ∈ [1, 2, 5] → (x.uni = true → k.performs = true) →
    queueLanes s k none (if x.uni then [0] else (lanesOf k.act).filter fun l => !(laneIn k.c.doneLanes l)) = (.ok ls, s1) →
    fenceDone s1 k.wid k.w 4 s1.next = true →
    ∃ t o w, exec (.qctl x) s = .next t ∧ t.ops.find s1.next = some o ∧ (∃ bufs, o.kind = .queue (.ctl x.subS) x.uni bufs) ∧
      o.dst = dstRef x.dst.toNat ∧ (∀ a, t.ms.mem.read a = s1.ms.mem.read a) ∧
      t.warps.find k.wid = some w ∧ w.hold = some s1.next ∧ Advanced k w) ∧
  (∀ s x k, Issues s 0x144 x k → x.subS ∈ [0, 3, 4] → (x.uni = true → k.performs = true) →
    exec (.qctl x) s = .next (trapWarp s k.wid { code := 0x02, detail := 0, lane := (lowLane k.act).getD 0 } k.exec)) ∧
  (∀ s x k, Issues s 0x148 x k → (x.uni = true → k.performs = true) →
    ∃ t o w, exec (.cres x) s = .next t ∧ t.ops.find s.next = some o ∧
      o.kind = .cres ((if x.uni then [0] else lanesOf k.act).map fun l => (k.a l).toNat) x.uni ∧ o.dst = dstRef x.dst.toNat ∧
      o.flag = k.c.flag x.fs ∧ t = { s with ops := t.ops, warps := t.warps, next := t.next } ∧
      t.warps.find k.wid = some w ∧ Advanced k w) ∧
  (∀ s x k d s1, Issues s 0x149 x k → (x.uni = true → k.performs = true) → fenceDone s k.wid k.w 4 s.next = true →
    publishLanes s (coreDie k.core) k.w.card (fun l => (k.a l).toNat)
      (if x.uni then [0] else (lanesOf k.act).filter fun l => !(laneIn k.c.doneLanes l)) k.c.doneLanes = ((d, none), s1) →
    ∃ t w, exec (.cpost x) s = .next t ∧ t.ms = s1.ms ∧ t.ddx = s1.ddx ∧ t.warps.find k.wid = some w ∧ Advanced k w ∧
      w = { k.w with clause := w.clause, pc := w.pc, yieldTo := w.yieldTo }) ∧
  (∀ s x k d l s1, Issues s 0x149 x k → (x.uni = true → k.performs = true) → fenceDone s k.wid k.w 4 s.next = true →
    publishLanes s (coreDie k.core) k.w.card (fun l => (k.a l).toNat)
      (if x.uni then [0] else (lanesOf k.act).filter fun l => !(laneIn k.c.doneLanes l)) k.c.doneLanes = ((d, some l), s1) →
    ∃ t w, exec (.cpost x) s = .next t ∧ t.warps.find k.wid = some w ∧ w.st = .trapped ∧
      w.trap = some { code := 0x0E, detail := 5, lane := l } ∧ w.clause = some { k.c with doneLanes := d })

/-- R391 to R393: ORDIN enters the ordered section of a spawned warp when no warp of a lower primitive has a quad of its own left
outside, and else waits; a second ORDIN and a word of a warp that was not spawned trap. ORDOUT, its release complete, leaves the
section. -/
def Claims.OrderedSections : Prop :=
  (∀ s x k p, Issues s 0x160 x k → k.act ≠ 0 → k.w.spawn = some p → k.w.ordDone = false →
    (ordLower s k.w.card p.prim p.quads = false →
      ∃ t w, exec (.ordin x) s = .next t ∧ WentOn s t k k.path ∧ t.warps.find k.wid = some w ∧
        w.ordDone = true ∧ w.held = true) ∧
    (ordLower s k.w.card p.prim p.quads = true → ∃ t, exec (.ordin x) s = .next t ∧ Stood s t k k.path .ordin)) ∧
  (∀ s x k, Issues s 0x161 x k → k.act ≠ 0 → k.w.spawn.isSome → k.w.held = true → fenceDone s k.wid k.w 4 s.next = true →
    ∃ t w, exec (.ordout x) s = .next t ∧ OnlyWarp s t k.wid ∧ t.warps.find k.wid = some w ∧ Advanced k w ∧
      w = { k.w with held := false, out := true, clause := w.clause, pc := w.pc, yieldTo := w.yieldTo }) ∧
  (∀ s x k, Issues s 0x160 x k → k.act ≠ 0 → k.w.spawn = none →
    exec (.ordin x) s = .next (trapWarp s k.wid { code := 0x16, detail := 3 * 2 ^ 30 + 1 } k.exec)) ∧
  (∀ s x k, Issues s 0x160 x k → k.act ≠ 0 → k.w.spawn.isSome → k.w.ordDone = true →
    exec (.ordin x) s = .next (trapWarp s k.wid { code := 0x16, detail := 3 * 2 ^ 30 + 2 } k.exec)) ∧
  (∀ s x k, Issues s 0x161 x k → k.act ≠ 0 → k.w.spawn.isSome → k.w.held = false →
    exec (.ordout x) s = .next (trapWarp s k.wid { code := 0x16, detail := 3 * 2 ^ 30 + 3 } k.exec))


/-! ## Tile words (R309 to R317, R328 to R355) -/

/-- R336: the K words that compute in 64-bit registers write kd of the walker's own replica and go on to the next word; nothing else
of the device changes. Shifts count modulo 64, KMIN and KMAX compare signed, KLIS shifts its immediate in. -/
def Claims.KernelWords : Prop :=
  (∀ s k, Walks s 0x00 k → ∃ t w, exec (.knop k.word) s = .next t ∧ WalkerIs s t k k.t w ∧ w.k = k.w.k ∧ Past k k.nextPc w) ∧
  KWrites .kadd 0x01 (fun k => k.w.kr k.word.ka + k.w.kr k.word.kb) ∧
  KWrites .ksub 0x02 (fun k => k.w.kr k.word.ka - k.w.kr k.word.kb) ∧
  KWrites .kmul 0x03 (fun k => k.w.kr k.word.ka * k.w.kr k.word.kb) ∧
  KWrites .kand 0x04 (fun k => k.w.kr k.word.ka &&& k.w.kr k.word.kb) ∧
  KWrites .kor 0x05 (fun k => k.w.kr k.word.ka ||| k.w.kr k.word.kb) ∧
  KWrites .kxor 0x06 (fun k => k.w.kr k.word.ka ^^^ k.w.kr k.word.kb) ∧
  KWrites .kshl 0x07 (fun k => k.w.kr k.word.ka <<< ((k.w.kr k.word.kb).toNat % 64)) ∧
  KWrites .kshr 0x08 (fun k => k.w.kr k.word.ka >>> ((k.w.kr k.word.kb).toNat % 64)) ∧
  KWrites .ksra 0x09 (fun k => (k.w.kr k.word.ka).sshiftRight ((k.w.kr k.word.kb).toNat % 64)) ∧
  KWrites .kmin 0x0A (fun k => BitVec.ofInt 64 (min (k.w.kr k.word.ka).toInt (k.w.kr k.word.kb).toInt)) ∧
  KWrites .kmax 0x0B (fun k => BitVec.ofInt 64 (max (k.w.kr k.word.ka).toInt (k.w.kr k.word.kb).toInt)) ∧
  KWrites .kaddi 0x0C (fun k => k.w.kr k.word.ka + k.word.opb.signExtend 64) ∧
  KWrites .kli 0x0D (fun k => BitVec.ofInt 64 (signExt k.word.imm19 19)) ∧
  KWrites .klis 0x0E (fun k => k.w.kr k.word.kd * 2 ^ 19 + BitVec.ofNat 64 k.word.imm19) ∧
  KWrites .kpack 0x0F (fun k => (k.w.kr k.word.kb).extractLsb' 0 32 ++ (k.w.kr k.word.ka).extractLsb' 0 32)

/-- R337, R338: the branches go to the word `imm` words on when they are taken and to the next word when not; KLOOP counts kd down and
branches while it is not 0; KOCALL and KRET transfer to an overlay address, by the resolution held for the occurrence or by a new one,
and KOCALL leaves its return address in kd; then executors that wait for a placement on the core try again (R207). -/
def Claims.KernelBranches : Prop :=
  KBranch .kbeq 0x10 (fun a b => a = b) ∧
  KBranch .kbne 0x11 (fun a b => a ≠ b) ∧
  KBranch .kblt 0x12 (fun a b => a.toInt < b.toInt) ∧
  KBranch .kbge 0x13 (fun a b => b.toInt ≤ a.toInt) ∧
  KBranch .kbltu 0x14 (fun a b => a.toNat < b.toNat) ∧
  KBranch .kbgeu 0x15 (fun a b => b.toNat ≤ a.toNat) ∧
  (∀ s k, Walks s 0x16 k → ∃ t w, exec (.kjmp k.word) s = .next t ∧ WalkerIs s t k k.t w ∧ w.k = k.w.k ∧
    Past k (kTarget k.w.pc k.word.imm) w) ∧
  (∀ s k, Walks s 0x17 k → ∃ t w, exec (.kloop k.word) s = .next t ∧ WalkerIs s t k k.t w ∧
    WrotesK k w k.word.kd (k.w.kr k.word.kd - 1) ∧
    Past k (if k.w.kr k.word.kd = 1 then k.nextPc else kTarget k.w.pc k.word.imm) w) ∧
  (∀ s k a,
    ((∃ x, sampleFor k = some x ∧ samplePinned s k x.dest = true ∧ x.dest = a) ∨
      ((∀ x, sampleFor k = some x → samplePinned s k x.dest = false) ∧
        resolve s k.core k.x.card k.x.gen (ovAddr (k.w.kr k.word.ka)) false (k.w.ovFirst.map fun x => x.first) = (.ok a, s))) →
    (Walks s 0x18 k → ∃ t t' w, exec (.kocall k.word) s = .next (retryPlaces t k.core) ∧ WalkerLeft s t k t' w ∧ t' = { k.t with samples := t'.samples } ∧
      WrotesK k w k.word.kd (BitVec.ofNat 64 (k.w.pc.tok.toNat * 2 ^ 32 + (k.w.pc.off + 8))) ∧ Past k a w) ∧
    (Walks s 0x19 k → ∃ t t' w, exec (.kret k.word) s = .next (retryPlaces t k.core) ∧ WalkerLeft s t k t' w ∧ t' = { k.t with samples := t'.samples } ∧
      w.k = k.w.k ∧ Past k a w))

/-- R311, R339, R340: the first walker to reach an occurrence of KTIME, KWCH or KLD reads the value and holds it for every other
walker that has not ended; each of those takes the value held, and the last frees it. KLD reads the u64 at its address once its sector
is at hand, and traps ALIGN 3 when the address is not a multiple of 8. -/
def Claims.SampledWords : Prop :=
  (∀ e ∈ ([(.ktime, 0x1A), (.kwch, 0x1B), (.kld, 0x1C)] : List ((TWord → Instr) × Nat)), ∀ s k x, Walks s e.2 k →
    sampleFor k = some x → ∃ t t' w, exec (e.1 k.word) s = .next t ∧ WalkerIs s t k t' w ∧ WrotesK k w k.word.kd x.val ∧
      Past k k.nextPc w ∧ t' = { k.t with samples := t'.samples } ∧
      (∀ y ∈ t'.samples, y.left ≠ [] ∧ ((y ∈ k.t.samples ∧ y.count ≠ k.w.count) ∨ (y.count = k.w.count ∧ k.e ∉ y.left)))) ∧
  (∀ s k v, sampleFor k = none →
    let left := (List.range 5).filter fun j => decide (j ≠ k.e) && ((k.t.walkers[j]?).map Walker.walks).getD false
    let held : List Sample := if left = [] then k.t.samples
      else k.t.samples ++ [{ count := k.w.count, val := v, dest := k.w.pc, left := left }]
    (Walks s 0x1A k → v = BitVec.ofNat 64 (s.now (coreDie (k.tc + 32))) → ∃ t w, exec (.ktime k.word) s = .next t ∧
      WalkerIs s t k { k.t with samples := held } w ∧ WrotesK k w k.word.kd v ∧ Past k k.nextPc w) ∧
    (Walks s 0x1B k → v = BitVec.ofNat 64 (engineHor k.t) → ∃ t w, exec (.kwch k.word) s = .next t ∧
      WalkerIs s t k { k.t with samples := held } w ∧ WrotesK k w k.word.kd v ∧ Past k k.nextPc w) ∧
    (∀ i o pa x, Walks s 0x1C k → samplerBusy k = false → AtHand s k i o →
      let va := (k.w.kr k.word.ka + k.word.opb.signExtend 64).toNat
      va % 8 = 0 → translate s (k.space s) va .read = (.ok pa, s) → o.got.find (pa / 64) = some x → x.poison = false →
      v = BitVec.ofNat 64 (leNat ((List.range 8).map fun j => x.data.getD (pa % 64 + j) 0)) → pa % 8 = 0 →
      ∃ t w, exec (.kld k.word) s = .next t ∧ WalkerRead s t k i { k.t with samples := held } w ∧
        WrotesK k w k.word.kd v ∧ Past k k.nextPc w) ∧
    (Walks s 0x1C k → samplerBusy k = false → (k.w.kr k.word.ka + k.word.opb.signExtend 64).toNat % 8 ≠ 0 →
      exec (.kld k.word) s = .next (tFault s k
        { code := 0x03, detail := 3, addr := (k.w.kr k.word.ka + k.word.opb.signExtend 64).toNat })))

/-- R317, R319, R330, R341: TBIND reads the 64 bytes of a descriptor and binds its handle with the pages of its footprint when the
descriptor is well formed; TUNBIND ends a binding. Both wait while another engine's command uses the handle. -/
def Claims.HandleBinding : Prop :=
  (∀ s k i o pa x, Walks s 0x20 k → handleUsed k (hndOf k.word.opa) = false → AtHand s k i o →
    let va := (k.w.kr k.word.kb).toNat
    let d := (List.range 8).map fun j => (BitVec.ofNat 64 (leNat (((gotBytes o.got pa 64).1.drop (8 * j)).take 8)) : DWord)
    let s0 := setHandles s k.tc fun h => h.del (hndOf k.word.opa)
    va % 64 = 0 → translate s0 (k.space s0) va .read = (.ok pa, s0) → (gotBytes o.got pa 64).2 = false →
    bindDesc s0 (k.space s0) (entriesUsed { k.t with handles := k.t.handles.del (hndOf k.word.opa) }) va d = (.ok x, s0) →
    ∃ t t' w, exec (.tbind k.word) s = .next t ∧ WalkerRead s t k i t' w ∧ RepDone k k.w w ∧
      t' = { k.t with handles := t'.handles } ∧ x.va = va ∧ x.desc = d ∧
      ∀ h, t'.handles.find h = if h = hndOf k.word.opa then some x else k.t.handles.find h) ∧
  (∀ s k, Walks s 0x20 k → handleUsed k (hndOf k.word.opa) = false → (k.w.kr k.word.kb).toNat % 64 ≠ 0 →
    exec (.tbind k.word) s = .next (tFault (setHandles s k.tc fun h => h.del (hndOf k.word.opa)) k
      { code := 0x03, detail := 6, addr := (k.w.kr k.word.kb).toNat })) ∧
  (∀ s k, Walks s 0x21 k → handleUsed k (hndOf k.word.opa) = false → k.w.asked = none →
    ∃ t t' w, exec (.tunbind k.word) s = .next t ∧ WalkerIs s t k t' w ∧ RepDone k k.w w ∧
      t' = { k.t with handles := t'.handles } ∧
      ∀ h, t'.handles.find h = if h = hndOf k.word.opa then none else k.t.handles.find h) ∧
  (∀ e ∈ ([(.tbind, 0x20), (.tunbind, 0x21)] : List ((TWord → Instr) × Nat)), ∀ s k, Walks s e.2 k →
    handleUsed k (hndOf k.word.opa) = true →
    ∃ t, exec (e.1 k.word) s = .next t ∧ WalkerIs s t k k.t { k.w with st := .wait })

/-- R316, R330, R342 to R344: the load words, their handle checked and their sectors at hand. LDR writes the elements of a handle row
into an accumulator row by FMT; LDW makes a weight file of the block and its scales; LPF only puts fills on their way. A failing check
traps with its code and detail, in the order of R330. -/
def Obligations.LoadEngineWords : Prop :=
  (∀ s k i o x row, Walks s 0x23 k → AtHand s k i o → accAt k k.word.opb k.step = some row →
    let r : Run := { c0 := hndC0 k k.word.opa, n := 128, c1 := hndC1 k k.word.opa 1 }
    coordOk r.c1 = true → handleChecks k.t (hndOf k.word.opa) [0, 1, 2, 3, 4, 5, 6] true false true [r] = .ok x →
    let bs := ldrBytes (hdFmt x.desc) (runBytes x o.got r)
    ∃ t t' w, exec (.ldr k.word) s = .next t ∧ WalkerRead s t k i t' w ∧ RowWritten k row.theRow t' bs ∧
      RepDone k (noted k (if ∃ e ∈ bs, e.2 = true then firstBad o.got else none)) w) ∧
  (∀ s k i o h x, Walks s 0x22 k → AtHand s k i o → k.t.handles.find (hndOf k.word.opa) = some h →
    let runs := ldwRuns (hndC0 k k.word.opa) (hndC1 k k.word.opa 1) (hdFmt h.desc)
    handleChecks k.t (hndOf k.word.opa) [0, 1, 2, 3] true false true runs = .ok x →
    let b := buildFile x o.got runs
    ∃ t w, exec (.ldw k.word) s = .next t ∧
      WalkerRead s t k i { k.t with wf := setAt k.t.wf (fld k.word.opb 0 0) b.1 } w ∧
      RepDone k (noted k (if b.2 then firstBad o.got else none)) w) ∧
  (∀ s k x, Walks s 0x24 k →
    let r : Run := { c0 := hndC0 k k.word.opa, n := 128, c1 := hndC1 k k.word.opa 1 }
    handleChecks k.t (hndOf k.word.opa) [0, 1, 2, 3, 4, 5, 6] true false (coordOk r.c1) [r] = .ok x →
    (∀ s1, remapMarked s k (hndOf k.word.opa) x ≠ (.error none, s1)) →
    ∃ t w, exec (.lpf k.word) s = .next t ∧ (∀ w', t.tiles.find k.tc = some w' → w'.acc = k.t.acc ∧ w'.wf = k.t.wf) ∧
      ((t.tiles.find k.tc).bind fun t' => t'.walkers[k.e]?) = some w ∧ RepDone k k.w w) ∧
  (∀ e ∈ ([(.ldr, 0x23), (.lpf, 0x24)] : List ((TWord → Instr) × Nat)), ∀ s k c, Walks s e.2 k → k.w.asked = none →
    let r : Run := { c0 := hndC0 k k.word.opa, n := 128, c1 := hndC1 k k.word.opa 1 }
    handleChecks k.t (hndOf k.word.opa) [0, 1, 2, 3, 4, 5, 6] true false
      (coordOk r.c1 && (decide (e.2 = 0x24) || (accAt k k.word.opb k.step).isSome)) [r] = .error c →
    (e.2 = 0x24 → c.code ≠ 0x07) → exec (e.1 k.word) s = .next (tFault s k c))

/-- R317, R330: the checks of a handle operand in their order. -/
def Claims.HandleChecks : Prop :=
  ∀ (t : TileCore) (h : Nat) (fmts : List Nat) (file write range : Bool) (runs : List Run),
    (t.handles.find h = none → handleChecks t h fmts file write range runs = .error { code := 0x08, detail := 3 }) ∧
    (∀ x, t.handles.find h = some x →
      let d := x.desc
      (hdFmt d ∉ fmts ∨ file = false → handleChecks t h fmts file write range runs = .error { code := 0x08, detail := 4 }) ∧
      (hdFmt d ∈ fmts → file = true →
        ((if write then hdWr d else hdRd d) = false → handleChecks t h fmts file write range runs =
          .error { code := 0x05, detail := if write then 3 else 2 }) ∧
        ((if write then hdWr d else hdRd d) = true →
          (range = false → handleChecks t h fmts file write range runs = .error { code := 0x07, detail := 2 }) ∧
          (range = true →
            ((hdFmt d = 1 ∧ ∃ r ∈ runs, r.c0 % 2 ≠ 0) →
              handleChecks t h fmts file write range runs = .error { code := 0x07, detail := 3 }) ∧
            (¬ (hdFmt d = 1 ∧ ∃ r ∈ runs, r.c0 % 2 ≠ 0) →
              ((write = true ∨ hdPad d = false) ∧ (∃ r ∈ runs, r.inside d = false) →
                handleChecks t h fmts file write range runs = .error { code := 0x07, detail := 1 }) ∧
              (¬ ((write = true ∨ hdPad d = false) ∧ ∃ r ∈ runs, r.inside d = false) →
                handleChecks t h fmts file write range runs = .ok x))))))

/-- R53 to R55, R345, R346: an X word adds, to every slot (m, n) of its tile, the product of activation row m and weight column n,
block by block or in groups of eight, ORs the flags raised and marks what came from an uncorrectable input; no other slot changes. -/
def Obligations.MatrixWords : Prop :=
  (∀ e ∈ ([(.xmmI8, 0x30, 0, 1), (.xmmI4, 0x31, 1, 2), (.xmmBf16, 0x32, 3, 4), (.xmmFp16, 0x33, 2, 3)] :
      List ((TWord → Instr) × Nat × Nat × Nat)), ∀ s k i o x, Walks s e.2.1 k → AtHand s k i o → (xbFile k).fmt = e.2.2.2 →
    let fmt := e.2.2.1
    let runs := xmmRuns (hndC0 k k.word.opa) (hndC1 k k.word.opa 128) fmt
    let acts := xmmActs x o.got fmt runs
    let half := if fmt = 1 then (hndC0 k k.word.opa / 128 % 2).toNat else 0
    let sw := if half = 0 then (xbFile k).sw0 else (xbFile k).sw1
    handleChecks k.t (hndOf k.word.opa) [fmt] true false (tileOk (xbTile k) && coordOk (hndC1 k k.word.opa 128)) runs = .ok x →
    (fmt ≤ 1 → sx16Bad sw = false ∧ ∀ a ∈ acts, sx16Bad a.sa = false) →
    ∃ t t' w, exec (e.1 k.word) s = .next t ∧ WalkerRead s t k i t' w ∧
      Multiplied k t' (128 * half) (xmmK fmt)
        (if fmt = 0 then .scaled 8 sw else if fmt = 1 then .scaled 4 sw else .groups (decide (fmt = 3))) acts ∧
      (∃ bad, RepDone k (noted k bad) w ∧
        (bad = none ↔ ∀ m n, m < 128 → n < 128 → deadOut k (128 * half) (xmmK fmt) acts m n = false))) ∧
  (∀ e ∈ ([(.xmmbI8, 0x34, 0), (.xmmbI4, 0x35, 1)] : List ((TWord → Instr) × Nat × Nat)), ∀ s k, Walks s e.2.1 k →
    (xbFile k).fmt = e.2.2 + 1 →
    let src : Int := (fld k.word.opa 3 0 : Int) + k.step
    let acts := (List.range 128).map fun m => quantRow k.t e.2.2 (128 * src.toNat + m)
    tileOk src = true → tileOk (xbTile k) = true → src ≠ xbTile k → sx16Bad (xbFile k).sw0 = false →
    (∀ a ∈ acts, sx16Bad a.sa = false) → k.w.asked = none →
    ∃ t t' w, exec (e.1 k.word) s = .next t ∧ WalkerIs s t k t' w ∧
      Multiplied k t' 0 128 (if e.2.2 = 0 then .scaled 8 (xbFile k).sw0 else .scaled 4 (xbFile k).sw0) acts ∧
      RepDone k (noted k (if (List.range 128).any fun m => (List.range 128).any fun n => deadOut k 0 128 acts m n then some 0
        else none)) w)

/-- R44 to R52, R331, R347: the V words on A40 elements. An arithmetic word leaves A's and B's flags with those it raises, and B is
read before A is written. -/
def Claims.ElementWords : Prop :=
  SlotWord1 .vclr 0x40 false (fun _ _ => (0, 0)) ∧
  SlotWord .vmov 0x41 false true (fun _ b => (b.val, b.flags)) ∧
  SlotWord .vadd 0x42 true true (fun a b =>
    let r := Fmt.a40.add .rne a.val b.val
    (r.1, a.flags ||| b.flags ||| r.2)) ∧
  SlotWord .vsub 0x43 true true (fun a b =>
    let r := Fmt.a40.add .rne a.val (Fmt.a40.neg true b.val)
    (r.1, a.flags ||| b.flags ||| r.2)) ∧
  SlotWord .vmul 0x44 true true (fun a b =>
    let r := Fmt.a40.mul .rne a.val b.val
    (r.1, a.flags ||| b.flags ||| r.2)) ∧
  SlotWord .vmax 0x45 true true (fun a b =>
    let r := Fmt.a40.minMax true a.val b.val
    (r.1, a.flags ||| b.flags ||| r.2)) ∧
  SlotWord .vmin 0x46 true true (fun a b =>
    let r := Fmt.a40.minMax false a.val b.val
    (r.1, a.flags ||| b.flags ||| r.2)) ∧
  SlotWord1 .vscl 0x47 true (fun k a =>
    let p := mulVals (Fmt.a40.decode a.val) (Fmt.fp32.decode (bits (k.w.kr (fld k.word.opb 11 7)) 31 0))
    let r := Fmt.a40.ofVal .rne p.1
    (r.1, a.flags ||| p.2 ||| r.2)) ∧
  SlotWord .vbadd 0x48 true false (fun a b =>
    let r := Fmt.a40.add .rne a.val b.val
    (r.1, a.flags ||| b.flags ||| r.2)) ∧
  SlotWord1 .vflclr 0x52 true (fun _ a => (a.val, 0))

/-- R348 to R350: the V words on I24 lanes, the conversions and the quantisations write a whole row, and set SATST where they
saturate. -/
def Claims.RowWords : Prop :=
  RowWord .viadd 0x49 true (fun k ra rb =>
    ((List.range 256).flatMap fun i => lane3 (rowLane k.t ra i + rowLane k.t rb i) (accBad k.t ra (i / 2) || accBad k.t rb (i / 2)),
     false)) ∧
  RowWord .viadds 0x4A true (fun k ra rb =>
    let x := fun i => rowLane k.t ra i + rowLane k.t rb i
    ((List.range 256).flatMap fun i =>
       lane3 (max (-2 ^ 23) (min (2 ^ 23 - 1) (x i))) (accBad k.t ra (i / 2) || accBad k.t rb (i / 2)),
     (List.range 256).any fun i => decide (x i < -2 ^ 23 ∨ 2 ^ 23 - 1 < x i))) ∧
  RowWord .vishr 0x4B false (fun k ra _ =>
    ((List.range 256).flatMap fun i =>
       lane3 (shrRne (rowLane k.t ra i) (min (k.w.kr (fld k.word.opb 11 7)).toNat 24)) (accBad k.t ra (i / 2)), false)) ∧
  RowWord .vcvti 0x4C true (fun k _ rb =>
    ((List.range 128).flatMap fun j => marked 6 (Fmt.a40.ofInt .rne (rowLane k.t rb j)).1 (accBad k.t rb (j / 2)), false)) ∧
  RowWord .vcvtf 0x4D true (fun k _ rb =>
    (((List.range 128).flatMap fun j => marked 3 (toI24 k.t rb j).1 (accBad k.t rb j)) ++ List.replicate 384 (0, false),
     (List.range 128).any fun j => (toI24 k.t rb j).2)) ∧
  RowWord .vcvth 0x50 true (fun k _ rb =>
    (((List.range 128).flatMap fun j =>
       marked 2 (Fmt.fp16.ofVal .rne (Fmt.a40.decode (readSlot k.t rb j).val)).1 (accBad k.t rb j)) ++ List.replicate 512 (0, false),
     false)) ∧
  RowWord .vcvtb 0x51 true (fun k _ rb =>
    (((List.range 128).flatMap fun j =>
       marked 2 (Fmt.bf16.ofVal .rne (Fmt.a40.decode (readSlot k.t rb j).val)).1 (accBad k.t rb j)) ++ List.replicate 512 (0, false),
     false)) ∧
  RowWord .vqnt8 0x4E true (fun k _ rb => quantise k.t rb 8) ∧
  RowWord .vqnt4 0x4F true (fun k _ rb => quantise k.t rb 4)

/-- R79, R90, R100, R330, R351, R352: a row store puts the bytes or the reductions of its row on their way, at the addresses of the
handle's row, one engine write a sector or one reduction an element, and goes on; no byte of memory and no slot changes yet. -/
def Obligations.StoreEngineWords : Prop :=
  (∀ s k x y s1 row, Walks s 0x60 k → k.w.asked = none → accAt k k.word.opb k.step = some row →
    let r : Run := { c0 := hndC0 k k.word.opa, n := 128, c1 := hndC1 k k.word.opa 1 }
    handleChecks k.t (hndOf k.word.opa) [0, 1, 2, 3, 4, 5, 6] true true (coordOk r.c1) [r] = .ok x →
    remapMarked s k (hndOf k.word.opa) x = (.ok y, s1) →
    let va := (elemEa y.desc r.c0 r.c1).toNat
    let bs := sstBytes k.t row.theRow (hdFmt y.desc)
    let at_ := (List.range bs.length).map fun i => (y.pa (va + i), (bs.getD i (0, false)).1)
    ∃ t, exec (.sst k.word) s = .next t ∧ t = { s1 with tiles := t.tiles, ms := t.ms, next := t.next } ∧
      (∀ a, t.ms.mem.read a = s1.ms.mem.read a) ∧ t.ms.poison = s1.ms.poison ∧
      (∀ e ∈ at_, ∃ q ∈ t.ms.reqs, q.agent = .teng k.tc k.e ∧ q.sec = e.1 / 64 ∧
        ∃ bad, q.kind = .engine (at_.filter fun b => decide (b.1 / 64 = e.1 / 64)) bad) ∧
      (∀ q ∈ t.ms.reqs, q ∈ s1.ms.reqs ∨ (q.agent = .teng k.tc k.e ∧ ∃ e ∈ at_, q.sec = e.1 / 64)) ∧
      ∃ w, ((t.tiles.find k.tc).bind fun t' => t'.walkers[k.e]?) = some w ∧
        RepDone k { noted k (if (List.range (sstSlots (hdFmt y.desc))).any fun j => accBad k.t row.theRow j then some 0 else none) with
          uses := some (hndOf k.word.opa) } w) ∧
  (∀ e ∈ ([(.sredi, 0x61, .add), (.sredf, 0x62, .fadd)] : List ((TWord → Instr) × Nat × RedOp)), ∀ s k x y s1 row, Walks s e.2.1 k →
    k.w.asked = none → accAt k k.word.opb k.step = some row →
    let r : Run := { c0 := hndC0 k k.word.opa, n := 128, c1 := hndC1 k k.word.opa 1 }
    handleChecks k.t (hndOf k.word.opa) [4] true true (coordOk r.c1) [r] = .ok x →
    remapMarked s k (hndOf k.word.opa) x = (.ok y, s1) → k.t.bad = [] →
    let va := (elemEa y.desc r.c0 r.c1).toNat
    ∃ t qs, exec (e.1 k.word) s = .next t ∧ t = { s1 with tiles := t.tiles, ms := t.ms, next := t.next } ∧
      t.ms = { s1.ms with reqs := s1.ms.reqs ++ qs, rdc := t.ms.rdc } ∧
      qs.map (fun q => (q.agent, q.kind)) = (List.range 128).map (fun i =>
        (Agent.teng k.tc k.e, redAt y (va + 4 * i) e.2.2
          (if e.2.1 = 0x61 then BitVec.ofNat 64 (narrow (signExt (i24At k.t row.theRow i) 24) 32)
           else BitVec.ofNat 64 (Fmt.fp32.ofVal .rne (Fmt.a40.decode (accSlot k.t row.theRow i % 2 ^ 40))).1))) ∧
      ∃ w, ((t.tiles.find k.tc).bind fun t' => t'.walkers[k.e]?) = some w ∧
        RepDone k { k.w with uses := some (hndOf k.word.opa) } w)

/-- R95, R97, R102, R353 to R355: TFENCE goes on when the engine's writes are returned and, for a wide scope, its horizon is reached, and
.sc sets its fresh time; SQSIG, drained to its horizon, sends one 16-byte element to its leat's controller and ends with the answer OK,
and any other answer traps QERR 6; TTOK and TNOP only retire. -/
def Obligations.EngineControlWords : Prop :=
  (∀ s k, Walks s 0x70 k → engineDrained s k = true → k.w.asked = none →
    let scope := fld k.word.opa 2 0
    let now := s.now (coreDie (k.tc + 32))
    let ch := max k.w.ch k.w.wct
    (scope = 3 → ch ≤ now + 8) → (4 ≤ scope → ch ≤ now) →
    ∃ t w, exec (.tfence k.word) s = .next t ∧ WalkerIs s t k k.t w ∧
      RepDone k { k.w with ch := ch, tf := if fld k.word.opa 3 3 = 1 then now else k.w.tf } w) ∧
  (∀ s k, Walks s 0x70 k → engineDrained s k = false → exec (.tfence k.word) s = .next s) ∧
  (∀ s k pa, Walks s 0x63 k → k.w.ans = none → k.w.sent = false → engineDrained s k = true →
    max k.w.ch k.w.wct ≤ s.now (coreDie (k.tc + 32)) → (k.w.kr k.word.kd).toNat % 64 = 0 →
    let s0 := putWalker s k { k.w with ch := max k.w.ch k.w.wct }
    translate s0 (k.space s0) (k.w.kr k.word.kd).toNat .read = (.ok pa, s0) →
    ∃ t r w, exec (.sqsig k.word) s = .next t ∧ t.lq = { s.lq with reqs := s.lq.reqs ++ [r] } ∧ t.ms = s.ms ∧ r.cb = pa ∧
      r.op = .enq (leBytes 8 (k.w.kr k.word.ka).toNat ++ leBytes 8 (k.w.kr k.word.kb).toNat) ∧ r.who = .tile k.tc ∧
      r.blocking = false ∧ r.ctx = some k.x ∧
      ((t.tiles.find k.tc).bind fun t' => t'.walkers[k.e]?) = some w ∧ w = { k.w with ch := max k.w.ch k.w.wct, sent := true }) ∧
  (∀ s k a, Walks s 0x63 k → k.w.ans = some a → a.trap = none → k.w.asked = none →
    (a.status = 0 → ∃ t w, exec (.sqsig k.word) s = .next t ∧ WalkerIs s t k k.t w ∧ RepDone k { k.w with ans := none } w) ∧
    (a.status ≠ 0 → exec (.sqsig k.word) s =
      .next (tFault s k { code := 0x0E, detail := 6, addr := (k.w.kr k.word.kd).toNat }))) ∧
  (∀ e ∈ ([(.ttok, 0x71), (.tnop, 0x72)] : List ((TWord → Instr) × Nat)), ∀ s k, Walks s e.2 k →
    ∃ t, exec (e.1 k.word) s = .next t ∧
      WalkerIs s t k k.t { k.w with rep := k.word.n - 1, retiring := true, pushes := pushFifos k.e k.word })

/-- R312, R313, R333: popping takes the oldest token of a FIFO and raises the walker's horizon to the one it carries; a word whose
token is not there yet waits; retiring pushes a token with the walker's horizon into each FIFO with room, and the walker goes past
the word when every token is pushed. -/
def Claims.TokensMove : Prop :=
  (∀ s k f h rest, s.tiles.find k.tc = some k.t → k.t.walkers[k.e]? = some k.w → k.t.fifo.getD f [] = h :: rest →
    k.w.pops.find f = none →
    let w := { k.w with pops := k.w.pops.set f h, ch := max k.w.ch h }
    ∃ (t : State) (t' : TileCore), popOne s k f = t ∧ WalkerIs s t k t' w ∧ t' = { k.t with fifo := t'.fifo } ∧
      (∀ g, t'.fifo.getD g [] = if g = f then rest else k.t.fifo.getD g [])) ∧
  (∀ (s : State) (tc e : Nat) (t : TileCore) (w : Walker), s.tiles.find tc = some t → t.walkers[e]? = some w → w.retiring = true → w.ecc = none → s.ev.i = tc → s.ev.j = e →
    w.pushes.Nodup → (∀ f ∈ w.pushes, (t.fifo.getD f []).length < 15) → w.st = .run →
    ∃ (u : State) (t' : TileCore) (w' : Walker), exec .wordRetire s = .next u ∧ u = { s with tiles := u.tiles } ∧
      u.tiles.find tc = some { t' with walkers := setAt t.walkers e w' } ∧ t' = { t with fifo := t'.fifo } ∧
      (∀ f, t'.fifo.getD f [] = if f ∈ w.pushes then t.fifo.getD f [] ++ [w.ch] else t.fifo.getD f []) ∧
      w' = { w with pc := { w.pc with off := w.pc.off + 8 }, count := w.count + 1, rep := 0, retiring := false, pops := [],
                    pushes := [], asked := none, uses := none, sent := false, ans := none, ovFirst := none, ovWait := none })

/-- R323, R355, R356: TEND ends the walker, and executors that wait for a placement on its core try again (R207); at a TSYNC a walker waits for the others, and the last one lets all go on; at a CKPT it
waits, or stops when its card is to be pre-empted, and the first to come names the live tiles and files. -/
def Claims.MeetingWords : Prop :=
  (∀ s k, Walks s 0x79 k → ∃ t w, exec (.tend k.word) s = .next (retryPlaces t k.core) ∧ WalkerLeft s t k k.t { w with st := .ended } ∧
    Past k k.nextPc w) ∧
  (∀ s k, Walks s 0x7A k → allAt k.t k.w.count (some k.e) = false →
    ∃ t, exec (.tsync k.word) s = .next t ∧ WalkerIs s t k k.t { k.w with st := .wait }) ∧
  (∀ s k, Walks s 0x7A k → allAt k.t k.w.count (some k.e) = true →
    ∃ (t : State) (t' : TileCore), exec (.tsync k.word) s = .next t ∧ t = { s with tiles := t.tiles } ∧ t.tiles.find k.tc = some t' ∧
      (∀ (e : Nat) (w : Walker), k.t.walkers[e]? = some w → ∃ w' : Walker, t'.walkers[e]? = some w' ∧
        (w.walks = true → w'.st = .run ∧ w'.count = k.w.count + 1 ∧ w'.pc = { w.pc with off := w.pc.off + 8 } ∧ w'.k = w.k) ∧
        (w.walks = false → w' = w))) ∧
  (∀ s k, Walks s 0x78 k → (k.t.live = none → countBits (ckptMask k.word) 16 ≤ cardF s k.x.card 0 28 24) →
    ∃ t, exec (.ckpt k.word) s = .next t ∧
      WalkerIs s t k { k.t with live := some (k.t.live.getD (k.w.count, ckptMask k.word)) }
        { k.w with st := if (cardSt s k.x.card).preempt.isSome then .stopped else .wait })

/-- R309, R321, R322, R328: a word that fails a check of R328 traps ENC with the detail of the first it fails; a word of another
engine's tag is skipped; a command that does not equal the checker's traps CHECK. A trap of a walker queues one record that names its
card, its walk count with the engine, and its program counter, and stops every walker of the program. A command is compared when its
repetition has issued nothing yet. -/
def Obligations.TileTraps : Prop :=
  (∀ s tc e t x w (v : DWord) i d, decodeTile v = .ok i → s.focus = .walker tc e → s.tiles.find tc = some t → t.card = some x →
    t.walkers[e]? = some w → tileGo s tc t x w = true → w.count - minCount t < tileSlip s x.card → checkerBehind t e w = false →
    tEnc (tOpcode v) (tFieldsOf v) = some d →
    exec i s = .next (tFault s { tc := tc, e := e, t := t, x := x, w := w, word := tFieldsOf v } { code := 0x01, detail := d })) ∧
  (∀ s tc e t x w (v : DWord) i, decodeTile v = .ok i → s.focus = .walker tc e → s.tiles.find tc = some t → t.card = some x →
    t.walkers[e]? = some w → tileGo s tc t x w = true → w.count - minCount t < tileSlip s x.card → checkerBehind t e w = false →
    tEnc (tOpcode v) (tFieldsOf v) = none →
    let k : TCtx := { tc := tc, e := e, t := t, x := x, w := w, word := tFieldsOf v }
    (k.word.t ≠ 0 → k.word.t ≠ 5 → k.word.t ≠ e + 1 → w.st = .run →
      ∃ u w', exec i s = .next u ∧ WalkerIs s u k t w' ∧ w'.k = w.k ∧ Past k k.nextPc w') ∧
    (k.word.t = 0 ∨ k.word.t = 5 ∨ k.word.t = e + 1 → e < 4 → w.asked = none → w.sent = false →
      commandOk t e w (tOpcode v) (tFieldsOf v) = false →
      exec i s = .next (tFault ((s.setTile tc { t with soft := none }).regInc (Reg.tcChk tc) 32) k
        { code := 0x15, detail := e + 256 * w.rep }))) ∧
  (∀ s tc e t x w c r, s.tiles.find tc = some t → t.card = some x → t.walkers[e]? = some w → t.trapped = false → w.asked = none →
    let k : TCtx := { tc := tc, e := e, t := t, x := x, w := w, word := r }
    ∃ u q t', tFault s k c = u ∧ u = { s with tiles := u.tiles, ddx := { s.ddx with recs := s.ddx.recs ++ [q] } } ∧
      u.tiles.find tc = some t' ∧ t'.trapped = true ∧ t'.acc = t.acc ∧
      (∀ w' ∈ t'.walkers, w'.st ≠ .run ∧ w'.st ≠ .wait) ∧
      q.code = c.code ∧ q.detail = c.detail ∧ q.addr = c.addr ∧ q.src = 1 ∧ q.card = x.card ∧ q.gen = x.gen ∧
      q.target = w.count % 2 ^ 32 + 2 ^ 32 * e ∧ q.pc = w.pc.tok.toNat * 2 ^ 32 + w.pc.off ∧ q.notice = false)


/-! ## Register writes with their rows -/

/-- R5, R25, R436: a write of a register that has no effect of its own replaces the written bits of its RW fields, clears the W1C bits
written as 1 and leaves every other bit; a read-only, Governor-only or write-only register keeps its value; no other register and
nothing else changes. A write that does not reach its window does nothing; a service core's of a wrong size or alignment takes a store
access fault. -/
def Claims.RegisterWrites : Prop :=
  (∀ s b q r, BusOne s b q → ¬ ownEffect q.reg → regInfo q.reg = some r →
    ∃ t, exec (.registerWrite b) s = .next t ∧ t = { s with regs := t.regs } ∧ (∀ x, x ≠ q.reg → t.reg x = s.reg x) ∧
      ((r.wo = true ∨ (r.gov = true ∧ b.src ≠ .gov)) → t.reg q.reg = s.reg q.reg) ∧
      (¬ (r.wo = true ∨ (r.gov = true ∧ b.src ≠ .gov)) → ∀ i, i < 64 → (t.reg q.reg).getLsbD i =
        ((if q.mask.testBit i && r.rw.testBit i then q.val.getLsbD i else (s.reg q.reg).getLsbD i) &&
          !(q.mask.testBit i && r.w1c.testBit i && q.val.getLsbD i)))) ∧
  (∀ s b, busReaches s b = false → exec (decodeBus b) s = .next s) ∧
  (∀ s b c, busReaches s b = true → b.src = .svc c → ¬ (b.size = 4 ∧ b.pa.toNat % 4 = 0) → ¬ (b.size = 8 ∧ b.pa.toNat % 8 = 0) →
    exec (decodeBus b) s = .next (svcFault s c.val 7 b.pa.toNat))

/-- R31, R34, R83: DTU_LOAD sets device time while loading is permitted, once, forward and whole, and is refused otherwise; DTU_ADJ
clamps the rate to 500 ppm and reports the clamping; LEASE_CFG clamps a lease to 2 to 512 units. -/
def Claims.TimeAndLeaseWrites : Prop :=
  (∀ s b q, BusOne s b q → q.reg = Reg.dtuLoad →
    (q.bytes = 8 ∧ s.regBit Reg.dtuStatus 4 = true ∧ s.regBit Reg.dtuStatus 5 = false ∧ s.time.hub < q.val.toNat →
      ∃ t, exec (.dtuLoadWrite b) s = .next t ∧ t = { s with time := t.time, regs := t.regs } ∧
        t.time = { s.time with hub := q.val.toNat, loading := [0, 1, 2] } ∧ t.reg Reg.dtuStatus = s.reg Reg.dtuStatus ||| 0x20 ∧
        ∀ x, x ≠ Reg.dtuStatus → t.reg x = s.reg x) ∧
    (¬ (q.bytes = 8 ∧ s.regBit Reg.dtuStatus 4 = true ∧ s.regBit Reg.dtuStatus 5 = false ∧ s.time.hub < q.val.toNat) →
      ∃ t, exec (.dtuLoadWrite b) s = .next t ∧ OnlyReg s t Reg.dtuStatus (s.reg Reg.dtuStatus ||| 8))) ∧
  (∀ s b q, BusOne s b q → q.reg = Reg.dtuAdj →
    let v := signExt (bits q.val 31 0) 32
    ∃ t, exec (.dtuAdjWrite b) s = .next t ∧ OnlyRegs s t [Reg.dtuAdj, Reg.dtuStatus] ∧
      t.reg Reg.dtuAdj = BitVec.ofNat 64 (narrow (max (-2147484) (min 2147484 v)) 32) ∧
      t.reg Reg.dtuStatus = if v < -2147484 ∨ 2147484 < v then s.reg Reg.dtuStatus ||| 2 else s.reg Reg.dtuStatus) ∧
  (∀ s b q d p, d < 2 → p < 16 → BusOne s b q → q.reg = Reg.leaseCfg d p →
    ∃ t, exec (.leaseCfgWrite b) s = .next t ∧ OnlyReg s t q.reg (BitVec.ofNat 64 (max 2 (min 512 (bits q.val 9 0)))))

/-- R76: a GO of SHOOT_CTL while no shoot-down of the die is in progress takes every translation it names out of the die's caches,
keeps every other, and marks the die BUSY until every use of them has been performed; a GO while BUSY is refused. SHOOT_COMPLETE removes
and marks the named entries of tile handles once no tile command uses them, and ends the shoot-down once none of the requests, operations
and leat operations that it waits for is left. -/
def Claims.ShootDowns : Prop :=
  (∀ e ∈ ([(.shootPage, 0), (.shootAsid, 1), (.shootAll, 2)] : List ((BusWrite → Instr) × Nat)), ∀ s b q d, d < 2 → BusOne s b q →
    q.reg = Reg.shootCtl d →
    (s.regBit (Reg.shootStat d) 0 = true →
      ∃ t, exec (e.1 b) s = .next t ∧ OnlyReg s t (Reg.shootStat d) (s.reg (Reg.shootStat d) ||| 2)) ∧
    (s.regBit (Reg.shootStat d) 0 = false →
      let asid := bits q.val 15 0
      let va := (s.reg (Reg.shootVa d)).toNat
      let names := fun (x : TlbEnt) => x.die = d ∧ (e.2 = 2 ∨ (x.asid = asid ∧ (e.2 = 1 ∨ x.covers va = true)))
      ∃ t h, exec (e.1 b) s = .next t ∧ t = { s with ms := t.ms, regs := t.regs } ∧
        (∀ x, x ∈ t.ms.tlb ↔ x ∈ s.ms.tlb ∧ ¬ names x) ∧ t.ms = { s.ms with tlb := t.ms.tlb, shoots := t.ms.shoots } ∧
        t.regBit (Reg.shootStat d) 0 = true ∧ (∀ r, r ≠ Reg.shootStat d → r ≠ Reg.shootCtl d → t.reg r = s.reg r) ∧
        t.ms.shoots.find d = some h ∧
        (∀ i, i ∈ h.waitReqs ↔ ∃ r ∈ s.ms.reqs, r.id = i ∧ r.die = d ∧ ∃ x ∈ s.ms.tlb, names x ∧ x.maps (64 * r.sec) = true))) ∧
  (∀ s d h, s.ev.i = d → s.gov.cmd = none → s.ms.shoots.find d = some h →
    (h.marked = false → handleBusy s d h = false ∧ s.ms.reqs = [] ∧ s.ops = [] ∧ s.lq.reqs = [] ∧ s.lq.waiters = []) →
    (h.marked = true → (∀ i ∈ h.waitReqs, findReq s i = none) ∧ (∀ i ∈ h.waitOps, s.ops.find i = none) ∧
      ∀ i ∈ h.waitLeats, (∀ q ∈ s.lq.reqs, q.id ≠ i) ∧ ∀ w ∈ s.lq.waiters, w.id ≠ i) →
    ∃ t, exec .shootComplete s = .next t ∧ t.ms.shoots.find d = none ∧ t.regBit (Reg.shootStat d) 0 = false ∧
      t.ms.mem = s.ms.mem ∧ t.warps = s.warps ∧ ∀ r, r ≠ Reg.shootStat d → t.reg r = s.reg r) ∧
  (∀ s d h, s.ev.i = d → s.gov.cmd = none → s.ms.shoots.find d = some h → h.marked = false → handleBusy s d h = false →
    ∃ t, exec .shootComplete s = .next t ∧ t = { s with tiles := t.tiles, ms := t.ms, regs := t.regs } ∧
      (∀ g, t.ms.shoots.find d = some g → g.marked = true ∧ h.waitReqs ⊆ g.waitReqs ∧ h.waitOps ⊆ g.waitOps) ∧
      (∀ tc x, s.tiles.find tc = some x → shootTile s d h tc x = true → ∃ y, t.tiles.find tc = some y ∧
        ∀ n g, x.handles.find n = some g → ∃ g', y.handles.find n = some g' ∧ ∀ v ∈ shootPages h g, v ∈ g'.marked)) ∧
  (∀ s d h i, s.ev.i = d → s.gov.cmd = none → s.ms.shoots.find d = some h → h.marked = true ∨ handleBusy s d h = true →
    i ∈ h.waitReqs → (findReq s i).isSome → exec .shootComplete s = .next s)

/-- R132: a command port that is not BUSY forwards one operation to the controller of the leat at LQ_PA, with its arguments and its
element buffer, and is BUSY; nothing else changes. A command while BUSY does nothing. -/
def Claims.LeatPortCommands : Prop :=
  ∀ e ∈ lqCommands, ∀ s b q d c, d < 2 → c < 4 → BusOne s b q → q.reg = Reg.lqCmd d c →
    (s.regBit (Reg.lqStat d c) 31 = true → exec (e.1 b) s = .next s) ∧
    (s.regBit (Reg.lqStat d c) 31 = false → ∃ t r, exec (e.1 b) s = .next t ∧
      t = { s with regs := t.regs, lq := t.lq, next := t.next } ∧ t.reg (Reg.lqStat d c) = BitVec.ofNat 64 (2 ^ 31) ∧
      (∀ x, x ≠ Reg.lqStat d c → t.reg x = s.reg x) ∧ t.lq = { s.lq with reqs := s.lq.reqs ++ [r] } ∧
      r.cb = 64 * bits (s.reg (Reg.lqPa d c)) 63 6 ∧ r.who = .port d c ∧ r.op = e.2 s d c ∧ r.blocking = false ∧
      r.buf = (s.reg (Reg.lqBuf d c)).toNat)

/-- R137, R138, R160, R161: EN of MQ_CFG starts a thread that is OFF, when its space, its shadow and its die are the PID's, and else
leaves it OFF with ERR MQ; its clearing stops the thread, as STOP does. SKIP of a halted thread discards what its shadow holds, RETRY
performs its packet again; both do nothing to a thread that is not halted. ADOPT sets ADOPTING and takes over the other die's queues;
HANDBACK of a processor that adopts nothing only stores its word. -/
def Obligations.MappedQueueCommands : Prop :=
  (∀ s b q d i, d < 2 → i < 32 → BusOne s b q → q.reg = Reg.mqCfg d i →
    let v := mergeReg s q 0x800F0FFFFFFFFFC0
    let s1 := s.setReg (Reg.mqCfg d i) v
    (bit v 63 = true → (thread s d i).st ≠ .off → exec (.mqEnable b) s = .next s1) ∧
    (bit v 63 = true → (thread s d i).st = .off → (thread s d i).stop = false → (thread s d i).kept = false →
      (satpOk (s.reg (Reg.mqSatp d i)) && dramOk s1 (shadowPa s1 d i) && dramOk s1 (shadowPa s1 d i + 2047) &&
        pidHasDie s1 (bits v 51 48) d) = true →
      ∃ t, exec (.mqEnable b) s = .next t ∧ (thread t d i).st = .fetch ∧ (thread t d i).err = 0 ∧ (thread t d i).seq = 0 ∧
        (thread t d i).have_ = 0 ∧ t.reg (Reg.mqCfg d i) = v) ∧
    (bit v 63 = true → (thread s d i).st = .off → (thread s d i).stop = false →
      (satpOk (s.reg (Reg.mqSatp d i)) && dramOk s1 (shadowPa s1 d i) && dramOk s1 (shadowPa s1 d i + 2047) &&
        pidHasDie s1 (bits v 51 48) d) = false →
      ∃ t, exec (.mqEnable b) s = .next t ∧ (thread t d i).st = .off ∧ (thread t d i).err = 9 ∧ t = { s1 with th := t.th }) ∧
    (bit v 63 = false → (thread s d i).st ≠ .adopted → exec (.mqEnable b) s = .next (stopThread s1 d i))) ∧
  (∀ s b q d i, d < 2 → i < 32 → BusOne s b q → q.reg = Reg.mqCtl d i →
    ((thread s d i).st ≠ .halted → exec (.mqSkip b) s = .next s ∧ exec (.mqRetry b) s = .next s) ∧
    ((thread s d i).st = .halted →
      (∃ t, exec (.mqSkip b) s = .next t ∧ (thread t d i).st = .fetch ∧ (thread t d i).have_ = 0 ∧
        (thread t d i).err = (thread s d i).err) ∧
      (∃ t, exec (.mqRetry b) s = .next t ∧ t = { s with th := t.th } ∧
        (thread t d i).st = (if (thread s d i).have_ = 0 then .fetch else .exec) ∧ (thread t d i).idx =
          if (thread s d i).have_ = 0 then 0 else (thread s d i).idx)) ∧
    ((thread s d i).st ≠ .adopted → exec (.mqStop b) s = .next (stopThread s d i))) ∧
  (∀ s d i, (thread s d i).st = .off → stopThread s d i = s) ∧
  (∀ s b q d, d < 2 → BusOne s b q → b.src = .gov → q.reg = Reg.qpAdopt d →
    ((∀ w ∈ s.lq.waiters, ∀ th, w.q.who ≠ .qp (1 - d) th) →
      ∃ t, exec (.adopt b) s = .next t ∧ t = { s with regs := t.regs, th := t.th } ∧
        OnlyRegs { s with th := t.th } t [q.reg, Reg.qpStatus d, Reg.qpStatus (1 - d)] ∧
        t.regBit (Reg.qpStatus d) 1 = true ∧ t.regBit (Reg.qpStatus (1 - d)) 2 = true ∧ t.reg q.reg = mergeReg s q (2 ^ 64 - 1) ∧
        ∀ i, i < 32 → (thread t (1 - d) i).st = .adopted) ∧
    (s.regBit (Reg.qpStatus d) 1 = false →
      ∃ t, exec (.handback b) s = .next t ∧ OnlyReg s t q.reg (mergeReg s q (2 ^ 64 - 1))) ∧
    (s.regBit (Reg.qpStatus d) 1 = true →
      exec (.handback b) s = .next (handBack (s.setReg q.reg (mergeReg s q (2 ^ 64 - 1))) d)))

/-- R149, R151, R162, R163, R165: GRAPH_CFG keeps EN only for a graph whose nodes pass; a trigger of a graph that is disabled or runs is
refused with its code; a job-card word is written only in its RW words and while the card is IDLE or DONE; ACTIVATE takes a valid
periodic card whose release lies ahead, RETIRE clears ACTIVE, and KILL and RESUME act on a card that runs or is held, or report CMD_ERR. -/
def Obligations.GraphAndCardCommands : Prop :=
  (∀ s b q g, g < 64 → BusOne s b q → q.reg = Reg.graphCfg g →
    let v := mergeReg s q 0x8000000FFFFFFFFF
    let s1 := s.setReg (Reg.graphCfg g) v
    (s.regF (Reg.graphStat g) 1 0 = 1 → exec (.graphValidate b) s = .next s) ∧
    (s.regF (Reg.graphStat g) 1 0 ≠ 1 → bit v 63 = false ∨ graphValid s1 g = true → exec (.graphValidate b) s = .next s1) ∧
    (s.regF (Reg.graphStat g) 1 0 ≠ 1 → bit v 63 = true → graphValid s1 g = false →
      ∃ t, exec (.graphValidate b) s = .next t ∧ OnlyRegs s t [Reg.graphCfg g, Reg.graphStat g] ∧
        t.regBit (Reg.graphCfg g) 63 = false ∧ t.regF (Reg.graphCfg g) 62 0 = bits v 62 0 ∧ t.regF (Reg.graphStat g) 11 8 = 1)) ∧
  (∀ s b q g, g < 64 → BusOne s b q → q.reg = Reg.graphTrig g →
    (s.regBit (Reg.graphCfg g) 63 = false → ∃ t, exec (.graphTrigger b) s = .next t ∧
      OnlyReg s t (Reg.graphStat g) (setBits (s.reg (Reg.graphStat g)) 11 8 1)) ∧
    (s.regBit (Reg.graphCfg g) 63 = true → s.regF (Reg.graphStat g) 1 0 = 1 → ∃ t, exec (.graphTrigger b) s = .next t ∧
      OnlyReg s t (Reg.graphStat g) (setBits (s.reg (Reg.graphStat g)) 11 8 2)) ∧
    (s.regBit (Reg.graphCfg g) 63 = true → s.regF (Reg.graphStat g) 1 0 ≠ 1 → bits q.val 63 55 = 0 →
      ∃ t r, exec (.graphTrigger b) s = .next t ∧ t.regF (Reg.graphStat g) 1 0 = 1 ∧ t.regF (Reg.graphStat g) 11 8 = 0 ∧
        t.ddx.graphs.find g = some r ∧ r.bodies = (List.range (s.regF (Reg.graphCfg g) 31 16)).map (nodeBody s g) ∧
        r.counters = (List.range (s.regF (Reg.graphCfg g) 31 16)).map (nodePred s g) ∧ t.ms = s.ms ∧
        ∀ n, n < r.nodes.length → (r.nodes[n]? = some .ready ↔ nodePred s g n = 0) ∧
          (nodePred s g n = 0 → ∃ a ∈ t.ddx.asks, a.src = .node g n ∧ a.pkt = nodeBody s g n))) ∧
  (∀ s b q c k, c < 1024 → k < 16 → BusOne s b q → q.reg = Reg.card c + 8 * k →
    (k < 12 ∧ cardFree s c = true → ∃ t, exec (.jobCardWrite b) s = .next t ∧ OnlyReg s t q.reg (mergeReg s q (2 ^ 64 - 1))) ∧
    (¬ (k < 12 ∧ cardFree s c = true) →
      ∃ t, exec (.jobCardWrite b) s = .next t ∧ OnlyReg s t Reg.ddxStatus (setBits (s.reg Reg.ddxStatus) 0 0 1))) ∧
  (∀ s b q, BusOne s b q → q.reg = Reg.ddxCmd →
    let c := bits q.val 9 0
    (s.gov.holdPids.contains (cardPid s c) = false →
      (cardFree s c = true ∧ cardIsLaunch s c = false ∧ cardValid s c = true ∧ s.time.hub < nextRel s c →
        ∃ t, exec (.activate b) s = .next t ∧ t = { s with regs := t.regs, ddx := t.ddx } ∧ cardActive t c = true ∧
          (∀ x, x ≠ Reg.card c + 112 → t.reg x = s.reg x) ∧ t.ddx = { s.ddx with cards := t.ddx.cards }) ∧
      (¬ (cardFree s c = true ∧ cardIsLaunch s c = false ∧ cardValid s c = true ∧ s.time.hub < nextRel s c) →
        ∃ t, exec (.activate b) s = .next t ∧ OnlyReg s t Reg.ddxStatus (setBits (s.reg Reg.ddxStatus) 1 1 1))) ∧
    (∃ t, exec (.retire b) s = .next t ∧ OnlyReg s t (Reg.card c + 112) (setBits (s.reg (Reg.card c + 112)) 7 7 0)) ∧
    (cardFree s c = true → ∃ t, exec (.ddxKill b) s = .next t ∧ OnlyReg s t Reg.ddxStatus (setBits (s.reg Reg.ddxStatus) 1 1 1)) ∧
    (cardFree s c = false → exec (.ddxKill b) s = .next (killCard s c)) ∧
    (cardState s c ≠ 4 → ∃ t, exec (.ddxResume b) s = .next t ∧
      OnlyReg s t Reg.ddxStatus (setBits (s.reg Reg.ddxStatus) 1 1 1)) ∧
    (cardState s c = 4 → tileOf s c = none → ∃ t, exec (.ddxResume b) s = .next t ∧
      cardState t c = (if (cardSt s c).saved then 3 else 1) ∧ OnlyRegs s t [Reg.card c + 112, Reg.pwrAdm, Reg.ddxStatus] ∧
      t.reg Reg.ddxStatus ∈ [s.reg Reg.ddxStatus, setBits (s.reg Reg.ddxStatus) 2 2 0]))

/-- R173, R174, R209, R212: a write of SLU_CFG stores EN, the window and the lines, the window at most 1000; a change sets CNT and HOLD to
0. OVL_CMD with GO while not BUSY loads an overlay for the core's card or invalidates every overlay of a card or of a PID that is neither
LOADING nor pinned, after which executors that wait for a placement try again; reserved bits give BADARG. -/
def Obligations.SluiceAndOverlayCommands : Prop :=
  (∀ s b q m r, m < 16 → r < 73 → BusOne s b q → q.reg = Reg.sluCfg m r →
    ∃ t, exec (.sluCfgWrite b) s = .next t ∧ t.regF (Reg.sluCfg m r) 31 31 = bits q.val 31 31 ∧
      t.regF (Reg.sluCfg m r) 25 16 = min 1000 (bits q.val 25 16) ∧ t.regF (Reg.sluCfg m r) 15 0 = bits q.val 15 0 ∧
      t.ms.mem = s.ms.mem ∧ t.warps = s.warps ∧
      (heldIds s m r = [] →
        ((s.regBit (Reg.sluCfg m r) 31 = false ∧ bit q.val 31 = true) ∨
          s.regF (Reg.sluCfg m r) 25 0 ≠ t.regF (Reg.sluCfg m r) 25 0 → t.reg (Reg.sluCnt m r) = 0 ∧ t.reg (Reg.sluHold m r) = 0) ∧
        OnlyRegs { s with ms := t.ms } t [Reg.sluCfg m r, Reg.sluCnt m r, Reg.sluHold m r, Reg.sluRun m r])) ∧
  (∀ s b q c, c < 56 → BusOne s b q → q.reg = Reg.ovlCmd c → bit q.val 63 = true → s.regBit (Reg.ovlCmdStat c) 31 = false →
    (bits q.val 27 0 ≠ 0 → ∀ e ∈ ([.ovlCmdLoad, .invalCard, .invalPid] : List (BusWrite → Instr)),
      ∃ t, exec (e b) s = .next t ∧ OnlyReg s t (Reg.ovlCmdStat c) 7) ∧
    (bits q.val 27 0 = 0 →
      exec (.ovlCmdLoad b) s = .next (cmdLoad s c q.val (heldCard s c)) ∧
      (∃ t, exec (.invalCard b) s = .next t ∧ t.reg (Reg.ovlCmdStat c) = 0 ∧ t.ms.mem = s.ms.mem ∧
        (ovWaiters s c = [] → t.ms = s.ms ∧ t.warps = s.warps ∧ t.tiles = s.tiles) ∧
        ∀ o ∈ (istore t c).ovls, o.card = bits q.val 53 44 → o.st = .loading ∨ o.doomed = true) ∧
      (∃ t, exec (.invalPid b) s = .next t ∧ t.reg (Reg.ovlCmdStat c) = 0 ∧ t.ms.mem = s.ms.mem ∧
        (ovWaiters s c = [] → t.ms = s.ms ∧ t.warps = s.warps ∧ t.tiles = s.tiles) ∧
        ∀ o ∈ (istore t c).ovls, o.pid = bits q.val 31 28 → o.st = .loading ∨ o.doomed = true)))

/-- R401, R402: CTX_RESUME lets a trapped warp go on at its word, RESUME_AT at the address in CTX_PC, and KILL ends its lanes; the last
two unpin the overlays that it leaves, which can go, and let executors that wait for a placement try again (R204, R207); a warp that is not there, or not trapped, is reported and nothing changes; SKIP is a command of a path coverage engine. -/
def Claims.ContextCommands : Prop :=
  ∀ s b q p, p < 4 → BusOne s b q → q.reg = Reg.ctxCmd p → s.regBit (Reg.ctxStat p) 31 = false →
    let id := s.reg (Reg.ctxId p)
    let c := bits id 9 0
    let a := ovAddr (s.reg (Reg.ctxPc p))
    bits id 12 10 = 0 → cardGen s c = bits id 31 16 →
    (∀ i w, findWarp s c (bits id 31 16) (s.reg (Reg.ctxTarget p)).toNat = some (i, w) →
      (w.st = .trapped →
        (∃ t, exec (.ctxResume b) s = .next t ∧ t = { s with warps := t.warps, regs := t.regs } ∧ t.reg (Reg.ctxStat p) = 0 ∧
          t.warps.find i = some { w with st := .ready, trap := none } ∧ ∀ j, j ≠ i → t.warps.find j = s.warps.find j) ∧
        (∃ t w', exec (.ctxResumeAt b) s = .next t ∧ t.ms.mem = s.ms.mem ∧ t.reg (Reg.ctxStat p) = 0 ∧
          (w.place = none ∨ ((∀ o ∈ (istore s (warpCore w)).ovls, o.doomed = false) ∧ ovWaiters s (warpCore w) = []) →
            t = { s with warps := t.warps, regs := t.regs } ∧ ∀ j, j ≠ i → t.warps.find j = s.warps.find j) ∧
          t.warps.find i = some w' ∧ w'.st = .ready ∧ w'.clause = none ∧
          ∀ l k, l < 32 → w.clause = some k → laneGet zeroAddr w'.pc l =
            if laneIn (k.lanes &&& w.liveMask) l then a else laneGet zeroAddr w.pc l) ∧
        (∃ t w', exec (.ctxKill b) s = .next t ∧ t.ms.mem = s.ms.mem ∧ t.reg (Reg.ctxStat p) = 0 ∧
          (w.place = none ∨ ((∀ o ∈ (istore s (warpCore w)).ovls, o.doomed = false) ∧ ovWaiters s (warpCore w) = []) →
            t = { s with warps := t.warps, regs := t.regs } ∧ ∀ j, j ≠ i → t.warps.find j = s.warps.find j) ∧
          t.warps.find i = some w' ∧ w'.liveMask = 0 ∧ w'.st = .ready ∧ w'.killed = true ∧ w'.held = w.held)) ∧
      (w.st ≠ .trapped → ∀ e ∈ ([.ctxResume, .ctxResumeAt, .ctxKill] : List (BusWrite → Instr)),
        ∃ t, exec (e b) s = .next t ∧ OnlyReg s t (Reg.ctxStat p) 2)) ∧
    (findWarp s c (bits id 31 16) (s.reg (Reg.ctxTarget p)).toNat = none →
      ∀ e ∈ ([.ctxResume, .ctxResumeAt, .ctxKill] : List (BusWrite → Instr)),
        ∃ t, exec (e b) s = .next t ∧ OnlyReg s t (Reg.ctxStat p) 1) ∧
    (∃ t, exec (.ctxSkip b) s = .next t ∧ OnlyReg s t (Reg.ctxStat p) 3)

/-- R386, R401: SKIP of a trapped path coverage engine ends the command at which it trapped; the engine waits for its end and goes on
with the next one; one whose card is being torn down is no longer trapped. -/
def Claims.PathSkip : Prop :=
  ∀ s b q p d x, p < 4 → BusOne s b q → q.reg = Reg.ctxCmd p → s.regBit (Reg.ctxStat p) 31 = false →
    bits (s.reg (Reg.ctxId p)) 12 10 = 2 → cardGen s (bits (s.reg (Reg.ctxId p)) 9 0) = bits (s.reg (Reg.ctxId p)) 31 16 →
    findPce s (bits (s.reg (Reg.ctxId p)) 9 0) = some (d, x) → x.st = .trapped →
    let tear := (cardSt s (bits (s.reg (Reg.ctxId p)) 9 0)).tear
    (tear = true → ∃ t, exec (.ctxSkip b) s = .next t ∧ OnlyReg s t (Reg.ctxStat p) 2) ∧
    (tear = false → x.back ≠ .header → ∃ t, exec (.ctxSkip b) s = .next t ∧ t = { s with pces := t.pces, regs := t.regs } ∧
      t.reg (Reg.ctxStat p) = 0 ∧ t.pces.find d = some { x with st := .wait, ecc := none, spawns := [] }) ∧
    (tear = false → x.back = .header → ∃ t, exec (.ctxSkip b) s = .next t ∧ OnlyReg s t (Reg.ctxStat p) 3)

/-- R406, R407, R412, R416, R417, R419: the Governor's commands. ASSIGN writes both PID maps; MERGE and SPLIT of a mask that is not theirs,
RESTART_PID, RESTART_CTL and RESTART_DEVICE with an argument outside its range are refused with BADARG; a RESTART_PID within 100 us of
the last is TOOSOON; RESTART_CTL stays BUSY until its die is restarted; a snapshot is armed; BOOT_OK ends the wait of a start. A command
while BUSY is ignored. -/
def Obligations.GovernorCommands : Prop :=
  (∀ s b q, BusOne s b q → q.reg = Reg.govCmd → s.regBit Reg.govStat 31 = true →
    ∀ e ∈ ([.govAssign, .merge, .split, .restartPid, .restartCtl, .govSnapshot, .bootOk, .restartDevice] : List (BusWrite → Instr)),
      exec (e b) s = .next s) ∧
  (∀ s b q, BusOne s b q → q.reg = Reg.govCmd → s.regBit Reg.govStat 31 = false → s.gov.warm = false →
    let a := (s.reg Reg.govArg0).toNat
    (a < 256 → a / 16 < 4 → s.gov.minimal = false → pidsBusy s [a % 16] = none →
      ∃ t, exec (.govAssign b) s = .next t ∧ OnlyRegs s t [Reg.govPidmap, Reg.ddxPidmap, Reg.govStat] ∧ t.reg Reg.govStat = 0 ∧
        pidPart t (a % 16) = some (partOfQ s (a / 16)) ∧ (∀ p, p < 16 → p ≠ a % 16 → pidPart t p = pidPart s p) ∧
        t.regF Reg.ddxPidmap (4 * (a % 16) + 3) (4 * (a % 16)) = partOfQ s (a / 16)) ∧
    (256 ≤ a ∨ (4 ≤ a / 16 ∧ a / 16 ≠ 15) → ∃ t, exec (.govAssign b) s = .next t ∧ OnlyReg s t Reg.govStat 1) ∧
    (∀ n, a < 256 → a / 16 < 4 → s.gov.minimal = false → pidsBusy s [a % 16] = some n →
      ∃ t, exec (.govAssign b) s = .next t ∧ OnlyReg s t Reg.govStat (BitVec.ofNat 64 n)) ∧
    (a ≠ 3 → a ≠ 12 → a ≠ 15 → ∀ e ∈ ([.merge, .split] : List (BusWrite → Instr)),
      ∃ t, exec (e b) s = .next t ∧ OnlyReg s t Reg.govStat 1) ∧
    (∀ e ∈ ([(.merge, GovCmd.merge a, mergeOk s a), (.split, GovCmd.split a, splitOk s a)] :
        List ((BusWrite → Instr) × GovCmd × Bool)), e.2.2 = true → s.gov.minimal = false → pidsBusy s (maskPids s a) = none →
      leatHeld s (rehomed s e.2.1) = false → s.ms.dir = [] → s.ms.hc = [] →
      ∃ t, exec (e.1 b) s = .next t ∧ t.regBit Reg.govStat 31 = true ∧ t.gov.cmd = some e.2.1 ∧ t.gov.emptying = true ∧
        t.gov.holdSlices = rehomed s e.2.1 ∧ t.gov.holdPids = maskPids s a ∧ t.reg Reg.govPart = s.reg Reg.govPart) ∧
    (16 ≤ a → ∃ t, exec (.restartPid b) s = .next t ∧ OnlyReg s t Reg.govStat 1) ∧
    (a < 16 → tooSoon s a = true → ∃ t, exec (.restartPid b) s = .next t ∧ OnlyReg s t Reg.govStat 6) ∧
    (a < 16 → tooSoon s a = false → ∃ t n, exec (.restartPid b) s = .next t ∧ t.reg Reg.govStat = 0 ∧
      t.gov.pidRestart.find a = some n ∧ ((∀ c ∈ knownCards s, cardPid s c = a → cardFree s c = true) → n = s.time.hub)) ∧
    (2 ≤ a → ∀ e ∈ ([.restartCtl, .restartDevice] : List (BusWrite → Instr)),
      ∃ t, exec (e b) s = .next t ∧ OnlyReg s t Reg.govStat 1) ∧
    (a < 2 → ∃ t, exec (.restartCtl b) s = .next t ∧ t.regBit Reg.govStat 31 = true ∧ t.gov.cmd = some (.restartCtl a) ∧
      (t.gov.qpRestart.find a).isSome) ∧
    (∃ t, exec (.govSnapshot b) s = .next t ∧ t.reg Reg.govStat = 0 ∧ OnlyRegs { s with gov := t.gov } t [Reg.govSnapT, Reg.govStat] ∧
      ∃ n, t.gov = { s.gov with snapArmed := some n, snapDies := [] } ∧ a ≤ n ∧ s.time.hub ≤ n ∧
        (∀ l, s.gov.lastLatch = some l → s.time.hub < l + 100000 → l + 100000 ≤ n)) ∧
    (s.gov.holdReset = false → ∃ t, exec (.bootOk b) s = .next t ∧ OnlyRegs { s with gov := t.gov } t [Reg.govMode, Reg.govStat] ∧
      t.gov = { s.gov with released := none } ∧ t.reg Reg.govStat = 0 ∧ t.regF Reg.govMode 1 0 = (if s.gov.minimal then 2 else 1) ∧
      (s.gov.minimal = false → t.regF Reg.govMode 11 8 = 0)) ∧
    (a = 0 → exec (.restartDevice b) s = .next (newStart s))) ∧
  (∀ s b q, BusOne s b q → q.reg = Reg.govSnapT → mergeReg s q (2 ^ 64 - 1) = 0 →
    ∃ t, exec (.govSnapTWrite b) s = .next t ∧ OnlyReg { s with gov := t.gov } t Reg.govSnapT 0 ∧
      t.gov = { s.gov with snapArmed := none, snapDies := [] })


/-! ## Packets and path commands -/

/-- R135, R138, R145, R147, R158: how a packet ends. Its completion leaves STAGE EMPTY and the thread at FETCH, or STAGE BEGUN at the next
packet of its arm; a halt leaves STAGE HALTED, ERR and the packet's TAG, and raises vector 2 of its PID's cluster; a block leaves STAGE
BLOCKED unless an effect has been sent. STAGE is written with release: it stands in the shadow, whose first 16 bytes alone have changed,
or the thread owes it. -/
def Claims.PacketOutcomes : Prop :=
  ∀ s d th, let t := thread s d th
    (t.armLeft = 0 → ∃ u, Completed s u d th ∧ Staging s u d th 0 0 ∧ (thread u d th).seq = t.seq ∧ ThreadFrame s u d th []) ∧
    (t.armLeft ≠ 0 → ∃ u, Completed s u d th ∧ Staging s u d th 1 (t.idx + 1) ∧ ThreadFrame s u d th []) ∧
    (∀ n p, ∃ u, qpHalt s d th n p = u ∧ Staging s u d th 4 t.idx ∧ (thread u d th).st = .halted ∧ (thread u d th).err = n ∧
      (thread u d th).tag = bits p.w0 63 32 ∧ ThreadFrame s u d th [Reg.clIpend (pidCluster s (qPid s d th)) 0] ∧
      u.regBit (Reg.clIpend (pidCluster s (qPid s d th)) 0) 2 = true) ∧
    (∀ b, t.issued = false → ∃ u, qpBlock s d th b = u ∧ Staging s u d th 3 t.idx ∧ (thread u d th).st = .blocked ∧
      ThreadFrame s u d th []) ∧
    (∀ b, t.issued = true → ∃ u, qpBlock s d th b = u ∧ u = { s with th := u.th } ∧ (thread u d th).st = .blocked ∧
      (thread u d th).blk = some b)

/-- R139 to R141, R143 to R147: NOP completes; a LAUNCH whose card is free and whose reads succeed sends its release to the DDX, and ends by
the DDX's answer, or, when it is not ASYNC, when the work has ended; a WAIT completes when its test holds, and blocks until it does or
TIMEOUT is reached; a PRED takes the arm that its test selects; a TRIGGER starts its graph and completes, or waits for the run it started.
A packet with a bad field halts with ERR 1, one whose reads fault with ERR 4. -/
def Claims.PacketWords : Prop :=
  (∀ s d th u p, Performs s d th u →
    (nopFields p = true → ∃ t, exec (.pktNop p) s = .next t ∧ Completed u t d th) ∧
    (nopFields p = false → exec (.pktNop p) s = .next (qpHalt u d th 1 p))) ∧
  (∀ s d th u p, Performs s d th u → let x := thread u d th; let who := Launcher.queue (thDie d th) (th % 32) x.pktSeq th
    (x.blk = none ∨ x.blk = some .card →
      (x.prep = none → launchFields p = false → exec (.launch p) s = .next (qpHalt u d th 1 p)) ∧
      (x.prep = none → launchFields p = true → launchCardOk u p (qPid u d th) = false → exec (.launch p) s = .next (qpHalt u d th 3 p)) ∧
      (x.prep = none → launchFields p = true → launchCardOk u p (qPid u d th) = true → ∀ n s1,
        launchPrep u p d (100 + d) who = (.err n, s1) → exec (.launch p) s = .next (qpHalt s1 d th n p)) ∧
      (∀ r s2, (x.prep = some r ∧ s2 = u) ∨
          (x.prep = none ∧ launchFields p = true ∧ launchCardOk u p (qPid u d th) = true ∧
            ∃ s1, launchPrep u p d (100 + d) who = (.ok r, s1) ∧ s2 = setThread s1 d th { thread s1 d th with prep := some r }) →
        (acceptedAs s2 d th = none → cardFree s2 (lCard p) = false → exec (.launch p) s = .next (qpBlock s2 d th .card)) ∧
        ((acceptedAs s2 d th).isSome = true ∨ cardFree s2 (lCard p) = true → ∀ v, Sends s2 v d th →
          ∃ t a, exec (.launch p) s = .next t ∧ t = { v with ddx := t.ddx, th := t.th, next := t.next } ∧
            t.ddx = { v.ddx with asks := v.ddx.asks ++ [a] } ∧ a.src = r.launcher ∧ a.card = lCard p ∧ a.rel = some r ∧
            (thread t d th).st = .blocked ∧ (thread t d th).blk = some .ask))) ∧
    (∀ a, x.blk = some .ask → x.ans = some a →
      (a.status ≠ 0 → exec (.launch p) s = .next (qpHalt u d th a.status p)) ∧
      (a.status = 0 → bit p.w0 8 = true → ∃ t, exec (.launch p) s = .next t ∧ Completed u t d th) ∧
      (a.status = 0 → bit p.w0 8 = false → ∀ c g, acceptedAs u d th = some (c, g) →
        exec (.launch p) s = .next (qpBlock (setThread u d th { x with ans := none }) d th (.work c g)))) ∧
    (∀ c g, x.blk = some (.work c g) → ∃ t, exec (.launch p) s = .next t ∧ Completed u t d th)) ∧
  (∀ s d th u p, Performs s d th u →
    (waitFields p = false → exec (.wait p) s = .next (qpHalt u d th 1 p)) ∧
    (waitFields p = true → p.w1 ≠ 0 →
      (∀ c r s1, translate u (qSpace u d th) p.w1.toNat .read = (.trap c r, s1) → ∃ t, exec (.wait p) s = .next t ∧ t = qpHalt s1 d th 4 p) ∧
      ∀ pa s1 s2, translate u (qSpace u d th) p.w1.toNat .read = (.ok pa, s1) → homeRead s1 (71 + d) (qPid s1 d th) (pa / 64) = (true, s2) →
        (testWord p (mem64 s2 pa) = true → ∃ t, exec (.wait p) s = .next t ∧ Completed s2 t d th) ∧
        (testWord p (mem64 s2 pa) = false → ∀ v, qpBlock s2 d th (.cond (u.now d + 1000) (pa / 64) false) = v →
          (p.w4 = 0 ∨ v.now d < p.w4.toNat → exec (.wait p) s = .next v) ∧
          (p.w4 ≠ 0 → p.w4.toNat ≤ v.now d → bit p.w0 11 = false → ∃ t, exec (.wait p) s = .next t ∧ Completed v t d th) ∧
          (p.w4 ≠ 0 → p.w4.toNat ≤ v.now d → bit p.w0 11 = true → exec (.wait p) s = .next (qpHalt v d th 5 p)))) ∧
    (waitFields p = true → p.w1 = 0 → p.w4.toNat ≤ u.now d → ∃ t, exec (.wait p) s = .next t ∧ Completed u t d th) ∧
    (waitFields p = true → p.w1 = 0 → u.now d < p.w4.toNat → exec (.wait p) s = .next (qpBlock u d th (.cond 0 0 false)))) ∧
  (∀ s d th u p, Performs s d th u → (thread u d th).idx = 0 →
    let n := 1 + bits p.w0 23 16 + bits p.w0 31 24
    (predFields p = false → exec (.pred p) s = .next (qpHalt u d th 1 p)) ∧
    (predFields p = true → (thread u d th).have_ < n → ∃ t, exec (.pred p) s = .next t ∧ t = { u with th := t.th } ∧
      (thread t d th).st = .fetch ∧ (thread t d th).gather = n - (thread u d th).have_) ∧
    (predFields p = true → n ≤ (thread u d th).have_ → ∀ v, qpReads u d th (List.range n) = (true, v) →
      let arms := (List.range (n - 1)).map fun k => shadowPkt v d th (k + 1)
      (arms.all armFields = false → exec (.pred p) s = .next (qpHalt v d th 1 p)) ∧
      (arms.all armFields = true → ∀ w, arms.foldl (fun a q => prefetch a d q) v = w →
        (∀ c r s1, translate w (qSpace w d th) p.w1.toNat .read = (.trap c r, s1) → exec (.pred p) s = .next (qpHalt s1 d th 4 p)) ∧
        ∀ pa s1 s2, translate w (qSpace w d th) p.w1.toNat .read = (.ok pa, s1) →
          homeRead s1 (71 + d) (qPid s1 d th) (pa / 64) = (true, s2) →
          let yes := testWord p (mem64 s2 pa)
          let left := if yes then bits p.w0 23 16 else bits p.w0 31 24
          ∃ t, exec (.pred p) s = .next t ∧ t = takeArm s2 d th p yes ∧
            (left = 0 → (thread t d th).st = .fetch) ∧
            (left ≠ 0 → (thread t d th).st = .exec ∧ (thread t d th).armLeft = left - 1 ∧
              (thread t d th).idx = (if yes then (thread s2 d th).idx else bits p.w0 23 16) + 1)))) ∧
  (∀ s d th u p, Performs s d th u →
    ((∀ g r, (thread u d th).blk ≠ some (.graphRun g r)) →
      (trigFields p = false → exec (.trigger p) s = .next (qpHalt u d th 1 p)) ∧
      (trigFields p = true →
        (∀ c r s1, translate u (qSpace u d th) p.w1.toNat .read = (.trap c r, s1) → exec (.trigger p) s = .next (qpHalt s1 d th 4 p)) ∧
        ∀ pa s1 v s2 n s3, translate u (qSpace u d th) p.w1.toNat .read = (.ok pa, s1) → Sends s1 v d th → acceptedAs v d th = none →
          let g := bits p.w0 21 16
          readPatches v g (tNp p) pa = (true, s2) → triggerGraph s2 g (tNp p) pa = (n, s3) →
          (n = 0 → ∀ s4, s3.withDdx { s3.ddx with
              ids := s3.ddx.ids ++ [(thDie d th, th % 32, (thread s3 d th).pktSeq, 1024 + g, s2.regF (Reg.graphStat g) 63 32)] } = s4 →
            (bit p.w0 8 = false → ∃ t, exec (.trigger p) s = .next t ∧ Completed s4 t d th) ∧
            (bit p.w0 8 = true → s4.regF (Reg.graphStat g) 63 32 = s2.regF (Reg.graphStat g) 63 32 →
              exec (.trigger p) s = .next (qpBlock s4 d th (.graphRun g (s2.regF (Reg.graphStat g) 63 32))))) ∧
          (n = 2 → exec (.trigger p) s = .next (qpBlock s3 d th (.graphFree g))) ∧
          (n ≠ 0 → n ≠ 2 → exec (.trigger p) s = .next (qpHalt s3 d th 6 p)))) ∧
    (∀ g r, (thread u d th).blk = some (.graphRun g r) → ∃ t, exec (.trigger p) s = .next t ∧ Completed u t d th))

/-- R146: a SIGNAL, its STAGE ISSUED written and its release performed, stores W2 at its address, adds W2 to the u64 there, raises its
vector, and completes, or sends its element to its leat's controller and completes on the answer OK; any other answer halts with ERR 8. An
ADD to a poisoned sector changes nothing. -/
def Claims.SignalWords : Prop :=
  (∀ e ∈ ([(.signalStore, 0), (.signalAdd, 1)] : List ((Rec64 → Instr) × Nat)), ∀ s d th u v p pa s1 s2, Performs s d th u →
    signalFields p = true → sKind p = e.2 → Sends u v d th →
    translate v (qSpace v d th) p.w1.toNat .write = (.ok pa, s1) →
    writeSector s1 (qSpace v d th).requester (qSpace v d th).pid (pa / 64) false = (true, s2) →
    (e.2 = 1 → poisoned s2 (pa / 64) = true → ∃ t, exec (e.1 p) s = .next t ∧ Completed s2 t d th) ∧
    ((e.2 = 1 → poisoned s2 (pa / 64) = false) →
      let x := if e.2 = 1 then mem64 s2 pa + p.w2 else p.w2
      ∃ w t, exec (e.1 p) s = .next t ∧ Completed w t d th ∧
        w = { s2 with regs := w.regs, ms := w.ms, th := w.th, lq := w.lq, next := w.next, qpch := w.qpch } ∧ HomeFrame s2 w [] ∧
        ∀ a, w.ms.mem.read a = if pa ≤ a ∧ a < pa + 8 then (leBytes 8 x.toNat).getD (a - pa) 0 else s2.ms.mem.read a)) ∧
  (∀ s d th u v p, Performs s d th u → signalFields p = true → sKind p = 3 → Sends u v d th →
    ∃ t, exec (.signalIntr p) s = .next t ∧ Completed (raiseVec v (bits p.w2 3 0) (bits p.w2 11 4)) t d th) ∧
  (∀ s d th u v p, Performs s d th u → signalFields p = true → sKind p = 2 → Sends u v d th → (thread s d th).blk = none →
    ∃ t r, exec (.signalEnq p) s = .next t ∧ t = { v with lq := t.lq, th := t.th, next := t.next } ∧
      t.lq = { v.lq with reqs := v.lq.reqs ++ [r] } ∧ r.cb = p.w1.toNat ∧
      r.op = .enq (leBytes 8 p.w2.toNat ++ leBytes 8 p.w3.toNat) ∧ r.blocking = true ∧ r.who = .qp d th ∧
      (thread t d th).st = .blocked ∧ (thread t d th).blk = some .leat) ∧
  (∀ s d th u p a, Performs s d th u → (thread s d th).blk = some .leat → (thread s d th).ans = some a →
    (a.trap = none ∧ a.status = 0 → ∃ t, exec (.signalEnq p) s = .next t ∧ Completed u t d th) ∧
    (¬ (a.trap = none ∧ a.status = 0) → exec (.signalEnq p) s = .next (qpHalt u d th 8 p))) ∧
  (∀ e ∈ ([.signalStore, .signalAdd, .signalIntr] : List (Rec64 → Instr)), ∀ s d th u p, Performs s d th u → signalFields p = false →
    exec (e p) s = .next (qpHalt u d th 1 p)) ∧
  (∀ s d th u p, Performs s d th u → signalFields p = false → (thread s d th).blk = none →
    exec (.signalEnq p) s = .next (qpHalt u d th 1 p))

/-- R382 to R385: a path command begins with the checks of its record, its surface and its translations, and traps PATH_FMT at the first
that fails; then PCLR puts zeros over the cells one after another, PFILL puts two reductions a piece on their way, and PRSV resolves and
writes one row at a time, marks the elements from a poisoned cell on, and with CLR puts zeros over the row's cells; the command is awaited
once its last unit is issued. -/
def Obligations.PathCommands : Prop :=
  (∀ e ∈ ([(.pclr, 1), (.pfill, 2), (.prsv, 3)] : List ((Rec64 → Instr) × Nat)), ∀ s d p r, Draws s d p → p.st = .command →
    (cmdOk r = false → ∃ t x q, exec (e.1 r) s = .next t ∧ t = { endUnit s d with pces := t.pces, ddx := t.ddx } ∧ t.pces.find d = some x ∧
      x.st = .trapped ∧ t.ddx = { s.ddx with recs := s.ddx.recs ++ [q] } ∧ q.code = 0x18 ∧ q.detail = 7 ∧ q.addr = 0 ∧ q.src = 2 ∧
      q.card = pceCard p) ∧
    (cmdOk r = true → cOp r = e.2 → cSpawn r = false →
      let s0 := s.setPce d { p with cmd := some r, surf := [] }
      ∀ f s1 s2, readChecked s0 (pceSpace s d (pceCard p)) r.w1.toNat 8 = (.ok f, s1) →
      surfOk f (decide (e.2 = 3)) = true → cmdPages s1 (pceSpace s d (pceCard p)) r f = (none, s2) →
      ∃ t x, exec (e.1 r) s = .next t ∧ t = { endUnit s2 d with pces := t.pces } ∧ t.pces.find d = some x ∧ x.st = .running ∧ x.cmd = some r ∧
        x.surf = f ∧ x.pos = 0 ∧ x.open_ = false ∧ x.card = p.card ∧ x.idx = p.idx)) ∧
  (∀ s d p r pa s1, Draws s d p → p.st = .running →
    translateAll s (pceSpace s d (pceCard p)) .write [cellVa p.surf (p.pos % sfW p.surf) (p.pos / sfW p.surf)] = (.ok [pa], s1) →
    ∃ t, exec (.pclr r) s = .next t ∧
      t = { s1 with regs := t.regs, pces := t.pces, ms := t.ms, th := t.th, lq := t.lq, next := t.next } ∧ HomeFrame s1 t [] ∧
      (∀ a, t.ms.mem.read a = s1.ms.mem.read a) ∧
      t.pces.find d = some { p with pos := p.pos + 1, st := if p.pos + 1 < sfW p.surf * sfH p.surf then .running else .wait } ∧
      (∀ i, i < 8 → ∃ q ∈ t.ms.reqs, q.agent = .pce d ∧ q.sec = (pa + i) / 64 ∧ ∃ bs, q.kind = .engine bs false ∧ (pa + i, 0) ∈ bs)) ∧
  (∀ s d p r, Draws s d p → p.st = .running → p.cmd = some r → p.open_ = false → cNrec r ≤ p.pos →
    ∃ t, exec (.pfill r) s = .next t ∧ t = { s with pces := t.pces } ∧
      t.pces.find d = some { p with st := if cSpawn r then .spawn else .wait }) ∧
  (∀ s d p r g segs pas s1, Draws s d p → p.st = .running → p.cmd = some r → p.open_ = true → p.segs = g :: segs → cSpawn r = false →
    let vs := flatten p.cur p.startPt g
    let l := (polyPieces p.cur vs).filterMap (clip (sfX0 p.surf) (sfY0 p.surf) (sfW p.surf) (sfH p.surf))
    translateAll s (pceSpace s d (pceCard p)) .write (l.map fun e => cellVa p.surf e.1 e.2.1) = (.ok pas, s1) →
    ∃ t qs, exec (.pfill r) s = .next t ∧ t.ms = { s1.ms with reqs := s1.ms.reqs ++ qs, rdc := t.ms.rdc } ∧
      qs.map (fun q => (q.agent, q.kind)) = (l.zip pas).flatMap (fun e =>
        [(Agent.pce d, ReqKind.red .add false 4 e.2 (BitVec.ofNat 64 (narrow e.1.2.2.1 32))),
         (Agent.pce d, ReqKind.red .add false 4 (e.2 + 4) (BitVec.ofNat 64 (narrow e.1.2.2.2 32)))]) ∧
      t.pces.find d = some { p with segs := segs, cur := vs.getLast?.getD p.cur }) ∧
  (∀ s d p r pas outs s1 s2 s3 s4, Draws s d p → p.st = .running →
    let sp := pceSpace s d (pceCard p)
    let cols := List.range (sfW p.surf)
    translateAll s sp (cellAcc 3 p.surf) (cols.map fun i => cellVa p.surf i p.pos) = (.ok pas, s1) →
    translateAll s1 sp .write (cols.map fun i => outVa p.surf i p.pos) = (.ok outs, s2) →
    cellSectors s2 d sp.pid (pas.map fun pa => pa / 64) = (true, s3) →
    (if sfClr p.surf then rewriteSectors s3 (69 + d) sp.pid (pas.foldl (fun (a : List Nat) x => insertNat (x / 64) a) []) = (true, s4)
     else s4 = s3) →
    let vs := (resolveRow (sfRule p.surf) 0 (pas.map fun pa => ((mem32 s4 pa).toNat, (mem32 s4 (pa + 4)).toNat))).map
      (elemOf (sfU8 p.surf))
    let n := sfElem p.surf
    let bs := (outs.zip vs).flatMap fun e => bytesAt e.1 (leBytes n (narrow e.2 (8 * n)))
    let poi := pas.map fun pa => poisoned s4 (pa / 64)
    let bad := fun a => (outs.zip (badFrom false poi)).any fun e => e.2 && decide (e.1 ≤ a ∧ a < e.1 + n)
    ∃ t x, exec (.prsv r) s = .next t ∧
      (∀ a, t.ms.mem.read a = if sfClr p.surf && pas.any (fun pa => decide (pa ≤ a ∧ a < pa + 8)) then 0 else s4.ms.mem.read a) ∧
      (∀ e ∈ bs, ∃ q ∈ t.ms.reqs, q.agent = .pce d ∧ q.sec = e.1 / 64 ∧
        q.kind = .engine (bs.filter fun b => decide (b.1 / 64 = e.1 / 64))
          ((bs.filter fun b => decide (b.1 / 64 = e.1 / 64)).any fun b => bad b.1)) ∧
      t.pces.find d = some x ∧ (sfClr p.surf = false → x.ch = p.ch) ∧
      x = { p with pos := p.pos + 1, st := if p.pos + 1 < sfH p.surf then .running else .wait, ch := x.ch
                   ecc := if p.ecc.isSome then p.ecc else ((pas.zip poi).find? fun e => e.2).map (·.1) })

/-! ## Events of the Governor and the package -/

/-- R28, R414, R416: what starts the device again. Power-on sets device time to 0 and clears memory and every register but FAILS and
CAUSE; a loss of power clears these too. BOOT_TMO acts 60 s after the release of the service cores while MODE still says starting. A
second lockstep mismatch within 10 ms, a link that fails to retrain and a die at 125 degrees restart the device with their causes. A
start with no results at hand leaves the device held in reset with memory and device time as they were; one that reaches step 5 leaves no
copy of device time behind the DTU's count. -/
def Obligations.DeviceStarts : Prop :=
  (∀ s, ∃ t u, exec .powerOnReset s = .next t ∧ t = newStart u ∧ u.time = Times.reset ∧ u.ms.mem = [] ∧ u.ms.poison = [] ∧
    u.regF Reg.govMode 11 8 = s.regF Reg.govMode 11 8 ∧ u.regF Reg.govMode 23 16 = s.regF Reg.govMode 23 16 ∧
    (∀ r, r ≠ Reg.govMode → u.reg r = regReset r) ∧ u.warps = [] ∧ u.tiles = [] ∧ u.pces = []) ∧
  (∀ s, ∃ t, exec .powerLoss s = .next t ∧ t.time = Times.reset ∧ t.ms = MemSys.reset ∧ (∀ r, t.reg r = regReset r) ∧
    t.gov.holdReset = true ∧ t.warps = [] ∧ t.tiles = [] ∧ t.pces = []) ∧
  (∀ s τ, s.gov.released = some τ →
    (s.regF Reg.govMode 1 0 = 0 ∧ τ + 60000000000 ≤ s.now 3 → ∃ t, exec .bootTmo s = .next t ∧ Restarts s t 5) ∧
    (¬ (s.regF Reg.govMode 1 0 = 0 ∧ τ + 60000000000 ≤ s.now 3) → exec .bootTmo s = .next s)) ∧
  (∀ s τ, s.gov.lastMismatch = some τ → s.now 3 ≤ τ + 10000000 → ∃ t u, exec .lockstepMismatch s = .next t ∧
    OnlyReg s u Reg.govLock (BitVec.ofNat 64 (satInc (s.reg Reg.govLock).toNat 32)) ∧ Restarts u t 8) ∧
  (∀ s, ∃ t, exec .linkRetrainFail s = .next t ∧ Restarts s t 9) ∧
  (∀ s d, s.ev.i = d → d < 2 →
    (125 ≤ s.regF (Reg.opStat d) 15 8 → ∃ t u, exec .thermTrip s = .next t ∧
      Posted { s with dieOff := insertNat d s.dieOff } u 5 0 d (s.regF (Reg.opStat d) 15 8) ∧ Restarts u t 10) ∧
    (s.regF (Reg.opStat d) 15 8 < 125 → exec .thermTrip s = .next s)) ∧
  (∀ u, u.starts = [] → (newStart u).gov.holdReset = true ∧ (newStart u).ms.mem = u.ms.mem ∧ (newStart u).time = u.time ∧
    (newStart u).warps = [] ∧ (newStart u).tiles = [] ∧ (newStart u).pces = [] ∧ (newStart u).lq = Leats.reset ∧
    (newStart u).gov.minimal = decide (3 ≤ u.regF Reg.govMode 11 8)) ∧
  (∀ u v x l, u.starts = x :: l → runSteps (beginStart u) x = .up v → newStart u = { v with starts := l } ∧
    (newStart u).gov.holdReset = false ∧ (newStart u).gov.released = some (u.now 3) ∧ ∀ c, c < 3 → u.now 3 ≤ (newStart u).now c)

/-- R405, R408, R419: a silent DDX restarts the device; two equal samples of a queue processor's heartbeat 20 us apart, and a silent
distributor, restart the die's control (one that minimal mode keeps in reset, R417, is not judged: the model's reading, log 84); an excess of skew is posted; a missed heartbeat of a service cluster is posted, and the third
with HBRESET restarts the device. Each action follows a snapshot. A DDX report is posted, and under RESTART the PID is restarted
(where no restart of it is too recent). A first lockstep mismatch restarts the Governor alone and ends its command with ABORTED. -/
def Claims.GovernorSupervision : Prop :=
  (∀ s, Judges s → ∃ t, exec .ddxSilence s = .next t ∧ Supervises s t (.deviceRestart 6)) ∧
  (∀ s d v τ, s.ev.i = d → d < 2 → Judges s → qpUp s d = true → s.gov.qpRestart.find d = none → s.gov.hb.find d = some (v, τ) → τ + 20000 ≤ s.now 3 →
    (v ≠ (s.reg (Reg.qpHb d)).toNat → ∃ t, exec .qpHbSample s = .next t ∧
      t = s.withGov { s.gov with hb := s.gov.hb.set d ((s.reg (Reg.qpHb d)).toNat, s.now 3) }) ∧
    (v = (s.reg (Reg.qpHb d)).toNat → ∃ t u, exec .qpHbSample s = .next t ∧ u = s.withGov { s.gov with hb := u.gov.hb } ∧
      u.gov.hb.find d = none ∧ (∀ k, k ≠ d → u.gov.hb.find k = s.gov.hb.find k) ∧ Supervises u t (.qpFail d (s.now 3)))) ∧
  (∀ s d, s.ev.i = d → d < 2 → Judges s → qpUp s d = true → s.gov.qpRestart.find d = none → s.gov.hb.find d = none →
    ∃ t, exec .qpHbSample s = .next t ∧ t = s.withGov { s.gov with hb := s.gov.hb.set d ((s.reg (Reg.qpHb d)).toNat, s.now 3) }) ∧
  (∀ s, qpUp s s.ev.i = false → exec .qpHbSample s = .next s) ∧
  (∀ s, ctlUp s s.ev.i = false → exec .distributorSilence s = .next s) ∧
  (∀ s d, s.ev.i = d → d < 2 → Judges s → ctlUp s d = true → s.gov.qpRestart.find d = none →
    ∃ t, exec .distributorSilence s = .next t ∧ Supervises s t (.distFail d)) ∧
  (∀ s c, s.ev.i = c → Judges s → c ∈ s.gov.skew →
    ∃ t, exec .skewReport s = .next t ∧ Supervises (s.withGov { s.gov with skew := s.gov.skew.erase c }) t (.skewErr c)) ∧
  (∀ s c v τ, s.ev.i = c → c < 4 → Judges s → s.regF Reg.govHbcfg 19 0 ≠ 0 → s.gov.hb.find (100 + c) = some (v, τ) →
    τ + 1000 * s.regF Reg.govHbcfg 19 0 ≤ s.now 3 →
    let same := v = (s.reg (Reg.govHb c)).toNat
    ∃ t u, exec .serviceHbPeriod s = .next t ∧ u = s.withGov { s.gov with hb := u.gov.hb, svcMiss := u.gov.svcMiss } ∧
      u.gov.hb.find (100 + c) = some ((s.reg (Reg.govHb c)).toNat, s.now 3) ∧
      (¬ same → u.gov.svcMiss.getD c 0 = 0 ∧ t = u) ∧
      (same → u.gov.svcMiss.getD c 0 = s.gov.svcMiss.getD c 0 + 1 ∧
        Supervises u t (.hbMiss c (decide (s.gov.svcMiss.getD c 0 = 2) && s.regBit Reg.govHbcfg 20)))) ∧
  (∀ s n k c x, s.ev.i = n → Judges s → s.ddx.reports[n]? = some (k, c, x) → k ≠ 256 →
    ∃ t u, exec .governorReport s = .next t ∧
      Posted (s.withDdx { s.ddx with reports := dropAt s.ddx.reports n }) u 4 k c (if k = tBOV then x else 0) ∧
      (s.regF Reg.govPol (2 * cardPid s c + 1) (2 * cardPid s c) ≠ 1 ∨ tooSoon s (cardPid s c) = true → t = u) ∧
      (s.regF Reg.govPol (2 * cardPid s c + 1) (2 * cardPid s c) = 1 ∧ tooSoon s (cardPid s c) = false →
        t = restartPid u (cardPid s c))) ∧
  (∀ s n c d, s.ev.i = n → Judges s → s.ddx.reports[n]? = some (256, c, d) → ∃ t, exec .governorReport s = .next t ∧
    Posted (s.withDdx { s.ddx with reports := dropAt s.ddx.reports n }) t 5 0 d (s.regF (Reg.opStat d) 15 8)) ∧
  (∀ s, (∀ τ, s.gov.lastMismatch = some τ → τ + 10000000 < s.now 3) → s.regBit Reg.govStat 31 = false →
    ∃ t u, exec .lockstepMismatch s = .next t ∧
      u = (s.setReg Reg.govLock (BitVec.ofNat 64 (satInc (s.reg Reg.govLock).toNat 32))).withGov
        { s.gov with warm := true, lastMismatch := some (s.now 3), cpu := { x := [], pc := Config.govWarmEntry, csr := [] } } ∧
      Posted u t 7 0 (satInc (s.reg Reg.govLock).toNat 32) 0) ∧
  (∀ s, ∃ t, exec .governorWarmRestartDone s = .next t ∧ t = s.withGov { s.gov with warm := false })

/-- R411, R412: QP_RESTART_COMPLETE loads the firmware of a die's queue processor again and ends its restart; once slices that MERGE or SPLIT empties hold no owner of
before and Reached(E + 8) holds everywhere, the maps of the partitions are written whole and the translations of the dies concerned are
shot down. R419: a window latches a snapshot at its own copy's time, and the latch holds what each of its registers then read. -/
def Claims.GovernorEnds : Prop :=
  (∀ s d, s.ev.i = d → d < 2 → s.gov.qpRestart.find d = some false → s.gov.cmd = some (.restartCtl d) →
    (∀ i, i < 32 → s.regBit (Reg.mqCfg d i) 63 = false ∧ s.th.find (thKey d i) = none) →
    ∃ t u w v, exec .qpRestartComplete s = .next t ∧ w.gov.qpRestart.find d = none ∧ w = s.withGov { s.gov with qpRestart := w.gov.qpRestart } ∧
      (s.gov.qpImage = none → u = w) ∧
      (∀ e, s.gov.qpImage = some e → u = { w with ms := { w.ms with mem := w.ms.mem.writeN (hdrF e.1 0x10 8) e.2, poison := u.ms.poison } } ∧
        ∀ x, x ∈ u.ms.poison → x ∈ w.ms.poison) ∧
      Posted u v 3 1 d 0 ∧ t = (v.withGov { v.gov with cmd := none }).setReg Reg.govStat 0) ∧
  (∀ s d, s.ev.i = d → s.gov.qpRestart.find d = none → exec .qpRestartComplete s = .next s) ∧
  (∀ s c, s.gov.cmd = some c → (∀ d, c ≠ .restartCtl d) → s.gov.emptying = true → s.gov.warm = false →
    let s1 := emptySlices s
    stillOwned s1 = false → (∀ d ∈ [0, 1, 3], rehomeTime s1 ≤ s1.now d) →
    (∀ d ∈ maskDies (cmdMask c), s1.regBit (Reg.shootStat d) 0 = false) →
    ∃ t, exec .rehomeHorizonReached s = .next t ∧ t.gov = { s1.gov with emptying := false } ∧
      (∀ d ∈ maskDies (cmdMask c), t.regF (Reg.homeMap d) 0 0 = newMode c ∧ t.regBit (Reg.shootStat d) 0 = true) ∧
      (∀ q, q < 4 → partOfQ t q = newPart s1 c q) ∧ t.reg Reg.ddxPart = t.reg Reg.govPart ∧
      (∀ p ∈ maskPids s1 (cmdMask c), pidPart t p = (maskQuarters (cmdMask c)).head?) ∧
      ∀ x ∈ t.ms.tlb, x.die ∉ maskDies (cmdMask c)) ∧
  (∀ s w τ, s.ev.i = w → snapDue s = some τ → w < 4 → τ ≤ s.now w → w ∉ s.gov.snapDies → s.gov.snapDies.length < 3 →
    ∃ t, exec .snapshotLatch s = .next t ∧ t = { s with snap := t.snap, gov := t.gov } ∧
      t.gov = { s.gov with snapDies := insertNat w s.gov.snapDies, snapWins := insertNat w s.gov.snapWins } ∧
      (∀ r, r / 0x100000000 = winBase w / 0x100000000 → (r ∈ computedRegs s w ∨ r ∈ s.regs.keys) →
        Tbl.get (regReset r) t.snap r = readReg s r) ∧
      (∀ r, r / 0x100000000 ≠ winBase w / 0x100000000 → r ∉ computedRegs s w → t.snap.find r = s.snap.find r)) ∧
  (∀ s w τ, s.ev.i = w → snapDue s = some τ → w < 4 → τ ≤ s.now w → w ∉ s.gov.snapDies → s.gov.snapDies.length = 3 →
    s.gov.todo = [] → ∃ t, exec .snapshotLatch s = .next t ∧ t.gov.lastLatch = some τ ∧ t.gov.snapDies = [] ∧
      t.reg Reg.govSnapLast = BitVec.ofNat 64 τ)

/-- R29, R32, R34: a correction sets a copy of device time to the hub's count, never backward, and beyond 3 ns sets SKEW_ERR and asks
for a report; after a load it is the copy's acknowledgement. An edge of the input pulse is captured where enabled; the output pulse
rises within 5 ns of a whole second and falls 100 us after it. R433, R435 to R437: a temperature is stored and THERM follows it, the
link's state is reported, replays are counted and do not wrap, an inbound read is answered with Unsupported Request, and the debug
port opens on a valid answer signed with a key not revoked. -/
def Obligations.PackageAndTimeEvents : Prop :=
  (∀ s c, s.ev.i = c → c < 3 → c ∉ s.dieOff → s.regBit Reg.dtuStatus 5 = false →
    ∃ t, exec .dtuCorrection s = .next t ∧ t = { s with time := t.time, regs := t.regs, gov := t.gov } ∧
      t.now c = max (s.now c) s.time.hub ∧ (∀ d, d < 4 → d ≠ c → t.now d = s.now d) ∧
      ((s.now c ≤ s.time.hub + 3 ∧ s.time.hub ≤ s.now c + 3) → t.regs = s.regs ∧ t.gov = s.gov) ∧
      (¬ (s.now c ≤ s.time.hub + 3 ∧ s.time.hub ≤ s.now c + 3) → t.regBit Reg.dtuStatus 2 = true ∧
        t.gov = { s.gov with skew := s.gov.skew ++ [c] } ∧ ∀ r, r ≠ Reg.dtuStatus → t.reg r = s.reg r)) ∧
  (∀ s c, s.ev.i = c → c < 3 → c ∉ s.dieOff → s.regBit Reg.dtuStatus 5 = true →
    ∃ t, exec .dtuCorrection s = .next t ∧ t = { s with time := t.time, regs := t.regs } ∧ t.now c = max (s.now c) s.time.hub ∧
      (∀ x, x ∈ t.time.loading ↔ x ∈ s.time.loading ∧ x ≠ c) ∧ (t.regBit Reg.dtuStatus 5 = false ↔ t.time.loading = [])) ∧
  (∀ s, (s.regBit Reg.dtuCtl 1 = true → ∃ t, exec .ppsInEdge s = .next t ∧ OnlyRegs s t [Reg.dtuPpsIn, Reg.dtuStatus] ∧
      t.reg Reg.dtuPpsIn = BitVec.ofNat 64 s.time.hub ∧ t.reg Reg.dtuStatus = s.reg Reg.dtuStatus ||| 1) ∧
    (s.regBit Reg.dtuCtl 1 = false → exec .ppsInEdge s = .next s)) ∧
  (∀ s n, s.ev.flag = true → s.regBit Reg.dtuCtl 2 = true → s.time.ppsOut = false → s.time.hub ≤ 1000000000 * n + 5 →
    1000000000 * n ≤ s.time.hub + 5 →
    exec .ppsOutPulse s = .next (s.withTime { s.time with ppsOut := true, ppsAt := 1000000000 * n })) ∧
  (∀ s, s.ev.flag = false → s.time.ppsOut = true →
    (s.time.ppsAt + 100000 ≤ s.time.hub → exec .ppsOutPulse s = .next (s.withTime { s.time with ppsOut := false })) ∧
    (s.time.hub < s.time.ppsAt + 100000 → exec .ppsOutPulse s = .next s)) ∧
  (∀ s d v, s.ev.i = d → d < 2 → s.ev.j = v → v < 256 → ∃ t, exec .dieTemperatureChange s = .next t ∧
    OnlyRegs s t [Reg.opStat d, Reg.ddxStatus] ∧ t.regF (Reg.opStat d) 15 8 = v ∧
    (t.regBit Reg.ddxStatus 3 = true ↔ ∃ e, e < 2 ∧ t.regF Reg.tlim 7 0 ≤ t.regF (Reg.opStat e) 15 8)) ∧
  (∀ s, ∃ t, exec .ozashLinkDown s = .next t ∧ OnlyRegs s t [Reg.ozStat 0, Reg.ozStat 1] ∧ ∀ d, d < 2 → t.regBit (Reg.ozStat d) 0 = false) ∧
  (∀ s, ∃ t, exec .ozashLinkRetrained s = .next t ∧ OnlyRegs s t [Reg.ozStat 0, Reg.ozStat 1] ∧
    ∀ d, d < 2 → t.regBit (Reg.ozStat d) 0 = true ∧ t.regBit (Reg.ozStat d) 1 = s.ev.flag) ∧
  (∀ s d n, s.ev.i = d → d < 2 → s.ev.j = n → ∃ t, exec .flitReplay s = .next t ∧
    OnlyReg s t (Reg.ozReplay d) (BitVec.ofNat 64 (min (2 ^ 64 - 1) ((s.reg (Reg.ozReplay d)).toNat + n)))) ∧
  (∀ s, ∃ t, exec .pcieInboundRead s = .next t ∧ (Config.pcieRoot = true → t = s) ∧
    (Config.pcieRoot = false → t = { s with pcieDone := s.pcieDone ++ [BitVec.ofNat 16 s.ev.i] })) ∧
  (∀ s, ∃ t, exec .debugUnlock s = .next t ∧
    ((Config.signatureValid 3 Config.debugChallenge s.ev.bytes = true ∧ Config.slotRevoked 3 = false) → t = { s with debugOpen := true }) ∧
    (¬ (Config.signatureValid 3 Config.debugChallenge s.ev.bytes = true ∧ Config.slotRevoked 3 = false) → t = s))

/-! ## Events at a line's home -/

/-- R81, R82, R86, R438: a store that may be performed at its home writes its bytes and no others, clears the poison of a sector it
covers, invalidates the service cores' copies, raises its agent's horizon and ends its request; one that may not yet is left.
R78, R291: a reduction writes the combined value, and into a poisoned sector nothing. R79: an engine's line is returned with its bytes,
its ownership ends and its WCT goes to its operation; while another owns the line, nothing of it is returned. -/
def Obligations.HomeWrites : Prop :=
  (∀ s q bs, AtHome s q → q.kind = .store bs → writeReady s q = true →
    (admitReq s q (writeNeed s q.sec q.pid (coversSec q.sec bs))).1 = true →
    ∃ t, exec .homeStore s = .next t ∧ WroteBytes s t bs ∧ PoisonLeft s t q.sec bs ∧ findReq t q.id = none ∧
      HorizonRaised s t q ∧ ∀ e, t.ms.dir.find (q.sec / 8) = some e → e.svc = []) ∧
  (∀ s q bs, findReq s s.ev.i = some q → q.kind = .store bs → (sliceOpen s q = false ∨ writeReady s q = false) →
    exec .homeStore s = .next s) ∧
  (∀ s q op sg size pa v, AtHome s q → q.kind = .red op sg size pa v → writeReady s q = true →
    (admitReq s q (writeNeed s q.sec q.pid false)).1 = true →
    ∃ t, exec .homeReduction s = .next t ∧ findReq t q.id = none ∧ HorizonRaised s t q ∧
      (q.sec ∈ s.ms.poison → t.ms.mem = s.ms.mem) ∧
      (q.sec ∉ s.ms.poison → WroteBytes s t (bytesAt pa (leBytes size (redValue op sg size (memVal s.ms.mem pa size) v 0).1.toNat)))) ∧
  (∀ s q bs bad i o, AtHome s q → q.kind = .engine bs bad → q.op = some i → s.ops.find i = some o → engineReady s q = true →
    Owner.engine q.id ∈ (dirEnt s (q.sec / 8)).owners →
    (admitReq s q (writeNeed s q.sec q.pid (coversSec q.sec bs))).1 = true →
    ∃ t, exec .engineLineRelease s = .next t ∧ WroteBytes s t bs ∧ findReq t q.id = none ∧
      Owner.engine q.id ∉ (dirEnt t (q.sec / 8)).owners ∧ (bad = true → q.sec ∈ t.ms.poison) ∧ (bad = false → PoisonLeft s t q.sec bs) ∧
      t.ops.find i = some { o with wct := max o.wct (max (s.now (paDie (512 * (q.sec / 8)))) (horizonOf s (q.sec / 8))) }) ∧
  (∀ s q bs bad, findReq s s.ev.i = some q → q.kind = .engine bs bad →
    ((ownsLine s q = true ∧ engineReady s q = false) ∨ (ownsLine s q = false ∧ engineMay s (q.sec / 8) q.agent = false)) →
    exec .engineLineRelease s = .next s)

/-- R83 to R85, R87: a fill served at the home gives its operation the sector as it stands there and its L1 a copy under a lease that
the line's horizon covers; nothing in memory changes. A remote fill hits a live line of the die's remote-data cache, and otherwise asks
the remote home once. R80: a request not performed within 100 us is dropped, and a read's wait ends with a sector whose value is open. -/
def Obligations.HomeReads : Prop :=
  (∀ s q i o e, findReq s s.ev.i = some q → sliceOpen s q = true → q.kind = .fill → fillReady s q = true →
    q.op = some i → s.ops.find i = some o → s.ms.dir.find (q.sec / 8) = some e → l1Owner s (q.sec / 8) = none →
    (∀ l, (l1Of s q.core).find (q.sec / 8) = some l → l.own = none) → (admitReq s q (readNeed s q.sec)).1 = true →
    ∃ t f, exec .homeReadFill s = .next t ∧ t.ms.mem = s.ms.mem ∧ t.ms.poison = s.ms.poison ∧ findReq t q.id = none ∧
      t.ms.dir.find (q.sec / 8) = some f ∧ f.hor = max e.hor (s.now (paDie (64 * q.sec)) + leaseLen t (paDie (64 * q.sec)) q.pid) ∧ q.core ∈ f.holders ∧
      (o.got.find q.sec = none → (t.ops.find i).bind (fun x => x.got.find q.sec) =
        some { data := s.ms.mem.readN (64 * q.sec) 64, poison := s.ms.poison.contains q.sec, req := q.issue }) ∧
      (∃ l x, (l1Of t q.core).find (q.sec / 8) = some l ∧ l.exp ≤ f.hor ∧ l.secs.find (q.sec % 8) = some x ∧
        x.poison = s.ms.poison.contains q.sec ∧ x.req = q.issue)) ∧
  (∀ s q e, findReq s s.ev.i = some q → sliceOpen s q = true → q.kind = .homeForRdc → fillReady s q = true →
    s.ms.dir.find (q.sec / 8) = some e → l1Owner s (q.sec / 8) = none →
    (admitReq s q (readNeed s q.sec)).1 = true →
    ∃ t f, exec .homeReadFill s = .next t ∧ t.ms.mem = s.ms.mem ∧ findReq t q.id = none ∧
      t.ms.dir.find (q.sec / 8) = some f ∧ 100 + q.die ∈ f.holders ∧
      (t.regF (Reg.rdcWaymask q.die q.pid) 15 0 ≠ 0 → ∃ l, (rdcOf t q.die).find (q.sec / 8) = some l ∧ l.exp ≤ f.hor)) ∧
  (∀ s q, findReq s s.ev.i = some q → q.kind = .fill → (q.late s = true ∨ fillReady s q = false) → exec .homeReadFill s = .next s) ∧
  (∀ s q i o x τ, findReq s s.ev.i = some q → q.kind = .rdcFill → q.late s = false → fillInOrder s q = true →
    q.op = some i → s.ops.find i = some o → o.got.find q.sec = none →
    leaseHit (rdcOf s q.die) q.sec (s.now q.die) q.fresh = some (x, τ) →
    ∃ t, exec .rdcFill s = .next t ∧ t.ms.mem = s.ms.mem ∧ findReq t q.id = none ∧
      (t.ops.find i).bind (fun y => y.got.find q.sec) = some x) ∧
  (∀ s q, findReq s s.ev.i = some q → q.kind = .rdcFill → q.late s = false → fillInOrder s q = true →
    leaseHit (rdcOf s q.die) q.sec (s.now q.die) q.fresh = none →
    (∀ r ∈ s.ms.reqs, ¬ (r.kind = .homeForRdc ∧ r.die = q.die ∧ r.sec = q.sec ∧ q.fresh ≤ r.issue)) →
    ∃ t r, exec .rdcFill s = .next t ∧ t.ms = { s.ms with reqs := s.ms.reqs ++ [r] } ∧ r.kind = .homeForRdc ∧ r.sec = q.sec ∧
      r.die = q.die ∧ r.issue = s.now q.die) ∧
  (∀ s q i o, findReq s s.ev.i = some q → q.issue + q.extra + 100000 ≤ s.now q.die → q.kind = .fill → q.op = some i → s.ops.find i = some o →
    o.got.find q.sec = none → ∃ t x, exec .requestDrop s = .next t ∧ t.ms.mem = s.ms.mem ∧ findReq t q.id = none ∧
      (t.ops.find i).bind (fun y => y.got.find q.sec) = some x ∧ x.poison = false ∧ x.data.length = 64) ∧
  (∀ s q bs, findReq s s.ev.i = some q → q.issue + q.extra + 100000 ≤ s.now q.die → q.kind = .store bs →
    ∃ t, exec .requestDrop s = .next t ∧ t = s.withMs { s.ms with reqs := s.ms.reqs.filter fun x => decide (x.id ≠ q.id) }) ∧
  (∀ s q, findReq s s.ev.i = some q → s.now q.die < q.issue + q.extra + 100000 → exec .requestDrop s = .next s)

/-- R24, R66, R78, R87: an L1 that owns a line somebody waits for gives it up; a service core's request for an unassigned range is an
access fault, one for E or M waits at the line's entry
until the horizon is reached and nobody owns the line, and its store is then performed with its own copy the only one. R173, R174: a
window boundary resets the counts, counts an overrun once and keeps it for the DDX, which counts it at the card and applies OVPOL. -/
def Obligations.OwnersAndSluices : Prop :=
  (∀ s c, l1Owner s s.ev.i = some c → recallWanted s s.ev.i c = true →
    ∃ t, exec .ownerRecallComplete s = .next t ∧ l1Owner t s.ev.i = none ∧ t.ms.mem = s.ms.mem ∧
      (t.ms.reqs.map fun q => q.id) = (s.ms.reqs.map fun q => q.id) ∧ HomeFrame s t [] ∧
      ∀ l, l ≠ s.ev.i → t.ms.dir.find l = s.ms.dir.find l) ∧
  (∀ s, l1Owner s s.ev.i = none → exec .ownerRecallComplete s = .next s) ∧
  (∀ s sc pa e, s.ev.i = sc → sc < 16 → s.ev.j = pa → dramOk s pa = true → lineHeld s (lineOf pa) = false →
    s.ms.dir.find (lineOf pa) = some e → ∃ t, exec .serviceCoreExclRequest s = .next t ∧ t = s.withMs { s.ms with dir := t.ms.dir } ∧
      t.ms.dir.find (lineOf pa) = some { e with excl := e.excl ++ [{ sc := sc, pa := pa, data := s.ev.bytes }] } ∧
      ∀ l, l ≠ lineOf pa → t.ms.dir.find l = s.ms.dir.find l) ∧
  (∀ s sc pa, s.ev.i = sc → sc < 16 → s.ev.j = pa → dramOk s pa = false → exec .serviceCoreExclRequest s = .next (svcFault s sc 7 pa)) ∧
  (∀ s e x rest, lineHeld s s.ev.i = false → s.ms.dir.find s.ev.i = some e → e.excl = x :: rest →
    let bs := (bytesAt x.pa x.data).filter fun b => decide (b.1 / 512 = s.ev.i)
    (e.hor ≤ s.now (paDie (512 * s.ev.i)) ∧ e.owners = [] →
      ∀ s1, svcSectors s x.sc bs ((bs.map fun b => b.1 / 64).foldl (fun a n => insertNat n a) []) = (true, s1) →
      ∃ t f, exec .serviceCoreExclGrant s = .next t ∧ WroteBytes s1 t bs ∧ t.ms.dir.find s.ev.i = some f ∧
      f = { e with excl := rest, svc := [(x.sc, if x.data = [] then .e else .m)] }) ∧
    (¬ (e.hor ≤ s.now (paDie (512 * s.ev.i)) ∧ e.owners = []) → exec .serviceCoreExclGrant s = .next s)) ∧
  (∀ s m r, s.ev.i = m → s.ev.j = r → m < 16 → r < 73 → sluDue s m r = true → sluHolds s m r = false →
    let k := sluWin s m r + 1
    ∃ t, exec .sluiceWindow s = .next t ∧ OnlyRegs { s with ms := t.ms } t [Reg.sluCnt m r, Reg.sluRun m r, Reg.sluOvw m r, Reg.sluHold m r] ∧
      t.reg (Reg.sluCnt m r) = 0 ∧ t.reg (Reg.sluHold m r) = 0 ∧ sluWin t m r = k ∧
      (s.regBit (Reg.sluHold m r) 1 = false → t.reg (Reg.sluRun m r) = 0 ∧ t.reg (Reg.sluOvw m r) = s.reg (Reg.sluOvw m r) ∧
        t.ms.overruns = s.ms.overruns) ∧
      (s.regBit (Reg.sluHold m r) 1 = true →
        t.reg (Reg.sluRun m r) = BitVec.ofNat 64 (satInc (s.reg (Reg.sluRun m r)).toNat 32) ∧
        t.reg (Reg.sluOvw m r) = BitVec.ofNat 64 (satInc (s.reg (Reg.sluOvw m r)).toNat 32) ∧
        t.ms.overruns = s.ms.overruns ++ [(m, r, k, (t.reg (Reg.sluRun m r)).toNat)])) ∧
  (∀ s m r k n c, s.ev.i = m → s.ev.j = r → (s.ms.overruns.find? fun e => decide (e.1 = m ∧ e.2.1 = r)) = some (m, r, k, n) →
    requesterCard s r = some c → c < 1024 → k ∉ (cardSt s c).wins → n < cardF s c 0 23 16 →
    ∃ t, exec .sluiceOverrunReport s = .next t ∧ cardF t c 15 63 32 = satInc (cardF s c 15 63 32) 32 ∧
      k ∈ (cardSt t c).wins ∧ (m, r, k, n) ∉ t.ms.overruns ∧ t.ddx.recs = s.ddx.recs ∧ t.ddx.reports = s.ddx.reports) ∧
  (∀ s m r k n c, s.ev.i = m → s.ev.j = r → (s.ms.overruns.find? fun e => decide (e.1 = m ∧ e.2.1 = r)) = some (m, r, k, n) →
    requesterCard s r = some c → c < 1024 → cardF s c 0 23 16 ≤ n → (cardSt s c).bov = false → cardOvpol s c = 2 →
    ∃ t, exec .sluiceOverrunReport s = .next t ∧ bit (cardWord t c 14) 5 = true ∧ (tBOV, c, r) ∈ t.ddx.reports)

/-! ## Completions and waits that end -/

/-- R80, R102, R171, R219: a load whose sectors are at hand completes: each lane's registers take the value, its flag falls, its hold
ends, and no other register of the warp changes; a completion of a retired generation changes no register and is counted. -/
def Obligations.Completions : Prop :=
  (∀ s i o w size sx acq, s.ev.i = i → s.ops.find i = some o → s.warps.find o.wid = some w → w.place.isSome = true → ctxLive s o.ctx = true →
    w.nonHelper ≠ 0 → o.kind = .load false size sx false acq → (size = 1 ∨ size = 2 ∨ size = 4 ∨ size = 8 ∨ size = 16) →
    (∀ e ∈ o.lanes, e.zero = false ∧ e.lane < 32 ∧ ∃ x, o.got.find (secOf e.pa) = some x ∧ x.poison = false) →
    (o.lanes.map fun e => e.lane).Nodup → o.dst.field + o.dstCount ≤ 256 →
    ∃ t w', exec .longLatencyComplete s = .next t ∧ t.ops.find i = none ∧ t.warps.find o.wid = some w' ∧ t.ms = s.ms ∧
      (∀ e ∈ o.lanes, ∀ x, o.got.find (secOf e.pa) = some x → ∀ j, j < (loadWordsOf size sx 0).length →
        w'.field (o.dst.field + j) e.lane =
          (loadWordsOf size sx (leNat ((x.data.drop (e.pa % 64)).take size))).getD j 0) ∧
      (∀ r l, r < 448 → l < 32 → (r < o.dst.field ∨ o.dst.field + (loadWordsOf size sx 0).length ≤ r ∨ ∀ e ∈ o.lanes, e.lane ≠ l) →
        w'.field r l = w.field r l) ∧
      (∀ n, o.flag = some n → n < 12 → w'.flagCount n = w.flagCount n - 1) ∧ (w.hold = some i → w'.hold = none) ∧
      w'.dead = w.dead ∧ w'.p = w.p ∧ w'.pc = w.pc ∧ w'.clause = w.clause) ∧
  (∀ s i o, s.ev.j = i → s.ops.find i = some o → ctxLive s o.ctx = false → opArrived s i = true →
    (∀ e ∈ s.ddx.cards, e.2.tear = false) → ∃ t, exec .completionArrival s = .next t ∧ t.ops.find i = none ∧ t.warps = s.warps ∧
      t.ms = s.ms ∧ OnlyReg { s with ops := t.ops } t (Reg.lateDiscard (coreDie o.core))
        (BitVec.ofNat 64 (min ((s.reg (Reg.lateDiscard (coreDie o.core))).toNat + 1) (2 ^ 64 - 1)))) ∧
  (∀ s i o, s.ev.j = i → s.ops.find i = some o → ctxLive s o.ctx = false → opArrived s i = false →
    (∀ e ∈ s.ddx.cards, e.2.tear = false) → exec .completionArrival s = .next s)

/-- R190, R274, R294 to R298, R193, R194: a sleep ends at its time, a phase barrier's wait once its phase is past, or with a trap ECC
where its object reads as poisoned; BAR releases its block once
every warp has arrived with its release performed; a node of a team's tree forwards once what it combines is complete, and the top's
release advances the phase, clears the nodes and lets every standing lane go on. R95, R100, R292: a fence that is complete lets its path
go on at the next header, or, with words of its clause left, at the clause boundary; .sc sets the fresh time. -/
def Obligations.WaitsEnd : Prop :=
  (∀ s i w, s.ev.i = i → s.warps.find i = some w → w.place.isSome = true → w.st ≠ .trapped → ∃ t w', exec .sleepExpiry s = .next t ∧
    t = { s with warps := t.warps } ∧ t.warps.find i = some w' ∧ (∀ j, j ≠ i → t.warps.find j = s.warps.find j) ∧
    GoesOn w w' fun _ k => ∃ τ, k = .sleep τ ∧ τ ≤ s.now (coreDie (warpCore w))) ∧
  (∀ s i w, s.ev.i = i → s.warps.find i = some w → w.place.isSome = true → w.st ≠ .trapped →
    ∀ u, pbTests s (warpCore w) w = (true, u) →
    (pbBad u i w = none → ∃ t w', exec .phaseBarrierRecheck s = .next t ∧ t = { u with warps := t.warps } ∧ t.warps.find i = some w' ∧
      (∀ j, j ≠ i → t.warps.find j = s.warps.find j) ∧
      GoesOn w w' fun _ k => ∃ spm pa ph sc τ o bad, k = .pbwait spm pa ph sc τ ∧ pbRead u i w spm pa = .val o bad ∧
        phaseOver (pbPhase o) ph = true) ∧
    (∀ l a, pbBad u i w = some (l, a) → ∃ t w' r, exec .phaseBarrierRecheck s = .next t ∧
      t = { u with warps := t.warps, ddx := { u.ddx with recs := u.ddx.recs ++ [r] } } ∧ t.warps.find i = some w' ∧ w'.st = .trapped ∧
      (∀ j, j ≠ i → t.warps.find j = s.warps.find j) ∧ r.code = 0x10 ∧ r.addr = a ∧ r.lanes = (w.pathOf l).toNat)) ∧
  (∀ s b, s.ddx.blocks.find s.ev.i = some b → allPlaced s b.warps = true → someStands s b.warps .bar = true →
    ((∀ i ∈ b.warps, arrivalDone s i .bar 1 = true) → ∃ t, exec .blockBarrierRelease s = .next t ∧ t = { s with warps := t.warps } ∧
      WarpsGoOn s t b.warps .bar) ∧
    ((∃ i ∈ b.warps, arrivalDone s i .bar 1 = false) → exec .blockBarrierRelease s = .next s)) ∧
  (∀ s i t0 n, s.ev.i = i → s.ddx.teams.find i = some t0 → s.ev.j = n → n < 100 → n ∈ teamCores s t0 → n ∉ t0.nodes.cores →
    allPlaced s (teamWarps s t0) = true → (∀ j ∈ warpsOn s t0 n, arrivalDone s j .tbar 4 = true) →
    ∃ t, exec .teamNodeForward s = .next t ∧ t = s.withDdx { s.ddx with teams := t.ddx.teams } ∧
      t.ddx.teams.find i = some { t0 with nodes := { t0.nodes with cores := insertNat n t0.nodes.cores } }) ∧
  (∀ s i t0 d, s.ev.i = i → s.ddx.teams.find i = some t0 → s.ev.j = 100 + d → d ∉ t0.nodes.dies →
    (∃ c ∈ teamCores s t0, coreDie c = d) → (∀ c ∈ teamCores s t0, coreDie c = d → c ∈ t0.nodes.cores) →
    ∃ t, exec .teamNodeForward s = .next t ∧ t = s.withDdx { s.ddx with teams := t.ddx.teams } ∧
      t.ddx.teams.find i = some { t0 with nodes := { t0.nodes with dies := insertNat d t0.nodes.dies } }) ∧
  (∀ s i t0, s.ev.i = i → s.ddx.teams.find i = some t0 → allPlaced s (teamWarps s t0) = true →
    someStands s (teamWarps s t0) .tbar = true →
    (teamComplete s t0 = true → ∃ t, exec .teamBarrierRelease s = .next t ∧ t = { s with warps := t.warps, ddx := t.ddx } ∧
      t.ddx = { s.ddx with teams := t.ddx.teams } ∧
      t.ddx.teams.find i = some { t0 with phase := (t0.phase + 1) % 65536, nodes := { cores := [], dies := [] }, since := none } ∧
      WarpsGoOn s t (teamWarps s t0) .tbar) ∧
    (teamComplete s t0 = false → exec .teamBarrierRelease s = .next s)) ∧
  (∀ s i w x, s.ev.i = i → s.warps.find i = some w → w.place.isSome = true → w.st ≠ .trapped →
    (w.susp.find? fun y => !y.ended && fenceDone s i w y.scope y.id) = some x →
    ∃ t w', exec .fenceWaitEnd s = .next t ∧ t = { s with warps := t.warps } ∧ t.warps.find i = some w' ∧
      (∀ j, j ≠ i → t.warps.find j = s.warps.find j) ∧
      w'.tf = (if x.sc then s.now (coreDie (warpCore w)) else w.tf) ∧
      w' = { w with tf := w'.tf, susp := w'.susp, pc := w'.pc, wait := w'.wait } ∧
      (x.clause.next = hdrLen x.clause.hdr → x ∉ w'.susp ∧ ∀ l, l < 32 →
        (laneIn x.clause.lanes l = true → laneGet .none w'.wait l = .none ∧ laneGet zeroAddr w'.pc l =
          { x.clause.at_ with off := x.clause.at_.off + 8 * (hdrLen x.clause.hdr + 1) }) ∧
        (laneIn x.clause.lanes l = false → laneGet .none w'.wait l = laneGet .none w.wait l ∧
          laneGet zeroAddr w'.pc l = laneGet zeroAddr w.pc l)) ∧
      (x.clause.next ≠ hdrLen x.clause.hdr → w'.pc = w.pc ∧ w'.wait = w.wait ∧ { x with ended := true } ∈ w'.susp)) ∧
  (∀ s i w, s.ev.i = i → s.warps.find i = some w → (w.susp.find? fun y => !y.ended && fenceDone s i w y.scope y.id) = none →
    exec .fenceWaitEnd s = .next s)

/-! ## Leats -/

/-- R117 to R122: at a quiet block an enqueue writes the element to Slot(TAIL) and moves TAIL and FREE, or answers FULL or CLOSED; a
dequeue copies the element of Slot(HEAD) to its buffer and moves HEAD, DONE and FREE, or answers EMPTY; in packet mode it answers with
the published header and moves HEAD by the packet's slots; a reservation writes an unpublished header at TAIL; a DONE returns slots. -/
def Obligations.LeatData : Prop :=
  (∀ s q u e0 e, AtLeat s q u → Quiet u q.cb → q.op = .enq e0 → sizeWrong q (readCb u q.cb) = false → (readCb u q.cb).mode = 0 →
    (readCb u q.cb).state = lOPEN → enqElem u q e0 = .ready e → e.length = (readCb u q.cb).es → 0 < (readCb u q.cb).free →
    let c := readCb u q.cb
    ∃ t, exec .leatEnqueue s = .next t ∧ readCb t q.cb = { c with tail := inc c.tail 1, free := c.free - 1 } ∧
      t.ms.mem.readN (c.slot c.tail) c.es = e ∧ KeptBut u t q.cb (c.slot c.tail) c.es ∧ Answered u t q (LAns.st stOK)) ∧
  (∀ s q u e0 e, AtLeat s q u → q.op = .enq e0 → sizeWrong q (readCb u q.cb) = false → (readCb u q.cb).mode = 0 →
    enqElem u q e0 = .ready e → q.blocking = false →
    ((readCb u q.cb).state = lOPEN → (readCb u q.cb).free = 0 →
      ∃ t, exec .leatEnqueue s = .next t ∧ t.ms = u.ms ∧ Answered u t q (LAns.st stFULL)) ∧
    ((readCb u q.cb).state = lDRAINING ∨ (readCb u q.cb).state = lCLOSED →
      ∃ t, exec .leatEnqueue s = .next t ∧ t.ms = u.ms ∧ Answered u t q (LAns.st stCLOSED))) ∧
  (∀ s q u e0, AtLeat s q u → q.op = .enq e0 → sizeWrong q (readCb u q.cb) = false → (readCb u q.cb).mode = 1 →
    ∃ t, exec .leatEnqueue s = .next t ∧ t.ms = u.ms ∧ Answered u t q (LAns.tr tQERR 2)) ∧
  (∀ s q u i op l, AtLeat s q u → Quiet u q.cb → q.op = .deq → q.who = .warp i op l → (readCb u q.cb).mode = 0 →
    (readCb u q.cb).state = lOPEN →
    let c := readCb u q.cb
    (c.head ≠ c.tail → (q.buf + c.es ≤ q.cb ∨ q.cb + 64 ≤ q.buf) → ∃ t a, exec .leatDequeuePlain s = .next t ∧
      readCb t q.cb = { c with head := inc c.head 1, done := inc c.head 1, free := (c.free + 1) % 2 ^ 32 } ∧
      t.ms.mem.readN q.buf c.es = u.ms.mem.readN (c.slot c.head) c.es ∧ KeptBut u t q.cb q.buf c.es ∧ a.status = 0 ∧ a.trap = none ∧
      Answered u t q a) ∧
    (c.head = c.tail → q.blocking = false → ∃ t, exec .leatDequeuePlain s = .next t ∧ t.ms = u.ms ∧ Answered u t q (LAns.st stEMPTY)) ∧
    (c.head = c.tail → q.blocking = true → q.quit = false → (u.lq.waiters.filter fun w => decide (w.slice = homeSlice u q.cb)).length < 512 →
      ∃ t, exec .leatDequeuePlain s = .next t ∧ t.ms = u.ms ∧ (∀ x ∈ t.lq.reqs, x.id ≠ q.id) ∧
        t.lq.waiters = u.lq.waiters ++ [{ id := q.id, slice := homeSlice u q.cb, q := { q with had := [] }, marked := false }])) ∧
  (∀ s q u i op l, AtLeat s q u → Quiet u q.cb → q.op = .deq → q.who = .warp i op l → (readCb u q.cb).mode = 1 →
    (readCb u q.cb).state = lOPEN →
    let c := readCb u q.cb
    let h := mem64 u (c.slot c.head)
    let h1 := mem64 u (c.slot c.head + 8)
    c.head ≠ c.tail → bit h 63 = true → hdrWell c h h1 = true → bits h 59 56 ≠ 0 → bits h 59 56 ≠ 15 →
    ∃ t, exec .leatDequeuePacket s = .next t ∧ readCb t q.cb = { c with head := inc c.head (bits h 52 32) } ∧
      KeptBut u t q.cb 0 0 ∧ Answered u t q (LAns.ok [h, h1, BitVec.ofNat 64 (c.slot c.head)] 0)) ∧
  (∀ s q u n, AtLeat s q u → Quiet u q.cb → q.op = .res n → (readCb u q.cb).mode = 1 → (readCb u q.cb).state = lOPEN →
    let c := readCb u q.cb
    1 ≤ n → n ≤ c.cap → c.tail % c.cap + n ≤ c.cap → n ≤ c.free →
    ∃ t, exec .leatReserve s = .next t ∧
      readCb t q.cb = { c with tail := inc c.tail n, free := c.cap - dif (inc c.tail n) c.done } ∧
      bit (mem64 t (c.slot c.tail)) 63 = false ∧ bits (mem64 t (c.slot c.tail)) 52 32 = n ∧
      bits (mem64 t (c.slot c.tail)) 31 0 = c.tail % 2 ^ 32 ∧ KeptBut u t q.cb (c.slot c.tail) 16 ∧
      Answered u t q (LAns.ok [BitVec.ofNat 64 c.tail, BitVec.ofNat 64 (c.slot c.tail)] 0)) ∧
  (∀ s q u n, AtLeat s q u → q.op = .res n → (readCb u q.cb).mode = 1 → (readCb u q.cb).state = lOPEN →
    (n < 1 ∨ (readCb u q.cb).cap < n) → waitersOf u q.cb = [] →
    ∃ t, exec .leatReserve s = .next t ∧ t.ms = u.ms ∧ Answered u t q (LAns.tr tQLEN 0)) ∧
  (∀ s q u n, AtLeat s q u → Quiet u q.cb → q.op = .done n → (readCb u q.cb).mode = 1 →
    let c := readCb u q.cb
    (n ≤ dif c.head c.done → ∃ t, exec .leatDone s = .next t ∧
      (readCb t q.cb).done = (({ c with done := inc c.done n } : CB).advance u.ms.mem).done ∧
      (readCb t q.cb).head = c.head ∧ (readCb t q.cb).tail = c.tail ∧ KeptBut u t q.cb 0 0 ∧ Answered u t q (LAns.st stOK)) ∧
    (dif c.head c.done < n → ∃ t, exec .leatDone s = .next t ∧ t.ms = u.ms ∧ Answered u t q (LAns.tr tQERR 4)))

/-- R123, R124, R113: INIT writes the whole control block of an empty open leat, or answers BADARG, or PERM where the block is not in DRAM; DRAIN closes an empty leat and drains
another, CLOSE closes, REOPEN opens a closed empty leat, REPAIR sets HEAD and clears the error, QUERY reads; each that does not apply
answers BADSTATE and changes nothing. -/
def Claims.LeatControl : Prop :=
  (∀ s q u cfg ring wake, TakenUp s q u → q.op = .init cfg ring wake →
    waitersOf u q.cb = [] →
    ((dramOk u q.cb = true ∧ initOk u q.cb cfg ring wake q.pid = true) → ∃ t, exec .qctlInit s = .next t ∧
      (let c := readCb t q.cb
       bits c.ident 63 32 = 0x4C454154 ∧ bits c.ident 31 0 = cbFold cfg ring q.cb ∧ c.cfg = cfg ∧ c.ring = ring ∧ c.wake = wake ∧
       c.head = 0 ∧ c.tail = 0 ∧ c.done = 0 ∧ c.free = c.cap ∧ c.stat = 0 ∧ c.errhdr = 0) ∧
      KeptBut u t q.cb 0 0 ∧ Answered u t q (LAns.st stOK)) ∧
    (dramOk u q.cb = false → ∃ t, exec .qctlInit s = .next t ∧ t.ms = u.ms ∧ Answered u t q (LAns.tr tPERM 5)) ∧
    (dramOk u q.cb = true → initOk u q.cb cfg ring wake q.pid = false →
      ∃ t, exec .qctlInit s = .next t ∧ t.ms = u.ms ∧ Answered u t q (LAns.st stBADARG))) ∧
  (∀ s q u, AtLeat s q u → q.op = .drain →
    let c := readCb u q.cb
    (c.state ≠ lOPEN → ∃ t, exec .qctlDrain s = .next t ∧ t.ms = u.ms ∧ Answered u t q (LAns.st stBADSTATE)) ∧
    (c.state = lOPEN → waitersOf u q.cb = [] → ∃ t, exec .qctlDrain s = .next t ∧
      readCb t q.cb = c.setState (if c.head = c.tail then lCLOSED else lDRAINING) ∧ KeptBut u t q.cb 0 0 ∧ Answered u t q (LAns.st stOK))) ∧
  (∀ s q u, AtLeat s q u → q.op = .close → waitersOf u q.cb = [] → ∃ t, exec .qctlClose s = .next t ∧
    readCb t q.cb = (readCb u q.cb).setState lCLOSED ∧ KeptBut u t q.cb 0 0 ∧ Answered u t q (LAns.st stOK)) ∧
  (∀ s q u, AtLeat s q u → q.op = .reopen →
    let c := readCb u q.cb
    (c.state = lCLOSED ∧ c.head = c.tail ∧ c.done = c.head → ∃ t, exec .qctlReopen s = .next t ∧ readCb t q.cb = c.setState lOPEN ∧
      KeptBut u t q.cb 0 0 ∧ Answered u t q (LAns.st stOK)) ∧
    (¬ (c.state = lCLOSED ∧ c.head = c.tail ∧ c.done = c.head) →
      ∃ t, exec .qctlReopen s = .next t ∧ t.ms = u.ms ∧ Answered u t q (LAns.st stBADSTATE))) ∧
  (∀ s q u h, AtLeat s q u → q.op = .repair h → h < 2 ^ 32 →
    let c := readCb u q.cb
    (c.state = lERROR ∧ c.done = c.head ∧ dif h c.head ≤ dif c.tail c.head → Quiet u q.cb → ∃ t, exec .qctlRepair s = .next t ∧
      (readCb t q.cb).head = h ∧ (readCb t q.cb).done = h ∧ (readCb t q.cb).tail = c.tail ∧ (readCb t q.cb).free = c.cap - dif c.tail h ∧
      (readCb t q.cb).state = lOPEN ∧ (readCb t q.cb).errhdr = 0 ∧ KeptBut u t q.cb 0 0 ∧ Answered u t q (LAns.st stOK)) ∧
    (¬ (c.state = lERROR ∧ c.done = c.head ∧ dif h c.head ≤ dif c.tail c.head) →
      ∃ t, exec .qctlRepair s = .next t ∧ t.ms = u.ms ∧ Answered u t q (LAns.st stBADSTATE))) ∧
  (∀ s q u, AtLeat s q u → q.op = .query →
    let c := readCb u q.cb
    ∃ t, exec .qctlQuery s = .next t ∧ t.ms = u.ms ∧ Answered u t q (LAns.ok [BitVec.ofNat 64 (bits c.stat 31 0),
      BitVec.ofNat 64 c.head, BitVec.ofNat 64 c.tail, BitVec.ofNat 64 c.done, BitVec.ofNat 64 c.free] 0))

/-- R120, R125 to R130: a controller that finds something to deliver, at a notification or at the end of a release, offers it to the
consumer that waits; on acceptance in time the element moves and the waiter hears it, and on a refusal or after 2 us the waiter goes
and the block stays as it was. A removal takes a waiter out, and a held request may be issued again after 1 us. -/
def Claims.LeatWaiting : Prop :=
  (∀ s cb w s1, s.ev.i = cb → cb ∈ s.lq.notes ∨ cb ∈ s.lq.owed → offered s cb = none → WaitsAlone s cb w → cbCheck (readCb s cb) cb = none →
    (readCb s cb).state ≠ lERROR → ((readCb s cb).mode = 1 ∨ cb ∈ s.lq.owed) →
    s.withLq { s.lq with notes := s.lq.notes.filter fun x => decide (x ≠ cb), owed := s.lq.owed.filter fun x => decide (x ≠ cb) } = s1 →
    (∀ u h0 h1 sl, leatTakes s1 w.q (lookUses s1 (readCb s1 cb)) = (true, u) → (dequeue u (w.q.actsFor s1) (readCb s1 cb)).1 = .ok h0 h1 sl →
      ∃ t, exec .publishNotify s = .next t ∧ t = u.withLq { u.lq with offers := t.lq.offers } ∧
        offered t cb = some { cb := cb, wid := w.id, time := u.now (cbDie cb) }) ∧
    (∀ u, leatTakes s1 w.q (lookUses s1 (readCb s1 cb)) = (false, u) →
      ∃ t, exec .publishNotify s = .next t ∧ t = u.withLq { u.lq with owed := t.lq.owed } ∧ cb ∈ t.lq.owed)) ∧
  (∀ s cb, s.ev.i = cb → cb ∈ s.lq.notes → offered s cb = none → (cbCheck (readCb s cb) cb).isSome = true →
    ∃ t, exec .publishNotify s = .next t ∧ t = s.withLq
      { s.lq with notes := s.lq.notes.filter fun x => decide (x ≠ cb), owed := s.lq.owed.filter fun x => decide (x ≠ cb) }) ∧
  (∀ s w d u h0 h1 sl, s.ev.i = d → s.lq.waiters = [w] → w.q.op.isDeq = true → w.marked = false → cbDie w.q.cb = d →
    offered s w.q.cb = none → cbCheck (readCb s w.q.cb) w.q.cb = none → (readCb s w.q.cb).state ≠ lERROR →
    leatTakes s w.q (lookUses s (readCb s w.q.cb)) = (true, u) → (dequeue u (w.q.actsFor s) (readCb s w.q.cb)).1 = .ok h0 h1 sl →
    ∃ t, exec .releaseEndReeval s = .next t ∧ t = u.withLq { u.lq with offers := t.lq.offers } ∧
      offered t w.q.cb = some { cb := w.q.cb, wid := w.id, time := u.now (cbDie w.q.cb) }) ∧
  (∀ s o w i op l, offered s s.ev.i = some o → o.cb = s.ev.i → o.onTime s = true → WaitsAlone s o.cb w → w.id = o.wid →
    w.q.who = .warp i op l →
    (∀ u, leatGate s w.q = (true, u) → accepts s w = true → let c := readCb u o.cb
      c.mode = 0 → c.state = lOPEN → c.head ≠ c.tail → (w.q.buf + c.es ≤ o.cb ∨ o.cb + 64 ≤ w.q.buf) →
      (∀ n, c.slot n + c.es ≤ o.cb ∨ o.cb + 64 ≤ c.slot n) →
      ∃ t a, exec .offerAnswer s = .next t ∧ readCb t o.cb = { c with head := inc c.head 1, done := inc c.head 1, free := (c.free + 1) % 2 ^ 32 } ∧
        t.ms.mem.readN w.q.buf c.es = u.ms.mem.readN (c.slot c.head) c.es ∧ KeptBut u t o.cb w.q.buf c.es ∧ waitersOf t o.cb = [] ∧
        offered t o.cb = none ∧ a.status = 0 ∧ a.trap = none ∧
        ∀ x, s.ops.find op = some x → (t.ops.find op).bind (fun y => y.answers.find l) = some a) ∧
    (accepts s w = false → ∃ t, exec .offerAnswer s = .next t ∧ t = s.withLq t.lq ∧ waitersOf t o.cb = [] ∧ offered t o.cb = none)) ∧
  (∀ s o w, offered s s.ev.i = some o → o.cb = s.ev.i → WaitsAlone s o.cb w → w.id = o.wid →
    (o.time + 2000 ≤ s.now (cbDie o.cb) → ∃ t, exec .offerTimeout s = .next t ∧ t = s.withLq t.lq ∧ waitersOf t o.cb = [] ∧
      offered t o.cb = none) ∧
    (s.now (cbDie o.cb) < o.time + 2000 → exec .offerTimeout s = .next s)) ∧
  (∀ s w, s.ev.i ∈ s.lq.removals → w.id = s.ev.i → waitersOf s w.q.cb = [w] → w ∈ s.lq.waiters → (∀ x ∈ s.lq.waiters, x.id = w.id → x = w) →
    ∃ t, exec .waiterRemoval s = .next t ∧ t = s.withLq t.lq ∧ w ∉ t.lq.waiters ∧ s.ev.i ∉ t.lq.removals ∧
      ∀ x ∈ s.lq.waiters, x ≠ w → x ∈ t.lq.waiters) ∧
  (∀ s q τ, (s.lq.reqs.find? fun x => decide (x.id = s.ev.i)) = some q → q.reissue = some τ →
    (τ + 1000 ≤ s.now (cbDie q.cb) → ∃ t, exec .waiterReissue s = .next t ∧ t = s.withLq { s.lq with reqs := t.lq.reqs } ∧
      { q with reissue := none } ∈ t.lq.reqs) ∧
    (s.now (cbDie q.cb) < τ + 1000 → exec .waiterReissue s = .next s))


/-! ## Events of the queue processors and the DDX -/

/-- R128, R135, R138, R144, R158 to R161: a thread at FETCH sends its dequeue into the shadow once, and with the packet there performs it,
or halts with ERR 9; a blocked WAIT tests again at a notification and every 1 us, and ends at its timeout; any other blocked thread goes
on when what it waits for has come; the adopting processor's threads, and a restarted processor's, resume from their shadows. -/
def Obligations.QueueEvents : Prop :=
  (∀ s d th u, s.ev.i = d → s.ev.j = th → qpRuns s d th = true → (thread s d th).st = .fetch → qpOwesNot s d th = (true, u) →
    ((thread u d th).ans = none → (thread u d th).asked = false → ∃ t r, exec .qpPacketFetch s = .next t ∧
      t = { u with th := t.th, lq := t.lq, next := t.next } ∧ t.lq = { u.lq with reqs := u.lq.reqs ++ [r] } ∧ r.cb = qCb u d th ∧
      r.who = .qp d th ∧ r.op = .deq ∧ r.blocking = true ∧ r.buf = shadowPa u d th + 64 + 64 * (thread u d th).have_ ∧
      r.pid = some (qPid u d th) ∧ thread t d th = { thread u d th with asked := true }) ∧
    (∀ a, (thread u d th).ans = some a → a.trap = none → a.status = 0 → (thread u d th).gather ≤ 1 →
      ∃ t, exec .qpPacketFetch s = .next t ∧ t = { u with th := t.th, qpch := t.qpch } ∧
        thread t d th = { thread u d th with ans := none, asked := false, gather := 0, st := .exec, blk := none } ∧
        Tbl.get 0 t.qpch d = max (Tbl.get 0 u.qpch d) a.wct) ∧
    (∀ a, (thread u d th).ans = some a → (a.trap.isSome = true ∨ a.status ≠ 0) → ∃ t, exec .qpPacketFetch s = .next t ∧
      (thread t d th).st = .halted ∧ (thread t d th).err = 9 ∧ Staging u t d th 4 0)) ∧
  (∀ s d th, s.ev.i = d → s.ev.j = th → qpRuns s d th = true → (thread s d th).st = .fetch → ∀ u, qpOwesNot s d th = (false, u) →
    exec .qpPacketFetch s = .next u) ∧
  (∀ s d th next sec noted, s.ev.i = d → s.ev.j = th → (thread s d th).blk = some (.cond next sec noted) → (thread s d th).st = .blocked →
    qpRuns s d th = true →
    let p := shadowPkt s d th (thread s d th).idx
    (∀ u, qpOwesNot s d th = (true, u) →
      (p.w1 ≠ 0 → ∀ pa s1 s2, translate u (qSpace u d th) p.w1.toNat .read = (.ok pa, s1) →
        homeRead s1 (71 + d) (qPid s1 d th) (pa / 64) = (true, s2) →
        (noted = true → exec .waitNotify s = .next (if testWord p (mem64 s2 pa) then qpDone s2 d th
          else qpBlock s2 d th (.cond next (pa / 64) false))) ∧
        (next ≤ s.now d → exec .waitPoll s = .next (if testWord p (mem64 s2 pa) then qpDone s2 d th
          else qpBlock s2 d th (.cond (next + 1000) (pa / 64) false)))) ∧
      (p.w4 ≠ 0 ∧ p.w4.toNat ≤ s.now d → exec .waitTimeout s = .next (if p.w1 ≠ 0 ∧ bit p.w0 11 = true then qpHalt u d th 5 p
        else qpDone u d th))) ∧
    (noted = false → exec .waitNotify s = .next s) ∧ (s.now d < next → exec .waitPoll s = .next s) ∧
    (¬ (p.w4 ≠ 0 ∧ p.w4.toNat ≤ s.now d) → exec .waitTimeout s = .next s)) ∧
  (∀ s d th b, s.ev.i = d → s.ev.j = th → (thread s d th).blk = some b → (thread s d th).st = .blocked → (thread s d th).stop = false →
    qpRuns s d th = true →
    (∀ u, qpOwesNot s d th = (true, u) → blockOver s (thread s d th) (shadowPkt s d th (thread s d th).idx) b = true →
      ∃ t, exec .qpBlockedResume s = .next t ∧ t = { u with th := t.th } ∧ thread t d th = { thread u d th with st := .exec }) ∧
    (blockOver s (thread s d th) (shadowPkt s d th (thread s d th).idx) b = false → exec .qpBlockedResume s = .next s)) ∧
  (∀ s d i, s.ev.i = d → d < 2 → i < 32 → qpAdopting s d = true → s.regBit (Reg.qpCtl d) 0 = true →
    s.regF (Reg.qpAdopt d) 61 0 + 132800 ≤ s.now d → s.regBit (Reg.mqCfg (1 - d) i) 63 = true →
    (∀ j, j < 32 → j ≠ i → s.regBit (Reg.mqCfg (1 - d) j) 63 = false) → s.th.find (thKey d (32 + i)) = none →
    (thread s (1 - d) i).st = .adopted → bits (mem64 s (shadowPa s d (32 + i) + 8)) 2 0 = 0 →
    ∃ t, exec .adoptStartThreads s = .next t ∧ t = { s with regs := t.regs, ms := t.ms, th := t.th, lq := t.lq, next := t.next } ∧
      (∀ r, ¬ MemReg r → t.reg r = s.reg r) ∧ (∀ a, t.ms.mem.read a = s.ms.mem.read a) ∧ (thread t d (32 + i)).st = .fetch ∧
      (thread t d (32 + i)).seq = bits (mem64 s (shadowPa s d (32 + i))) 31 0) ∧
  (∀ s d i, s.ev.i = d → d < 2 → i < 32 → qpOut s d = true → s.gov.qpRestart.find d = none → s.regF (Reg.qpAdopt (1 - d)) 63 62 = 2 →
    qpAdopting s (1 - d) = false → s.regBit (Reg.mqCfg d i) 63 = true →
    (∀ j, j < 32 → j ≠ i → s.regBit (Reg.mqCfg d j) 63 = false) → (thread s d i).st = .adopted →
    bits (mem64 s (shadowPa s d i + 8)) 2 0 = 0 →
    ∃ t, exec .handbackResume s = .next t ∧ t = { s with regs := t.regs, ms := t.ms, th := t.th, lq := t.lq, next := t.next } ∧
      (thread t d i).st = .fetch ∧ (thread t d i).seq = bits (mem64 s (shadowPa s d i)) 31 0 ∧ qpOut t d = false ∧
      (∀ a, t.ms.mem.read a = s.ms.mem.read a) ∧ ∀ r, r ≠ Reg.qpStatus d → ¬ MemReg r → t.reg r = s.reg r)

/-- R140, R151, R159, R165, R176: a node that fails ends alone; one that completes lowers the counters of its successors, and a counter
that reaches 0 releases its node; with no node left the run ends. A release asked for is accepted once, with its nominal release time
and deadline, answered SHAPE, or waits for its card; while EN is 0 nothing is accepted. A periodic release whose time has come makes its
card READY, is skipped while the card is busy, and is refused with a record when its header is not valid. -/
def Obligations.ReleaseEvents : Prop :=
  (∀ s g n r, s.ev.i = g → s.ev.j = n → s.ddx.graphs.find g = some r →
    (r.nodes[n]? = some (.ended false) → (∃ k x, k ≠ n ∧ r.nodes[k]? = some x ∧ x.pending = true) →
      ∃ t, exec .graphNodeComplete s = .next t ∧ t = s.withDdx { s.ddx with graphs := t.ddx.graphs } ∧
        t.ddx.graphs.find g = some { r with nodes := setAt r.nodes n .failed, answers := r.answers.del n }) ∧
    (∀ m, r.nodes[n]? = some (.ended true) → nodeSucc s g n = [m] → m ≠ n → m < r.nodes.length → m < r.counters.length →
      r.counters.getD m 0 = 1 → ∃ t a x, exec .graphNodeComplete s = .next t ∧ t.ddx.graphs.find g = some x ∧ x.nodes[n]? = some .done ∧
        x.nodes[m]? = some .ready ∧ x.counters.getD m 0 = 0 ∧ t.ddx.asks = s.ddx.asks ++ [a] ∧ a.src = .node g m) ∧
    (r.nodes[n]? = some (.ended true) → nodeSucc s g n = [] → (∀ k x, k ≠ n → r.nodes[k]? = some x → x = .done) →
      s.reg (Reg.graphDone g) = 0 → ∃ t, exec .graphNodeComplete s = .next t ∧ t.ddx.graphs.find g = none ∧
        t.regF (Reg.graphStat g) 1 0 = 2 ∧ t.regF (Reg.graphStat g) 63 32 = (s.regF (Reg.graphStat g) 63 32 + 1) % 2 ^ 32 ∧ t.ms = s.ms)) ∧
  (∀ s a die q seq th r, (s.ddx.asks.find? fun x => decide (x.id = s.ev.i)) = some a → a.src = .queue die q seq th → a.rel = some r →
    a.card < 1024 → s.regBit Reg.ddxCtl 0 = true → cardPid s a.card ∉ s.gov.holdPids →
    (∀ e ∈ s.ddx.ids, ¬ (e.1 = die ∧ e.2.1 = q ∧ e.2.2.1 = seq)) → r.launcher ≠ .periodic →
    (cardFree s a.card = true → shapeRefused s a.card r = false →
      ∃ t x, exec .ddxReleaseRequest s = .next t ∧ cardState t a.card = stReady ∧ cardWord t a.card 12 = BitVec.ofNat 64 (s.now 3) ∧
        cardWord t a.card 13 = BitVec.ofNat 64 (s.now 3 + relDeadline s a.card r.dlrel) ∧ cardWord t a.card 8 = a.pkt.w2 ∧
        cardWord t a.card 9 = r.grid ∧ t.ddx.rel.find a.card = some x ∧ x.hdr = r.hdr ∧ x.args = r.args ∧ a ∉ t.ddx.asks ∧
        (die, q, seq, a.card, cardGen t a.card) ∈ t.ddx.ids ∧ t.ms = s.ms ∧
        ∀ y, s.th.find (thKey (actingDie die th) th) = some y → (thread t (actingDie die th) th).ans = some (LAns.st 0)) ∧
    (cardFree s a.card = true → shapeRefused s a.card r = true → ∃ t, exec .ddxReleaseRequest s = .next t ∧ t.regs = s.regs ∧
      a ∉ t.ddx.asks ∧ ∀ y, s.th.find (thKey (actingDie die th) th) = some y → (thread t (actingDie die th) th).ans = some (LAns.st 7)) ∧
    (cardFree s a.card = false → exec .ddxReleaseRequest s = .next s)) ∧
  (∀ s, s.regBit Reg.ddxCtl 0 = false → exec .ddxReleaseRequest s = .next s) ∧
  (∀ s c, s.ev.i = c → c < 1024 → cardActive s c = true → cardIsLaunch s c = false → nextRel s c ≤ s.now 3 →
    cardPid s c ∉ s.gov.holdPids →
    ((s.regBit Reg.ddxCtl 0 = false ∨ cardFree s c = false) → ∃ t, exec .periodicRelease s = .next t ∧
      OnlyRegs s t [Reg.card c + 16, Reg.card c + 120] ∧
      cardWord t c 2 = BitVec.ofNat 64 (nextRel s c + (cardWord s c 1).toNat) ∧
      cardF t c 15 31 0 = satInc (cardF s c 15 31 0) 32) ∧
    (s.regBit Reg.ddxCtl 0 = true → cardFree s c = true → cardKind s c = 1 → ∀ hdr s1,
      loadWords s (ddxSpace s c) (cardWord s c 8).toNat 8 = (.ok hdr, s1) → (∀ k, k < 16 → cardWord s1 c k = cardWord s c k) →
      (hdrValid hdr 1 = true → shapeRefused s1 c (cardRelease s1 c hdr []) = false →
        ∃ t x, exec .periodicRelease s = .next t ∧ cardState t c = stReady ∧ cardWord t c 12 = BitVec.ofNat 64 (nextRel s c) ∧
          cardWord t c 13 = BitVec.ofNat 64 (nextRel s c + 1000 * cardF s c 3 31 0) ∧
          cardWord t c 2 = BitVec.ofNat 64 (nextRel s c + (cardWord s c 1).toNat) ∧ t.ddx.rel.find c = some x ∧ x.hdr = hdr) ∧
      (hdrValid hdr 1 = false → ∃ t r, exec .periodicRelease s = .next t ∧ cardActive t c = false ∧ cardState t c = cardState s c ∧
        t.ddx.recs = s1.ddx.recs ++ [r] ∧ r.code = 0x13 ∧ r.detail = 1 ∧ r.card = c ∧ r.notice = false ∧
        cardF t c 15 31 0 = satInc (cardF s c 15 31 0) 32))) ∧
  (∀ s c, s.ev.i = c → s.now 3 < nextRel s c → exec .periodicRelease s = .next s)

/-- R157, R164 to R167, R175, R178, R179: a card is dispatched when its class, its power and a resource allow and no card before it in the order
waits for the same; where power is short, and cards that are leaving do not make the room, the latest BE card behind it is pre-empted. The last save makes a card PREEMPTED or HELD; the end
of its work makes it DONE and retires its generation. A deadline that passes counts once and takes the card's policy; a hot die steps its
operating point, and at TLIM + 10 reports (at each step, which is the model's choice: notes/assumptions/58.md). What keeps a card of a later
key from going first, and when PWR_FULL falls, are the model's readings: notes/assumptions/56.md and 57.md. -/
def Obligations.DispatchEvents : Prop :=
  (∀ s c res, s.ev.i = c → s.ev.j = res → c < 1024 → s.regBit Reg.ddxCtl 0 = true → waitsDdx s c = true → (cardSt s c).tear = false →
    opOk s c res = true →
    (powerFits s c = true → served s c res = true →
      (∀ d ∈ knownCards s, comesFirst s d c res = false) →
      ∃ t, exec .dispatch s = .next t ∧ cardState t c = stRunning ∧
        t.reg Reg.pwrAdm = BitVec.ofNat 64 (min ((s.reg Reg.pwrAdm).toNat + cardPwr s c) 65535) ∧ t.warps = s.warps ∧
        t.ms.mem = s.ms.mem ∧
        (cardKind s c = 1 → (t.tiles.find res).bind (fun x => x.card) = some (cardCtx s c))) ∧
    (powerFits s c = false → (s.reg Reg.pwrAdm).toNat + cardPwr s c ≤ s.regF Reg.pwrCap 15 0 + powerLeaving s →
      exec .dispatch s = .next (s.setRegF Reg.ddxStatus 2 2 1)) ∧
    (powerFits s c = false → s.regF Reg.pwrCap 15 0 + powerLeaving s < (s.reg Reg.pwrAdm).toNat + cardPwr s c → ∀ v, latest s ((runningCards s).filter fun d => decide (cardClass s d = 2) && precedes s c d) = some v →
      (cardSt s v).preempt = none → ∃ t, exec .dispatch s = .next t ∧ cardState t c = cardState s c ∧
        (cardSt t v).preempt = some (s.now 3) ∧ t.regBit Reg.ddxStatus 2 = true)) ∧
  (∀ s, s.regBit Reg.ddxCtl 0 = false → exec .dispatch s = .next s) ∧
  (∀ s c τ, s.ev.i = c → c < 1024 → (cardSt s c).preempt = some τ → (cardSt s c).tear = false → cardState s c = stRunning →
    cardKind s c = 0 → (∀ e ∈ s.pces, e.2.card.map (fun x => x.card) ≠ some c) →
    ((∀ e ∈ s.warps, e.2.card = c → e.2.place = none) →
      (regionTakes s (saveArea s c) (imageBytes s c) = none → exec .preemptSaveComplete s = .next s) ∧
      ∀ u, regionTakes s (saveArea s c) (imageBytes s c) = some u → ∃ t, exec .preemptSaveComplete s = .next t ∧
        cardState t c = (if (cardSt s c).toHeld then stHeld else stPreempted) ∧ (cardSt t c).preempt = none ∧ (cardSt t c).saved = true ∧
        t.warps = u.warps ∧
        ∀ a, ¬ (saveArea u c ≤ a ∧ a < saveArea u c + imageBytes u c) → t.ms.mem.read a = u.ms.mem.read a) ∧
    ((∃ e ∈ s.warps, e.2.card = c ∧ e.2.place.isSome = true) → exec .preemptSaveComplete s = .next s)) ∧
  (∀ s c, s.ev.i = c → c < 1024 → cardState s c = stRunning → (cardSt s c).tear = false → (cardSt s c).preempt = none → cardKind s c = 0 →
    (∀ e ∈ s.tiles, e.2.card.map (fun x => x.card) ≠ some c) → (∀ e ∈ s.pces, e.2.card.map (fun x => x.card) ≠ some c) →
    (workDone s c = true → max (cardSt s c).ch (tileHorizon s c) ≤ s.now 3 → ∃ t, exec .cardWorkDone s = .next t ∧
      cardState t c = stDone ∧ cardGen t c = (cardGen s c + 1) % 65536 ∧ t.ddx.rel.find c = none) ∧
    (workDone s c = false → exec .cardWorkDone s = .next s)) ∧
  (∀ s c, s.ev.i = c → c < 1024 → 1 ≤ cardState s c → cardState s c ≤ 4 → bit (cardWord s c 14) 4 = false →
    (cardDeadline s c ≤ s.now 3 → cardDmpol s c = 1 → ∃ t r, exec .deadlineMiss s = .next t ∧ bit (cardWord t c 14) 4 = true ∧
      cardF t c 14 63 32 = satInc (cardF s c 14 63 32) 32 ∧ cardState t c = cardState s c ∧ t.ddx.recs = s.ddx.recs ++ [r] ∧
      r.code = 0x13 ∧ r.notice = true ∧ r.card = c) ∧
    (cardDeadline s c ≤ s.now 3 → cardDmpol s c = 0 → cardState s c = stReady → ∃ t r, exec .deadlineMiss s = .next t ∧
      cardState t c = stHeld ∧ t.ddx.recs = s.ddx.recs ++ [r] ∧ r.code = 0x13 ∧ r.notice = false ∧ r.card = c) ∧
    (cardDeadline s c ≤ s.now 3 → cardDmpol s c = 2 → cardState s c = stReady → ∃ t, exec .deadlineMiss s = .next t ∧
      cardState t c = stHeld ∧ t.ddx.reports = s.ddx.reports ++ [(0x13, c, 0)] ∧ t.ddx.recs = s.ddx.recs) ∧
    (s.now 3 < cardDeadline s c → exec .deadlineMiss s = .next s)) ∧
  (∀ s d, s.ev.i = d → d < 2 → (∀ τ, s.ddx.therm.find d = some τ → τ + 100000 ≤ s.now 3) → allRunning s = [] →
    let temp := s.regF (Reg.opStat d) 15 8
    let lim := s.regF Reg.tlim 7 0
    (lim ≤ temp → ∃ t, exec .thermalStep s = .next t ∧ t = s.withDdx t.ddx ∧ t.ddx.therm.find d = some (s.now 3) ∧
      (opPoint s d < 3 → t.ddx.opNext.find d = some (opPoint s d + 1)) ∧ (opPoint s d = 3 → t.ddx.opNext = s.ddx.opNext) ∧
      t.ddx.reports = if lim + 10 ≤ temp then s.ddx.reports ++ [(256, 0, d)] else s.ddx.reports) ∧
    (temp < lim → exec .thermalStep s = .next s)) ∧
  (∀ s d n, s.ev.i = d → s.ddx.opNext.find d = some n → n < 4 → ∃ t, exec .opChangeDone s = .next t ∧
    t.ddx = { s.ddx with opNext := s.ddx.opNext.del d } ∧ (∀ r, r ≠ Reg.opStat d → t.reg r = s.reg r) ∧
    (opMay s d n = true → t.regF (Reg.opStat d) 1 0 = n) ∧ (opMay s d n = false → t.regs = s.regs))


/-! ## Events of the distributors, the warps, the instruction stores, the programs and the ports -/

/-- R152 to R156, R389, R390: a distributor places its next team whole, takes half of the other's where it has none, and asks again after
1 us; a continuation record goes to the bin of its entry, which is closed at 32 records or after 2 us; the head of the launch queue
becomes a warp whose registers hold its records, or its quads, and whose other lanes are vacant. -/
def Claims.PlacementEvents : Prop :=
  (∀ s d c r i rest u x, s.ev.i = d → s.ev.j = c → s.ddx.rel.find c = some r → r.unplaced.getD d [] = i :: rest → workMoves s c = true →
    let n := teamBlocks r.hdr
    let tm := newTeam s c d
    (s.ev.ids.take n).length = n → (∀ y ∈ s.ev.ids.take n, coreDie y = d) →
    placeBlocks tm.2 c r.hdr tm.1 (fun k => s.ev.ids[n + k]?) (teamCoords r.hdr r.grid i) (s.ev.ids.take n) = some u →
    u.ddx.rel.find c = some x → d < x.unplaced.length →
    ∃ t y, exec .teamPlace s = .next t ∧ t = u.withDdx { u.ddx with rel := t.ddx.rel } ∧ t.ddx.rel.find c = some y ∧
      y.unplaced.getD d [] = rest) ∧
  (∀ s d c r, s.ev.i = d → s.ev.j = c → s.ddx.rel.find c = some r → r.unplaced.getD d [] = [] → exec .teamPlace s = .next s) ∧
  (∀ e ∈ ([(.steal, false), (.stealRetry, true)] : List (Instr × Bool)), ∀ s d c r, s.ev.i = d → s.ev.j = c → d < 2 →
    s.ddx.rel.find c = some r → r.unplaced.length = 2 → r.unplaced.getD d [] = [] → workMoves s c = true → cardDies s c = [0, 1] →
    teamBlocks r.hdr ≤ roomFor s r.hdr c ((pidCores s (cardPid s c)).filter fun x => decide (coreDie x = d)) →
    let l := r.unplaced.getD (1 - d) []
    (stealDue s d c e.2 = true → 2 ≤ l.length → ∃ t y, exec e.1 s = .next t ∧ t = s.withDdx t.ddx ∧ t.ddx.rel.find c = some y ∧
      y.unplaced.getD d [] = l.drop (l.length - l.length / 2) ∧ y.unplaced.getD (1 - d) [] = l.take (l.length - l.length / 2)) ∧
    (stealDue s d c e.2 = true → l.length < 2 → ∃ t, exec e.1 s = .next t ∧
      t = s.withDdx { s.ddx with steals := s.ddx.steals.set (1024 * d + c) (s.now d, decide (l.length = 0)) }) ∧
    (stealDue s d c e.2 = false → exec e.1 s = .next s)) ∧
  (∀ s d c k p w s1, s.ev.i = d → s.ev.j = c → (queueOf s d).length < 256 → cardState s c = stRunning → firstPub s d = some c →
    poolTake (poolOf s c) d = some (k, p) → loadWords s (cardSpace s c d (130 + d)) (recordVa s c k) 8 = (.ok w, s1) →
    ((∀ b ∈ s1.ddx.bins, ¬ (b.die = d ∧ b.card = c ∧ b.entry = (dwz w 0).toNat)) →
      (s1.ddx.bins.filter fun b => decide (b.die = d)).length < 64 → ∃ t, exec .contRecordRead s = .next t ∧
      t.ddx.bins = s1.ddx.bins ++ [{ die := d, card := c, entry := (dwz w 0).toNat, recs := [w], t0 := s1.now d }] ∧
      t.ddx.queue = s1.ddx.queue ∧ poolOf t c = p) ∧
    (∀ b, (s1.ddx.bins.find? fun b => decide (b.die = d ∧ b.card = c ∧ b.entry = (dwz w 0).toNat)) = some b → b.recs.length = 31 →
      ∃ t q, exec .contRecordRead s = .next t ∧ queueOf t d = queueOf s1 d ++ [q] ∧ q.recs = b.recs ++ [w] ∧ q.entry = b.entry ∧
        q.card = c ∧ q.spawn = none)) ∧
  (∀ s d b, s.ev.i = d → (s.ddx.bins.filter fun x => decide (x.die = d))[s.ev.j]? = some b →
    (b.t0 + 2000 ≤ s.now d ∧ (queueOf s d).length < 256 → ∃ t q, exec .binTimeout s = .next t ∧ b ∉ t.ddx.bins ∧
      queueOf t d = queueOf s d ++ [q] ∧ q.recs = b.recs ∧ q.entry = b.entry ∧ q.card = b.card) ∧
    (s.now d < b.t0 + 2000 → exec .binTimeout s = .next s)) ∧
  (∀ s d core q rest r, s.ev.i = d → s.ev.j = core → queueOf s d = q :: rest → q ∉ rest → q.spawn = none → q.recs.length ≤ 32 →
    s.ddx.rel.find q.card = some r → soloFits s (relHeader s q.card) q.card core d = true →
    ∃ t w, exec .contWarpPlace s = .next t ∧ queueOf t d = rest ∧ t.warps.find (s.next + 2) = some w ∧ w.card = q.card ∧
      w.gen = cardGen s q.card ∧ w.place.map (·.1) = some core ∧ w.st = .ready ∧ t.ms.mem = s.ms.mem ∧
      (∀ l, l < 32 → laneIn w.vacant l = decide (q.recs.length ≤ l)) ∧
      (∀ l m, l < q.recs.length → m < 7 → w.vGet (2 * m) l = (dwz (q.recs.getD l []) (m + 1)).extractLsb' 0 32 ∧
        w.vGet (2 * m + 1) l = (dwz (q.recs.getD l []) (m + 1)).extractLsb' 32 32)) ∧
  (∀ s d core q rest r x, s.ev.i = d → s.ev.j = core → queueOf s d = q :: rest → q ∉ rest → q.spawn = some x →
    (∀ e ∈ s.warps, e.2.card = q.card → e.2.place.isSome = true) → s.ddx.rel.find q.card = some r →
    soloFits s (relHeader s q.card) q.card core d = true →
    ∃ t w, exec .spawnedWarpPlace s = .next t ∧ queueOf t d = rest ∧ t.warps.find (s.next + 2) = some w ∧ w.card = q.card ∧
      w.place.map (·.1) = some core ∧ w.spawn = some x ∧ t.ms.mem = s.ms.mem ∧
      (∀ l, l < 32 → laneIn w.vacant l = (x.px.getD l none).isNone) ∧
      (∀ l px py v, l < 32 → x.px.getD l none = some (px, py, v) → w.vGet 0 l = BitVec.ofInt 32 px ∧ w.vGet 1 l = BitVec.ofInt 32 py ∧
        w.vGet 2 l = BitVec.ofInt 32 v ∧ w.vGet 3 l = BitVec.ofNat 32 x.prim ∧ laneIn w.helper l = decide (v = 0)))

/-- R167 to R171, R393: a warp of a card that is being stopped is saved at a save point outside an ordered section, with everything it
holds; a section held for longer than its bound ends in WDOG; a saved team goes back whole, with everything its warps held. -/
def Claims.SavesAndRestores : Prop :=
  (∀ s i w, s.ev.i = i → s.warps.find i = some w → w.place.isSome = true →
    (stopping s w = true → w.held = false → w.hold = none → atSavePoint s i w = true → ∃ t, exec .visionPreempt s = .next t ∧
      (∃ w', t.warps.find i = some w' ∧ w' = { w with place := none, saved := true, savedOn := some (warpCore w), yieldTo := [],
                                                      ovFirst := none, ovWait := w'.ovWait, entry := false, resolving := some 0 } ∧
        (s.warps.Pairwise (fun a b => a.1 < b.1) → w'.ovWait = none)) ∧
      (∀ j v, j ≠ i → s.warps.find j = some v → ∃ v', t.warps.find j = some v' ∧
        v' = { v with ovFirst := v'.ovFirst, ovWait := v'.ovWait }) ∧ t.ms.mem = s.ms.mem ∧ t.ops = s.ops) ∧
    (stopping s w = false → exec .visionPreempt s = .next s) ∧
    (w.held = true → w.st ≠ .trapped → exec .visionPreempt s = .next s)) ∧
  (∀ s i w τ, s.ev.i = i → s.warps.find i = some w → (cardSt s w.card).preempt = some τ → w.place.isSome = true → w.held = true →
    w.st ≠ .trapped →
    (τ + ordBound s w.card ≤ s.now 3 → ∃ t w' r, exec .ordboundExpiry s = .next t ∧ t.warps.find i = some w' ∧ w'.st = .trapped ∧
      w'.trap.map (fun c => c.code) = some 0x1A ∧ w'.place = none ∧ w'.held = true ∧ t.ddx.recs = s.ddx.recs ++ [r] ∧ r.code = 0x1A ∧
      r.notice = false) ∧
    (s.now 3 < τ + ordBound s w.card → exec .ordboundExpiry s = .next s)) ∧
  (∀ s c core l n tm b x i w, s.ev.i = c → s.ev.ids = core :: l → s.ddx.teams = [(n, tm)] → tm.card = c → tm.blocks = [b] →
    s.ddx.blocks.find b = some x → x.kind = .cont → x.warps = [i] → s.warps.find i = some w → w.place = none → w.card = c →
    workMoves s c = true → (∀ e ∈ s.ops, e.2.wid ≠ i) → (∀ q ∈ s.ms.reqs, q.agent ≠ .warp i) →
    (∀ q ∈ s.lq.reqs, ∀ a k, q.who ≠ .warp i a k) → soloFits s (relHeader s c) c core (coreDie core) = true →
    ∃ t w', exec .visionRestore s = .next t ∧ t.warps.find i = some w' ∧ w' = { w with place := w'.place, saved := false } ∧
      w'.place.map (·.1) = some core ∧ t.ms.mem = s.ms.mem)

/-- R198, R204, R207, R212: a load whose pages are all read makes its overlay RESIDENT and answers its operations with the token and
OK, and leaves its slots INVALID where its generation is retired; one that faults leaves its slots INVALID, answers FAULT, and traps who
waits for it; 20 us without a placement trap the waiter with OVL_ABSENT BUSY; a page with an uncorrectable error, met by a fetch, is read
again from its image. -/
def Obligations.OverlayEvents : Prop :=
  (∀ s c o s1, s.ev.i = c → (istore s c).cmdWait = none → ovlAtBase s c s.ev.j = some o → o.st = .loading → o.doomed = false →
    loadSectors s c o (64 * o.npg) = (.done, s1) → ovlAtBase s1 c s.ev.j = some o →
    ovWaiters s1 c = [] → (∀ y ∈ (istore s1 c).ovls, y.doomed = false) →
    (cardGen s1 o.card = o.gen → o.cmd = false → ∃ t x, exec .overlayLoadDone s = .next t ∧ ovlAtBase t c s.ev.j = some x ∧
      x = { o with st := .resident, ops := [], cmd := false, pos := 0 } ∧ t.ms = s1.ms ∧
      (∀ i p, i ∈ o.ops → s1.ops.find i = some p → (t.ops.find i).map (fun y => y.result) = some [ovlTok s1 c o, 0]) ∧
      t.warps = s1.warps) ∧
    (cardGen s1 o.card ≠ o.gen → ∃ t, exec .overlayLoadDone s = .next t ∧ ovlAtBase t c s.ev.j = none ∧ t.warps = s1.warps)) ∧
  (∀ s c o k s1, s.ev.i = c → c < 32 → ovlAtBase s c s.ev.j = some o → o.st = .loading → loadSectors s c o (64 * o.npg) = (.fail k, s1) →
    ovWaiters s1 c = [] → o.cmd = false → ∃ t, exec .overlayLoadFail s = .next t ∧ (∀ x ∈ (istore t c).ovls, x.base ≠ o.base) ∧ t.ms = s1.ms ∧
      (∀ i p, i ∈ o.ops → s1.ops.find i = some p → (t.ops.find i).map (fun y => y.result) = some [0, 6]) ∧
      ∀ i w, s1.warps.find i = some w → w.place.map (·.1) = some c → w.ovWait = some o.base →
        ∃ w', t.warps.find i = some w' ∧ w'.st = .trapped ∧ w'.trap = some k ∧ w'.ovWait = none) ∧
  (∀ s i w p x, s.ev.j = i → s.ev.i < 32 → s.warps.find i = some w → w.place = some p → p.1 = s.ev.i → w.ovFirst = some x →
    w.st = .ready →
    (x.first + 20000 ≤ s.now (coreDie p.1) → ∃ t w' r, exec .placeTimeout s = .next t ∧ t.warps.find i = some w' ∧ w'.st = .trapped ∧
      w'.trap.map (fun c => (c.code, c.detail)) = some (0x09, 4) ∧ t.ddx.recs = s.ddx.recs ++ [r] ∧ r.code = 0x09 ∧ r.detail = 4 ∧
      w'.ovFirst = none ∧ t.ist = s.ist) ∧
    (s.now (coreDie p.1) < x.first + 20000 → exec .placeTimeout s = .next s)) ∧
  (∀ s c slot o s1, s.ev.i = c → s.ev.j = slot → ovlOf s c slot = some o → slot ∈ (istore s c).bad → o.st ≠ .loading →
    fetchesBad s c slot = true → rereadPage s c o slot 64 = (.done, s1) → ∃ t, exec .istoreRefetch s = .next t ∧ slot ∉ (istore t c).bad ∧ t.warps = s1.warps ∧
      t.ms = s1.ms ∧ (istore t c).bytes = (istore s1 c).bytes) ∧
  (∀ s c slot, s.ev.i = c → s.ev.j = slot → ovlOf s c slot = none → ∃ t, exec .istoreRefetch s = .next t ∧
    slot ∉ (istore t c).bad ∧ t = { s with ist := t.ist })

/-- R172, R177, R308, R322 to R325, R357: a dispatched program starts with five walkers at its entry, K0 at its arguments, and its tokens;
walkers that have met at a checkpoint go on together, or stop when the card is being pre-empted; the save writes the image and frees the
core; a restore takes the walkers' state from the image; a program that goes too long without a checkpoint raises CKPT_LATE. -/
def Obligations.TileProgramEvents : Prop :=
  (∀ s tc t0 x r, s.ev.i = tc → tileFresh s tc = some (t0, x) → s.ddx.rel.find x.card = some r → (cardSt s x.card).saved = false →
    ∃ t u, exec .tileDispatch s = .next t ∧ t = { s with tiles := t.tiles, regs := t.regs } ∧ t.tiles.find tc = some u ∧
      u.walkers.length = 5 ∧ (∀ w ∈ u.walkers, w.st = .run ∧ w.pc = zeroAddr ∧ w.count = 0 ∧ w.kr 0 = BitVec.ofNat 64 r.argsVa ∧
        ∀ n, 0 < n → n < 32 → w.kr n = 0) ∧ u.acc = [] ∧ u.handles = [] ∧
      u.fifo.map List.length = (List.range 6).map (fun i => r.tok / 16 ^ i % 16) ∧ (∀ j, j ≠ tc → t.tiles.find j = s.tiles.find j)) ∧
  (∀ s tc t0 x n m, s.ev.i = tc → s.tiles.find tc = some t0 → t0.card = some x → t0.live = some (n, m) → t0.trapped = false →
    t0.heldStop = false → cardState s x.card = stRunning → ctxLive s x = true →
    (allAt t0 n none = true → (cardSt s x.card).preempt = none → ∃ t u, exec .ckptMeet s = .next t ∧ t = { s with tiles := t.tiles } ∧
      t.tiles.find tc = some u ∧ u.live = none ∧ u.span = 0 ∧ u.spanAt = some (s.now (coreDie (tc + 32))) ∧
      u.walkers.length = t0.walkers.length ∧ ∀ (e : Nat) (w : Walker), t0.walkers[e]? = some w → ∃ w', u.walkers[e]? = some w' ∧ (w.walks = false → w' = w) ∧
        (w.walks = true → w'.st = .run ∧ w'.count = w.count + 1 ∧ w'.pc = { w.pc with off := w.pc.off + 8 })) ∧
    (allAt t0 n none = true → (cardSt s x.card).preempt.isSome = true → ∃ t u, exec .ckptMeet s = .next t ∧ t = { s with tiles := t.tiles } ∧
      t.tiles.find tc = some u ∧ u.live = some (n, m) ∧ ∀ (e : Nat) (w : Walker), t0.walkers[e]? = some w → w.walks = true →
        ∃ w', u.walkers[e]? = some w' ∧ w'.st = .stopped ∧ w'.count = w.count ∧ w'.pc = w.pc) ∧
    (allAt t0 n none = false → exec .ckptMeet s = .next s)) ∧
  (∀ s tc t0 x n m, s.ev.i = tc → tc < 24 → s.tiles.find tc = some t0 → t0.card = some x → x.card < 1024 → t0.live = some (n, m) →
    ctxLive s x = true → cardState s x.card = stRunning → (cardSt s x.card).tear = false →
    let img := imageFixed s tc t0 x m ++ (liveTiles m).flatMap (tileBytes t0) ++
      (liveFiles m).flatMap fun i => fileBytes (t0.wf.getD i WFile.none)
    (tileSaving s x.card = true → (regionTakes s (saveArea s x.card) img.length).isSome = true → ∃ t, exec .tileSaveComplete s = .next t ∧ t.tiles.find tc = none ∧
      cardState t x.card = (if (cardSt s x.card).toHeld then stHeld else stPreempted) ∧ (cardSt t x.card).saved = true ∧
      (cardSt t x.card).savedOn = some tc ∧ (cardSt t x.card).preempt = none ∧
      ∀ i, i < img.length → t.ms.mem.read (saveArea s x.card + i) = img.getD i 0) ∧
    (tileSaving s x.card = false → exec .tileSaveComplete s = .next s)) ∧
  (∀ s tc t0 x, s.ev.i = tc → tileFresh s tc = some (t0, x) → (cardSt s x.card).saved = true → t0.trapped = false → t0.heldStop = false →
    let base := saveArea s x.card
    (∀ h, h < 64 → (mem64 s (base + 0x200 + 8 * h)).toNat % 2 = 0) →
    ∃ t u, exec .tileRestore s = .next t ∧ t.ms = s.ms ∧ t.tiles.find tc = some u ∧ u.restoring = false ∧ u.handles = [] ∧
      u.walkers.length = 5 ∧ (∀ w ∈ u.walkers, w.st = .run ∧ w.pc = ovAddr (mem64 s (base + 0x10)) ∧
        w.count = (mem64 s (base + 0x18)).toNat ∧ ∀ n, n < 32 → w.kr n = mem64 s (base + 0x40 + 8 * n)) ∧
      (cardSt t x.card).saved = false) ∧
  (∀ s tc t0 x a, s.ev.i = tc → s.tiles.find tc = some t0 → t0.card = some x → t0.spanAt = some a → t0.trapped = false →
    t0.heldStop = false → ctxLive s x = true → cardState s x.card = stRunning →
    (cardBound s x.card < t0.span + (s.now (coreDie (tc + 32)) - a) → cardDmpol s x.card ≠ 2 → ∃ t r, exec .ckspanExpiry s = .next t ∧
      t.ddx.recs = s.ddx.recs ++ [r] ∧ r.code = 0x14 ∧ r.detail = 1 ∧ r.card = x.card ∧ r.notice = false) ∧
    (cardBound s x.card < t0.span + (s.now (coreDie (tc + 32)) - a) → cardDmpol s x.card = 2 → ∃ t, exec .ckspanExpiry s = .next t ∧
      t.ddx.reports = s.ddx.reports ++ [(0x14, x.card, 1)]) ∧
    (t0.span + (s.now (coreDie (tc + 32)) - a) ≤ cardBound s x.card → exec .ckspanExpiry s = .next s))

/-- R377, R378, R382, R385, R387, R388: a path release starts by the check of its header, a command completes once every write of it has
been performed, the warps of a spawning command go to the launch queue one by one while it has room, and a card that is being stopped
stops its engine once its writes are performed. -/
def Obligations.PathEngineEvents : Prop :=
  (∀ s d p h s1 r, s.ev.i = d → d < 2 → s.pces.find d = some p → p.st = .start → pceGo s p = true →
    readChecked s (pceSpace s d (pceCard p)) (cardWord s (pceCard p) 8).toNat 8 = (.ok h, s1) → s1.pces = s.pces →
    s1.ddx.rel.find (pceCard p) = some r →
    (pathHdrOk h = true → dwz h 3 = 0 → ∃ t x, exec .pceReleaseStart s = .next t ∧ t.pces.find d = some { p with st := .command, idx := 0 } ∧
      t.ddx.rel.find (pceCard p) = some x ∧ x.hdr = h ∧ x.shade = [] ∧ x.obound = bits (dwz h 4) 31 0 ∧ t.ms = (endUnit s1 d).ms) ∧
    (pathHdrOk h = false → p.card.isSome = true → ∃ t x q, exec .pceReleaseStart s = .next t ∧ t.pces.find d = some x ∧ x.st = .trapped ∧
      x.back = .header ∧ t.ddx.recs = s1.ddx.recs ++ [q] ∧ q.code = 0x18 ∧ q.detail = 8 ∧ q.addr = (cardWord s (pceCard p) 8).toNat)) ∧
  (∀ s d p r, s.ev.i = d → d < 2 → s.pces.find d = some p → p.st = .wait → pceGo s p = true → pceBusy s d = false →
    s.ddx.rel.find (pceCard p) = some r →
    (p.ecc = none → p.idx + 1 < (dwz r.hdr 1).toNat → ∃ t x, exec .pceCommandComplete s = .next t ∧ t = { s with pces := t.pces } ∧
      t.pces.find d = some x ∧ x.st = .command ∧ x.idx = p.idx + 1 ∧ x.cmd = none) ∧
    (p.ecc = none → (dwz r.hdr 1).toNat ≤ p.idx + 1 → ∃ t x, exec .pceCommandComplete s = .next t ∧ t.pces.find d = some x ∧
      x.st = .drain ∧ (cardSt t (pceCard p)).ch = max (cardSt s (pceCard p)).ch p.ch) ∧
    (∀ a, p.ecc = some a → ∃ t x q, exec .pceCommandComplete s = .next t ∧ t.pces.find d = some x ∧ x.st = .trapped ∧ x.back = .next ∧
      t.ddx.recs = s.ddx.recs ++ [q] ∧ q.code = 0x10 ∧ q.addr = a)) ∧
  (∀ s d p, s.ev.i = d → s.pces.find d = some p → pceBusy s d = true → exec .pceCommandComplete s = .next s) ∧
  (∀ s d p, s.ev.i = d → d < 2 → s.pces.find d = some p → p.st = .spawn → pceGo s p = true → pceBusy s d = false → p.ch ≤ s.now d →
    p.gathered = true →
    (p.spawns = [] → ∃ t, exec .pceSpawn s = .next t ∧ t = { s with pces := t.pces } ∧ t.pces.find d = some { p with st := .wait }) ∧
    (∀ w l, p.spawns = w :: l → (queueOf s d).length < 256 → ∃ t q, exec .pceSpawn s = .next t ∧
      t.pces.find d = some { p with spawns := l } ∧ queueOf t d = queueOf s d ++ [q] ∧ q.card = pceCard p ∧ q.spawn = some w ∧
      t.ms = s.ms) ∧
    (∀ w l, p.spawns = w :: l → 256 ≤ (queueOf s d).length → ∃ t, exec .pceSpawn s = .next t ∧ queueOf t d = queueOf s d ∧
      t.pces.find d = some p)) ∧
  (∀ s d p, s.ev.i = d → d < 2 → s.pces.find d = some p → p.stop = false → (cardSt s (pceCard p)).preempt.isSome = true →
    (pceBusy s d = false → ∃ t, exec .pceStop s = .next t ∧ t = { endUnit s d with pces := t.pces } ∧ t.pces.find d = some { p with stop := true } ∧
      ∀ e, e ≠ d → t.pces.find e = s.pces.find e) ∧
    (pceBusy s d = true → exec .pceStop s = .next s))

/-- R71, R106, R133, R431, R432: a frame starts by asking its free queue for a buffer; a burst that may land writes its bytes into the
buffer, and one that may not is discarded and counted; a frame's end owes its record, which goes to the done queue once the writes are
performed and their horizon is reached. -/
def Obligations.FrameEvents : Prop :=
  (∀ s n, s.ev.i = n → n < 4 → s.ev.j % 16 ≠ s.regF (Reg.spVc n) 3 0 → ∃ t, exec .frameStart s = .next t ∧
    OnlyReg s t (Reg.spDrop n) (BitVec.ofNat 64 (satInc (s.reg (Reg.spDrop n)).toNat 32))) ∧
  (∀ s n, s.ev.i = n → (4 ≤ n ∨ s.ev.j % 16 = s.regF (Reg.spVc n) 3 0) → spFreePa s n ≠ 0 → (spState s n).inFrame = false →
    (spState s n).ended = false → (spState s n).asked = false → ∃ t r, exec .frameStart s = .next t ∧
      t = { s with sp := t.sp, lq := t.lq, next := t.next } ∧ t.lq = { s.lq with reqs := s.lq.reqs ++ [r] } ∧ r.cb = spFreePa s n ∧
      r.op = .deq ∧ r.who = .sp n ∧ (spState t n).inFrame = true ∧ (spState t n).asked = true ∧ (spState t n).bytes = 0 ∧
      (spState t n).buf = none) ∧
  (∀ s n pa size, s.ev.i = n → n < 9 → (spState s n).inFrame = true → (spState s n).asked = false → (spState s n).buf = some (pa, size) →
    s.ev.bytes ≠ [] → s.ev.j + s.ev.bytes.length ≤ size →
    (burstOk s n (spanSecs (pa + s.ev.j) s.ev.bytes.length) = true →
      (∀ q ∈ spanSecs (pa + s.ev.j) s.ev.bytes.length, dramOk s (64 * q) = true) → ∃ t, exec .streamBurst s = .next t ∧
        t.ms.mem = s.ms.mem ∧ (spState t n).bytes = (spState s n).bytes + s.ev.bytes.length ∧ (spState t n).trunc = (spState s n).trunc ∧
        ∀ i, i < s.ev.bytes.length → ∃ q ∈ t.ms.reqs, q.agent = .sp n ∧ q.sec = (pa + s.ev.j + i) / 64 ∧
          ∃ bs, q.kind = .engine bs false ∧ (pa + s.ev.j + i, s.ev.bytes.getD i 0) ∈ bs) ∧
    (burstOk s n (spanSecs (pa + s.ev.j) s.ev.bytes.length) = false → ∃ t, exec .streamBurst s = .next t ∧ t.ms = s.ms ∧
      (spState t n).burstErr = true ∧ t.reg (Reg.spErr n) = BitVec.ofNat 64 (satInc (s.reg (Reg.spErr n)).toNat 32))) ∧
  (∀ s n, s.ev.i = n → (spState s n).inFrame = true → (spState s n).asked = false → ∃ t, exec .frameEnd s = .next t ∧
    t = { s with sp := t.sp } ∧ spState t n = { spState s n with inFrame := false, ended := (spState s n).buf.isSome }) ∧
  (∀ s n, s.ev.i = n → (spState s n).inFrame = false → exec .frameEnd s = .next s) ∧
  (∀ s n pa size τ, s.ev.i = n → (spState s n).buf = some (pa, size) → (spState s n).ended = true → (spState s n).asked = false →
    (spState s n).tFirst = some τ →
    ((∀ q ∈ s.ms.reqs, q.agent ≠ .sp n) → (spState s n).wct + 6 ≤ s.now 3 → ∃ t r e, exec .frameRecordIssue s = .next t ∧
      t = { s with sp := t.sp, lq := t.lq, next := t.next } ∧ t.lq = { s.lq with reqs := s.lq.reqs ++ [r] } ∧
      r.cb = (s.reg (Reg.spDoneq n)).toNat ∧ r.op = .enq e ∧ e.length = 64 ∧ leNat (e.take 8) = pa % 2 ^ 64 ∧
      leNat ((e.drop 16).take 8) = τ % 2 ^ 64 ∧ leNat ((e.drop 24).take 8) = s.now 3 % 2 ^ 64 ∧ (spState t n).asked = true) ∧
    (s.now 3 < (spState s n).wct + 6 → exec .frameRecordIssue s = .next s))

/-- R397, R398, R400: after its context's release a record is enqueued at TRAPQ of its PID and vector 0 raised, once; a record of an
earlier generation is dropped and counted; one that cannot be enqueued is tried again after 1 us, a notice is dropped and counted. -/
def Obligations.TrapRecords : Prop :=
  (∀ s u i r, s.ev.i = i → s.ddx.recs[i]? = some r → r.tried = none → recFirst s i r = true → recReleased s r = true →
    TrapqTakes s r u → ∃ t, exec .trapDeliver s = .next t ∧ Delivered u t i r) ∧
  (∀ s u i r τ, s.ev.i = i → s.ddx.recs[i]? = some r → r.tried = some τ → recFirst s i r = true → TrapqTakes s r u →
    (τ + 1000 ≤ s.now 3 → ∃ t, exec .trapResend s = .next t ∧ Delivered u t i r) ∧
    (s.now 3 < τ + 1000 → exec .trapResend s = .next s)) ∧
  (∀ s u i r, s.ev.i = i → s.ddx.recs[i]? = some r → r.tried = none → recFirst s i r = true → recReleased s r = true →
    (r.notice = false → cardGen s r.card ≠ r.gen → ∃ t, exec .trapDeliver s = .next t ∧ t.ddx.recs = dropAt s.ddx.recs i ∧
      t.reg (Reg.trapqDrop r.pid) = BitVec.ofNat 64 (satInc (s.reg (Reg.trapqDrop r.pid)).toNat 32) ∧ t.ms = s.ms) ∧
    (r.notice = false → Handed s r u → u.regBit (Reg.trapq r.pid) 63 = false → ∃ t, exec .trapDeliver s = .next t ∧
      t = u.withDdx { u.ddx with recs := setAt u.ddx.recs i { r with tried := some (u.now 3) } }) ∧
    (r.notice = true → Handed s r u → u.regBit (Reg.trapq r.pid) 63 = false → ∃ t, exec .trapDeliver s = .next t ∧
      t.ddx.recs = dropAt u.ddx.recs i ∧
      t.reg (Reg.trapqDrop r.pid) = BitVec.ofNat 64 (satInc (u.reg (Reg.trapqDrop r.pid)).toNat 32))) ∧
  (∀ s i r, s.ev.i = i → s.ddx.recs[i]? = some r → recReleased s r = false → exec .trapDeliver s = .next s)

/-! ## Statements of several parts -/

/-- The parts IntegerWords and PackedElements hold (R244; R38, R244). -/
def Obligations.IntegerArithmetic : Prop := Claims.IntegerWords ∧ Claims.PackedElements

/-- The parts MovingWords and LogicWords hold (R245, R247, R256, R258, R259, R261; R248). -/
def Obligations.MovesAndLogic : Prop := Claims.MovingWords ∧ Claims.LogicWords

/-- The parts FloatWords and FloatFunctions hold (R249 to R251; R252, R253). -/
def Obligations.FloatArithmetic : Prop := Claims.FloatWords ∧ Claims.FloatFunctions

/-- The parts ConvertWords and PredicateWords hold (R254, R255, R257; R246, R250, R260, R261). -/
def Obligations.ConversionsAndPredicates : Prop := Claims.ConvertWords ∧ Claims.PredicateWords

/-- The parts CollectiveWords and SpecialRegisterWords hold (R262 to R269; R231, R275, R277). -/
def Obligations.LanesAndSpecialRegisters : Prop := Claims.CollectiveWords ∧ Claims.SpecialRegisterWords

/-- The parts TransferWords and CallDepthTraps hold (R271; R271). -/
def Obligations.Transfers : Prop := Claims.TransferWords ∧ Claims.CallDepthTraps

/-- The parts WaitingWords and ExitWord hold (R272, R274, R294, R297; R273). -/
def Obligations.Standing : Prop := Claims.WaitingWords ∧ Claims.ExitWord

/-- The parts TrapWords, WarpTrapEntry and IllegalWordsTrap hold (R278; R220, R398, R399; R220, R233). -/
def Obligations.WarpTraps : Prop := Claims.TrapWords ∧ Claims.WarpTrapEntry ∧ Claims.IllegalWordsTrap

/-- The parts ClauseBegins and OverlayWords hold (R215 to R218; R276). -/
def Obligations.ClausesAndOverlays : Prop := Claims.ClauseBegins ∧ Claims.OverlayWords

/-- The parts LaneAddressChecks and LoadWord hold (R279; R281, R282, R284). -/
def Obligations.Loads : Prop := Claims.LaneAddressChecks ∧ Claims.LoadWord

/-- The parts ScratchpadStore and GlobalStore hold (R283, R284; R283, R284, R97). -/
def Obligations.Stores : Prop := Claims.ScratchpadStore ∧ Claims.GlobalStore

/-- The parts AtomicWords and CopyAndFence hold (R290, R291; R288, R292). -/
def Obligations.AtomicsCopiesFences : Prop := Claims.AtomicWords ∧ Claims.CopyAndFence

/-- The parts PhaseBarrierWords and OrderedSections hold (R295, R296, R298; R391 to R393). -/
def Obligations.BarriersAndOrder : Prop := Claims.PhaseBarrierWords ∧ Claims.OrderedSections

/-- The parts KernelWords, KernelBranches and SampledWords hold (R336; R337, R338; R311, R339, R340). -/
def Obligations.KernelScalars : Prop := Claims.KernelWords ∧ Claims.KernelBranches ∧ Claims.SampledWords

/-- The parts HandleBinding and HandleChecks hold (R317, R319, R330, R341; R317, R330). -/
def Obligations.Handles : Prop := Claims.HandleBinding ∧ Claims.HandleChecks

/-- The parts ElementWords and RowWords hold (R44 to R52, R331, R347; R348 to R350). -/
def Obligations.VectorEngineWords : Prop := Claims.ElementWords ∧ Claims.RowWords

/-- The parts TokensMove and MeetingWords hold (R312, R313, R333; R323, R355, R356). -/
def Obligations.TokensAndMeetings : Prop := Claims.TokensMove ∧ Claims.MeetingWords

/-- The parts RegisterWrites and TimeAndLeaseWrites hold (R5, R25, R436; R31, R34, R83). -/
def Obligations.RegisterAndTimeWrites : Prop := Claims.RegisterWrites ∧ Claims.TimeAndLeaseWrites

/-- The parts LeatPortCommands and ShootDowns hold (R132; R76). -/
def Obligations.PortsAndShootDowns : Prop := Claims.LeatPortCommands ∧ Claims.ShootDowns

/-- The parts ContextCommands and PathSkip hold (R401, R402; R386, R401). -/
def Obligations.TrappedContexts : Prop := Claims.ContextCommands ∧ Claims.PathSkip

/-- The parts PacketOutcomes, PacketWords and SignalWords hold (R135, R138, R145, R147, R158; R139 to R141, R143 to R147; R146).
-/
def Obligations.Packets : Prop := Claims.PacketOutcomes ∧ Claims.PacketWords ∧ Claims.SignalWords

/-- The parts GovernorSupervision and GovernorEnds hold (R405, R408, R419; R411, R412). -/
def Obligations.Supervision : Prop := Claims.GovernorSupervision ∧ Claims.GovernorEnds

/-- The parts LeatControl and LeatWaiting hold (R123, R124, R113; R120, R125 to R130). -/
def Obligations.LeatService : Prop := Claims.LeatControl ∧ Claims.LeatWaiting

/-- The parts PlacementEvents and SavesAndRestores hold (R152 to R156, R389, R390; R167 to R171, R393). -/
def Obligations.PlacementAndSaves : Prop := Claims.PlacementEvents ∧ Claims.SavesAndRestores
end

