-- ==== Sys2Proof/Laws/Homes.lean ====
section
/-! SUPPORT. What an access at a home can do beside its bytes: sluices, caches and directories account for it, and memory, poison and
every agent stay as they were. -/

namespace Sys2Proof.Machine

set_option Elab.async false

/-- Only the memory system's accounting, the registers that count, notifications and the numbering differ: no byte, no poison, and
nothing of an agent but the notice that a thread's WAIT has. -/
structure Accounted (s t : State) : Prop where
  rest : t = { s with regs := t.regs, ms := t.ms, lq := { s.lq with notes := t.lq.notes }, th := t.th, next := t.next }
  mem : t.ms.mem = s.ms.mem
  poison : t.ms.poison = s.ms.poison

namespace Accounted

theorem refl (s : State) : Accounted s s := ⟨rfl, rfl, rfl⟩

theorem trans {s t u : State} (a : Accounted s t) (b : Accounted t u) : Accounted s u :=
  ⟨by rw [b.rest, a.rest], b.mem.trans a.mem, b.poison.trans a.poison⟩

theorem setReg (s : State) (pa : Nat) (v : DWord) : Accounted s (s.setReg pa v) := ⟨rfl, rfl, rfl⟩

theorem withMs (s : State) (m : MemSys) (h : m.mem = s.ms.mem) (p : m.poison = s.ms.poison) : Accounted s (s.withMs m) := ⟨rfl, h, p⟩

theorem fresh (s : State) : Accounted s s.fresh.2 := ⟨rfl, rfl, rfl⟩

theorem foldl {α : Type} (f : State → α → State) (hf : ∀ s a, Accounted s (f s a)) (l : List α) (s : State) :
    Accounted s (l.foldl f s) := by
  induction l generalizing s with
  | nil => exact refl s
  | cons a t ih => exact (hf s a).trans (ih _)

end Accounted

open Accounted

theorem setSluWin_accounted (s : State) (m r k : Nat) : Accounted s (setSluWin s m r k) := withMs s _ rfl rfl

theorem sluRoll_accounted (s : State) (m r : Nat) : Accounted s (sluRoll s m r) := by
  unfold sluRoll
  split
  · exact (((Accounted.setReg s _ _).trans (Accounted.setReg _ _ _)).trans (Accounted.setReg _ _ _)).trans (setSluWin_accounted _ _ _ _)
  · exact refl s

theorem sluAdmit_accounted (s : State) (m r : Nat) (wb : Bool) : Accounted s (sluAdmit s m r wb).2 := by
  unfold sluAdmit
  dsimp only
  repeat' split
  · exact refl s
  · exact Accounted.setReg s _ _
  · exact Accounted.setReg s _ _
  · exact (Accounted.setReg s _ _).trans (Accounted.setReg _ _ _)
  · exact Accounted.setReg s _ _

theorem sluAdmitN_accounted (s : State) (m r n : Nat) : Accounted s (sluAdmitN s m r n).2 := by
  induction n generalizing s with
  | zero => exact refl s
  | succ n ih =>
    have h := sluAdmit_accounted s m r false
    unfold sluAdmitN
    split <;> rename_i e <;> rw [e] at h
    · exact h.trans (ih _)
    · exact h

theorem setReq_accounted (s : State) (q : Req) : Accounted s (setReq s q) := withMs s _ rfl rfl

theorem dropWaits_accounted (s : State) (r sec : Nat) : Accounted s (dropWaits s r sec) := by
  unfold dropWaits
  split
  · exact refl s
  · exact withMs s _ rfl rfl

/-- All that a sluice does with an access: it accounts for it, and makes it or holds it. -/
theorem atSluice_cases (s : State) (r sec need : Nat) (act : State → State) :
    ∃ u, Accounted s u ∧ (atSluice s r sec need act = (true, act u) ∨ atSluice s r sec need act = (false, u)) := by
  unfold atSluice
  split
  · exact ⟨_, dropWaits_accounted s r sec, .inl rfl⟩
  · have h1 := sluRoll_accounted s (homeMc (64 * sec)) r
    dsimp only
    split
    · exact ⟨_, h1, .inr rfl⟩
    · have h2 := fun n => (h1.trans (sluAdmitN_accounted _ (homeMc (64 * sec)) r n)).trans (dropWaits_accounted _ r sec)
      split
      · exact ⟨_, h2 _, .inl rfl⟩
      · refine ⟨_, ?_, .inr rfl⟩
        exact ((h2 _).trans (Accounted.fresh _)).trans (withMs _ _ rfl rfl)

theorem releaseHeld_accounted (s : State) (i : Nat) : Accounted s (releaseHeld s i) := by
  unfold releaseHeld
  split
  · exact setReq_accounted s _
  · split
    · exact withMs s _ rfl rfl
    · exact refl s

theorem readmit_accounted (s : State) (m r : Nat) : Accounted s (readmit s m r) := by
  refine foldl _ (fun a i => ?_) _ s
  have h := sluAdmit_accounted a m r false
  split <;> rename_i e <;> rw [e] at h
  · exact h.trans (releaseHeld_accounted _ i)
  · exact h

theorem sluBegin_accounted (s : State) (m r k : Nat) : Accounted s (sluBegin s m r k) := by
  have h : ∀ x, Accounted s x → Accounted s (readmit (setSluWin ((x.setReg (Reg.sluCnt m r) 0).setReg (Reg.sluHold m r) 0) m r k) m r) :=
    fun x hx => (((hx.trans (Accounted.setReg _ _ _)).trans (Accounted.setReg _ _ _)).trans (setSluWin_accounted _ _ _ _)).trans
      (readmit_accounted _ _ _)
  unfold sluBegin
  refine h _ ?_
  split
  · exact ((Accounted.setReg s _ _).trans (Accounted.setReg _ _ _)).trans (withMs _ _ rfl rfl)
  · exact Accounted.setReg s _ _

theorem chargeBack_accounted (s : State) (pa r : Nat) : Accounted s (chargeBack s pa r) := by
  have h1 := sluRoll_accounted s (homeMc pa) r
  unfold chargeBack
  refine Accounted.trans ?_ (sluAdmit_accounted _ _ _ _)
  split
  · exact (h1.trans (sluBegin_accounted _ _ _ _)).trans (sluRoll_accounted _ _ _)
  · exact h1

theorem setHc_accounted (s : State) (h : Nat) (t : Tbl HLine) : Accounted s (setHc s h t) := withMs s _ rfl rfl
theorem stamp_accounted (s : State) : Accounted s (stamp s).2 := withMs s _ rfl rfl
theorem setDir_accounted (s : State) (l : Nat) (e : DirEnt) : Accounted s (setDir s l e) := withMs s _ rfl rfl
theorem setL1_accounted (s : State) (c : Nat) (t : Tbl LLine) : Accounted s (setL1 s c t) := withMs s _ rfl rfl
theorem setRdc_accounted (s : State) (d : Nat) (t : Tbl LLine) : Accounted s (setRdc s d t) := withMs s _ rfl rfl

theorem hcEvict_accounted (s : State) (h line : Nat) : Accounted s (hcEvict s h line) := by
  unfold hcEvict
  split
  · exact (foldl _ (fun a _ => chargeBack_accounted a _ _) _ s).trans (setHc_accounted _ _ _)
  · exact refl s

theorem hcAlloc_accounted (s : State) (h line p : Nat) : Accounted s (hcAlloc s h line p).2 := by
  unfold hcAlloc
  split
  · exact refl s
  · dsimp only
    split
    · rename_i w v _
      cases v with
      | some l => exact ((hcEvict_accounted s h l).trans (stamp_accounted _)).trans (setHc_accounted _ _ _)
      | none => exact (stamp_accounted s).trans (setHc_accounted _ _ _)
    · exact refl s

theorem hcMark_accounted (s : State) (h sec : Nat) (b : Option Nat) : Accounted s (hcMark s h sec b) := by
  unfold hcMark
  split
  · exact (stamp_accounted s).trans (setHc_accounted _ _ _)
  · exact refl s

/-- A sector read at its home, and one made ready to be written there: only the slice's accounting changes. -/
theorem readApply_accounted (s : State) (sec p : Nat) : Accounted s (readApply s sec p) := by
  have h := hcAlloc_accounted s (homeSlice s (64 * sec)) (sec / 8) p
  unfold readApply
  dsimp only
  split
  · exact h.trans (hcMark_accounted _ _ _ _)
  · exact h

theorem writeApply_accounted (s : State) (sec p r : Nat) : Accounted s (writeApply s sec p r) := by
  have h := hcAlloc_accounted s (homeSlice s (64 * sec)) (sec / 8) p
  unfold writeApply
  dsimp only
  split
  · exact h.trans (hcMark_accounted _ _ _ _)
  · exact h

theorem noteStore_accounted (s : State) (sec : Nat) (bs : List (Nat × Byte)) : Accounted s (noteStore s sec bs) := by
  unfold noteStore
  dsimp only
  split <;> split <;> exact ⟨rfl, rfl, rfl⟩

theorem backSector_accounted (s : State) (core pid sec : Nat) : Accounted s (backSector s core pid sec) :=
  (foldl _ (fun a _ => chargeBack_accounted a _ _) _ s).trans (writeApply_accounted _ _ _ _)

/-- A recall writes back the owner's sectors and notes their stores; memory holds their bytes already. -/
theorem giveUp_accounted (s : State) (line : Nat) : Accounted s (giveUp s line) := by
  unfold giveUp
  refine Accounted.trans (Accounted.trans ?_ (setDir_accounted _ _ _)) (foldl _ (fun a _ => noteStore_accounted a _ _) _ _)
  split
  · refine Accounted.trans ?_ (setL1_accounted _ _ _)
    split
    · exact foldl _ (fun a _ => backSector_accounted a _ _ _) _ s
    · exact refl s
  · exact refl s

theorem homeTakes_accounted {s t : State} {line : Nat} (h : homeTakes s line = some t) : Accounted s t := by
  unfold homeTakes at h
  split at h
  · cases h
  · injection h with h
    subst h
    split
    · exact giveUp_accounted s line
    · exact refl s

/-- All that a read of a sector at its home does. -/
theorem homeRead_accounted (s : State) (r p sec : Nat) : Accounted s (homeRead s r p sec).2 := by
  unfold homeRead
  split
  · rename_i t h
    obtain ⟨u, hu, e | e⟩ := atSluice_cases t r sec (readNeed t sec) fun a => readApply a sec p
    · rw [e]; exact ((homeTakes_accounted h).trans hu).trans (readApply_accounted u sec p)
    · rw [e]; exact (homeTakes_accounted h).trans hu
  · exact refl s

theorem delDir_accounted (s : State) (line : Nat) : Accounted s (delDir s line) := withMs s _ rfl rfl

theorem dirEvict_accounted (s : State) (line : Nat) : Accounted s (dirEvict s line) := by
  have h : Accounted s (if (l1Owner s line).isSome then giveUp s line else s) := by
    split
    · exact giveUp_accounted s line
    · exact refl s
  unfold dirEvict
  generalize (if (l1Owner s line).isSome then giveUp s line else s) = u at h ⊢
  dsimp only
  split
  · exact (h.trans (Accounted.setReg _ _ _)).trans (delDir_accounted _ _)
  · exact h.trans (delDir_accounted _ _)

theorem dirEnsure_accounted {s t : State} {line : Nat} (h : dirEnsure s line = some t) : Accounted s t := by
  unfold dirEnsure at h
  dsimp only at h
  repeat' split at h
  · injection h with h; exact h ▸ refl s
  · injection h with h; exact h ▸ setDir_accounted _ _ _
  · injection h with h; exact h ▸ (dirEvict_accounted _ _).trans (setDir_accounted _ _ _)
  · injection h with h; exact h ▸ (dirEvict_accounted _ _).trans (setDir_accounted _ _ _)
  · cases h

theorem rdcTouch_accounted (s : State) (d line : Nat) : Accounted s (rdcTouch s d line) := by
  unfold rdcTouch
  split
  · exact (stamp_accounted s).trans (setRdc_accounted _ _ _)
  · exact refl s

theorem rdcFill_accounted (s : State) (d sec p : Nat) (x : Sec) (e : Nat) : Accounted s (rdcFill s d sec p x e) := by
  unfold rdcFill
  dsimp only
  split
  · exact (stamp_accounted s).trans (setRdc_accounted _ _ _)
  · split
    · exact (stamp_accounted s).trans (setRdc_accounted _ _ _)
    · exact stamp_accounted s

theorem grantLease_accounted (s : State) (line who p : Nat) : Accounted s (grantLease s line who p).2 := setDir_accounted _ _ _

/-- All that a read of a sector does, through a remote-data cache or at its home. -/
theorem readSector_accounted (s : State) (r p sec : Nat) : Accounted s (readSector s r p sec).2 := by
  have h := homeRead_accounted s r p sec
  unfold readSector
  split
  · exact h
  · split
    · exact rdcTouch_accounted s _ _
    · split
      · rename_i e
        rw [e] at h
        split
        · rename_i e2
          exact ((h.trans (dirEnsure_accounted e2)).trans (grantLease_accounted _ _ _ _)).trans (rdcFill_accounted _ _ _ _ _ _)
        · exact h
      · exact h

end Sys2Proof.Machine
end

