-- ==== Sys2Proof/Laws/PerInstr.lean ====
section
/-! SUPPORT. Families of statements about every instruction as syntax, one lemma per constructor: decoding an encoding gives
the instruction back. -/

namespace Sys2Proof

set_option Elab.async false

/-! ## Fields of a packed word -/

theorem extract_append_low {n m : Nat} (a : BitVec n) (b : BitVec m) (i k : Nat) (h : i + k ≤ m) :
    (a ++ b).extractLsb' i k = b.extractLsb' i k := by
  apply BitVec.eq_of_getLsbD_eq
  intro j hj
  have h1 : i + j < m := by omega
  simp [BitVec.getLsbD_append, h1]

theorem extract_append_high {n m : Nat} (a : BitVec n) (b : BitVec m) (i k : Nat) (h : m ≤ i) :
    (a ++ b).extractLsb' i k = a.extractLsb' (i - m) k := by
  apply BitVec.eq_of_getLsbD_eq
  intro j hj
  have h1 : ¬ (i + j < m) := by omega
  have h2 : i + j - m = i - m + j := by omega
  simp [BitVec.getLsbD_append, h1, h2]

theorem extract_all {n : Nat} (a : BitVec n) : a.extractLsb' 0 n = a := by
  apply BitVec.eq_of_getLsbD_eq
  intro j hj
  simp [hj]

theorem vOpcode_vPack (opc : BitVec 10) (w : VWord) : vOpcode (vPack opc w) = opc.toNat := by
  refine congrArg BitVec.toNat (?_ : (vPack opc w).extractLsb' 54 10 = opc)
  repeat first
    | exact extract_all _
    | refine (extract_append_high _ _ _ _ (by decide)).trans ?_
    | refine (extract_append_low _ _ _ _ (by decide)).trans ?_

theorem vFieldsOf_vPack (opc : BitVec 10) (w : VWord) : vFieldsOf (vPack opc w) = w := by
  refine (VWord.mk.injEq ..).mpr ⟨?_, ?_, ?_, ?_, ?_, ?_, ?_⟩
  all_goals
    repeat first
      | exact extract_all _
      | refine (extract_append_high _ _ _ _ (by decide)).trans ?_
      | refine (extract_append_low _ _ _ _ (by decide)).trans ?_
theorem tOpcode_tPack (opc : BitVec 7) (w : TWord) : tOpcode (tPack opc w) = opc.toNat := by
  refine congrArg BitVec.toNat (?_ : (tPack opc w).extractLsb' 34 7 = opc)
  repeat first
    | exact extract_all _
    | refine (extract_append_high _ _ _ _ (by decide)).trans ?_
    | refine (extract_append_low _ _ _ _ (by decide)).trans ?_
theorem tFieldsOf_tPack (opc : BitVec 7) (w : TWord) : tFieldsOf (tPack opc w) = w := by
  refine (TWord.mk.injEq ..).mpr ⟨?_, ?_, ?_, ?_, ?_, ?_, ?_, ?_, ?_, ?_⟩
  all_goals
    repeat first
      | exact extract_all _
      | refine (extract_append_high _ _ _ _ (by decide)).trans ?_
      | refine (extract_append_low _ _ _ _ (by decide)).trans ?_
theorem vision_rt (opc : BitVec 10) (w : VWord) (i : Instr) (h : vInstr opc.toNat w = some i) :
    decodeVision (vPack opc w) = .ok i := by
  simp [decodeVision, vOpcode_vPack, vFieldsOf_vPack, h]

theorem tile_rt (opc : BitVec 7) (w : TWord) (i : Instr) (h : tInstr opc.toNat w = some i) :
    decodeTile (tPack opc w) = .ok i := by
  simp [decodeTile, tOpcode_tPack, tFieldsOf_tPack, h]

end Sys2Proof

namespace Sys2Proof.Laws

set_option Elab.async false

/-- The encoding of a well-formed instruction decodes to it. -/
def RoundTrip.Statement (i : Instr) : Prop := ∀ e, i.wellFormed = true → encode i = some e → decode e = .ok i

theorem roundTrip_vision (opc : BitVec 10) (w : VWord) (i : Instr) (he : encode i = some (.vision (vPack opc w)))
    (h : vInstr opc.toNat w = some i) : RoundTrip.Statement i := by
  intro e _ h2
  rw [he] at h2
  cases h2
  exact vision_rt opc w i h

theorem roundTrip_tile (opc : BitVec 7) (w : TWord) (i : Instr) (he : encode i = some (.tile (tPack opc w)))
    (h : tInstr opc.toNat w = some i) : RoundTrip.Statement i := by
  intro e _ h2
  rw [he] at h2
  cases h2
  exact tile_rt opc w i h

theorem roundTrip_bus (b : BusWrite) (i : Instr) (he : encode i = some (.bus b)) (hw : i.wellFormed = b.wellFormed i) :
    RoundTrip.Statement i := by
  intro e h1 h2
  rw [he] at h2
  cases h2
  rw [hw] at h1
  simp only [BusWrite.wellFormed, Bool.and_eq_true, decide_eq_true_eq] at h1
  simp only [decode, h1.2]

theorem roundTrip_packet (p : Rec64) (i : Instr) (he : encode i = some (.packet p))
    (h : i.wellFormed = true → decodePacket p = .ok i) : RoundTrip.Statement i := by
  intro e h1 h2
  rw [he] at h2
  cases h2
  exact h h1

theorem roundTrip_command (p : Rec64) (i : Instr) (he : encode i = some (.command p))
    (h : i.wellFormed = true → decodeCommand p = .ok i) : RoundTrip.Statement i := by
  intro e h1 h2
  rw [he] at h2
  cases h2
  exact h h1

theorem roundTrip_event (i : Instr) (he : encode i = none) : RoundTrip.Statement i := by
  intro e _ h2
  rw [he] at h2
  cases h2

theorem RoundTrip.powerOnReset : RoundTrip.Statement .powerOnReset := roundTrip_event _ rfl
theorem RoundTrip.bootTmo : RoundTrip.Statement .bootTmo := roundTrip_event _ rfl
theorem RoundTrip.lockstepMismatch : RoundTrip.Statement .lockstepMismatch := roundTrip_event _ rfl
theorem RoundTrip.linkRetrainFail : RoundTrip.Statement .linkRetrainFail := roundTrip_event _ rfl
theorem RoundTrip.thermTrip : RoundTrip.Statement .thermTrip := roundTrip_event _ rfl
theorem RoundTrip.debugUnlock : RoundTrip.Statement .debugUnlock := roundTrip_event _ rfl
theorem RoundTrip.pcieInboundRead : RoundTrip.Statement .pcieInboundRead := roundTrip_event _ rfl
theorem RoundTrip.registerWrite (b : BusWrite) : RoundTrip.Statement (.registerWrite b) := roundTrip_bus b _ rfl rfl
theorem RoundTrip.dtuLoadWrite (b : BusWrite) : RoundTrip.Statement (.dtuLoadWrite b) := roundTrip_bus b _ rfl rfl
theorem RoundTrip.dtuAdjWrite (b : BusWrite) : RoundTrip.Statement (.dtuAdjWrite b) := roundTrip_bus b _ rfl rfl
theorem RoundTrip.dtuCorrection : RoundTrip.Statement .dtuCorrection := roundTrip_event _ rfl
theorem RoundTrip.ppsInEdge : RoundTrip.Statement .ppsInEdge := roundTrip_event _ rfl
theorem RoundTrip.ppsOutPulse : RoundTrip.Statement .ppsOutPulse := roundTrip_event _ rfl
theorem RoundTrip.leaseCfgWrite (b : BusWrite) : RoundTrip.Statement (.leaseCfgWrite b) := roundTrip_bus b _ rfl rfl
theorem RoundTrip.homeReadFill : RoundTrip.Statement .homeReadFill := roundTrip_event _ rfl
theorem RoundTrip.rdcFill : RoundTrip.Statement .rdcFill := roundTrip_event _ rfl
theorem RoundTrip.homeStore : RoundTrip.Statement .homeStore := roundTrip_event _ rfl
theorem RoundTrip.homeReduction : RoundTrip.Statement .homeReduction := roundTrip_event _ rfl
theorem RoundTrip.ownerRecallComplete : RoundTrip.Statement .ownerRecallComplete := roundTrip_event _ rfl
theorem RoundTrip.engineLineRelease : RoundTrip.Statement .engineLineRelease := roundTrip_event _ rfl
theorem RoundTrip.serviceCoreExclRequest : RoundTrip.Statement .serviceCoreExclRequest := roundTrip_event _ rfl
theorem RoundTrip.serviceCoreExclGrant : RoundTrip.Statement .serviceCoreExclGrant := roundTrip_event _ rfl
theorem RoundTrip.shootPage (b : BusWrite) : RoundTrip.Statement (.shootPage b) := roundTrip_bus b _ rfl rfl
theorem RoundTrip.shootAsid (b : BusWrite) : RoundTrip.Statement (.shootAsid b) := roundTrip_bus b _ rfl rfl
theorem RoundTrip.shootAll (b : BusWrite) : RoundTrip.Statement (.shootAll b) := roundTrip_bus b _ rfl rfl
theorem RoundTrip.shootComplete : RoundTrip.Statement .shootComplete := roundTrip_event _ rfl
theorem RoundTrip.requestDrop : RoundTrip.Statement .requestDrop := roundTrip_event _ rfl
theorem RoundTrip.completionArrival : RoundTrip.Statement .completionArrival := roundTrip_event _ rfl
theorem RoundTrip.streamBurst : RoundTrip.Statement .streamBurst := roundTrip_event _ rfl
theorem RoundTrip.frameStart : RoundTrip.Statement .frameStart := roundTrip_event _ rfl
theorem RoundTrip.frameEnd : RoundTrip.Statement .frameEnd := roundTrip_event _ rfl
theorem RoundTrip.frameRecordIssue : RoundTrip.Statement .frameRecordIssue := roundTrip_event _ rfl
theorem RoundTrip.leatEnqueue : RoundTrip.Statement .leatEnqueue := roundTrip_event _ rfl
theorem RoundTrip.leatDequeuePlain : RoundTrip.Statement .leatDequeuePlain := roundTrip_event _ rfl
theorem RoundTrip.leatDequeuePacket : RoundTrip.Statement .leatDequeuePacket := roundTrip_event _ rfl
theorem RoundTrip.leatReserve : RoundTrip.Statement .leatReserve := roundTrip_event _ rfl
theorem RoundTrip.leatDone : RoundTrip.Statement .leatDone := roundTrip_event _ rfl
theorem RoundTrip.qctlInit : RoundTrip.Statement .qctlInit := roundTrip_event _ rfl
theorem RoundTrip.qctlDrain : RoundTrip.Statement .qctlDrain := roundTrip_event _ rfl
theorem RoundTrip.qctlClose : RoundTrip.Statement .qctlClose := roundTrip_event _ rfl
theorem RoundTrip.qctlReopen : RoundTrip.Statement .qctlReopen := roundTrip_event _ rfl
theorem RoundTrip.qctlRepair : RoundTrip.Statement .qctlRepair := roundTrip_event _ rfl
theorem RoundTrip.qctlQuery : RoundTrip.Statement .qctlQuery := roundTrip_event _ rfl
theorem RoundTrip.publishNotify : RoundTrip.Statement .publishNotify := roundTrip_event _ rfl
theorem RoundTrip.offerAnswer : RoundTrip.Statement .offerAnswer := roundTrip_event _ rfl
theorem RoundTrip.offerTimeout : RoundTrip.Statement .offerTimeout := roundTrip_event _ rfl
theorem RoundTrip.waiterRemoval : RoundTrip.Statement .waiterRemoval := roundTrip_event _ rfl
theorem RoundTrip.waiterReissue : RoundTrip.Statement .waiterReissue := roundTrip_event _ rfl
theorem RoundTrip.releaseEndReeval : RoundTrip.Statement .releaseEndReeval := roundTrip_event _ rfl
theorem RoundTrip.lqEnq (b : BusWrite) : RoundTrip.Statement (.lqEnq b) := roundTrip_bus b _ rfl rfl
theorem RoundTrip.lqDeq (b : BusWrite) : RoundTrip.Statement (.lqDeq b) := roundTrip_bus b _ rfl rfl
theorem RoundTrip.lqResv (b : BusWrite) : RoundTrip.Statement (.lqResv b) := roundTrip_bus b _ rfl rfl
theorem RoundTrip.lqDone (b : BusWrite) : RoundTrip.Statement (.lqDone b) := roundTrip_bus b _ rfl rfl
theorem RoundTrip.lqInit (b : BusWrite) : RoundTrip.Statement (.lqInit b) := roundTrip_bus b _ rfl rfl
theorem RoundTrip.lqDrain (b : BusWrite) : RoundTrip.Statement (.lqDrain b) := roundTrip_bus b _ rfl rfl
theorem RoundTrip.lqClose (b : BusWrite) : RoundTrip.Statement (.lqClose b) := roundTrip_bus b _ rfl rfl
theorem RoundTrip.lqReopen (b : BusWrite) : RoundTrip.Statement (.lqReopen b) := roundTrip_bus b _ rfl rfl
theorem RoundTrip.lqRepair (b : BusWrite) : RoundTrip.Statement (.lqRepair b) := roundTrip_bus b _ rfl rfl
theorem RoundTrip.lqQuery (b : BusWrite) : RoundTrip.Statement (.lqQuery b) := roundTrip_bus b _ rfl rfl
theorem RoundTrip.mqEnable (b : BusWrite) : RoundTrip.Statement (.mqEnable b) := roundTrip_bus b _ rfl rfl
theorem RoundTrip.mqSkip (b : BusWrite) : RoundTrip.Statement (.mqSkip b) := roundTrip_bus b _ rfl rfl
theorem RoundTrip.mqRetry (b : BusWrite) : RoundTrip.Statement (.mqRetry b) := roundTrip_bus b _ rfl rfl
theorem RoundTrip.mqStop (b : BusWrite) : RoundTrip.Statement (.mqStop b) := roundTrip_bus b _ rfl rfl
theorem RoundTrip.qpPacketFetch : RoundTrip.Statement .qpPacketFetch := roundTrip_event _ rfl
theorem RoundTrip.pktNop (p : Rec64) : RoundTrip.Statement (.pktNop p) :=
  roundTrip_packet p _ rfl fun h => by
    simp [Instr.wellFormed, Rec64.isPacket, Rec64.isSignal] at h
    simp [decodePacket, h]
theorem RoundTrip.launch (p : Rec64) : RoundTrip.Statement (.launch p) :=
  roundTrip_packet p _ rfl fun h => by
    simp [Instr.wellFormed, Rec64.isPacket, Rec64.isSignal] at h
    simp [decodePacket, h]
theorem RoundTrip.wait (p : Rec64) : RoundTrip.Statement (.wait p) :=
  roundTrip_packet p _ rfl fun h => by
    simp [Instr.wellFormed, Rec64.isPacket, Rec64.isSignal] at h
    simp [decodePacket, h]
theorem RoundTrip.waitNotify : RoundTrip.Statement .waitNotify := roundTrip_event _ rfl
theorem RoundTrip.waitPoll : RoundTrip.Statement .waitPoll := roundTrip_event _ rfl
theorem RoundTrip.waitTimeout : RoundTrip.Statement .waitTimeout := roundTrip_event _ rfl
theorem RoundTrip.pred (p : Rec64) : RoundTrip.Statement (.pred p) :=
  roundTrip_packet p _ rfl fun h => by
    simp [Instr.wellFormed, Rec64.isPacket, Rec64.isSignal] at h
    simp [decodePacket, h]
theorem RoundTrip.trigger (p : Rec64) : RoundTrip.Statement (.trigger p) :=
  roundTrip_packet p _ rfl fun h => by
    simp [Instr.wellFormed, Rec64.isPacket, Rec64.isSignal] at h
    simp [decodePacket, h]
theorem RoundTrip.signalStore (p : Rec64) : RoundTrip.Statement (.signalStore p) :=
  roundTrip_packet p _ rfl fun h => by
    simp [Instr.wellFormed, Rec64.isPacket, Rec64.isSignal] at h
    simp [decodePacket, h]
theorem RoundTrip.signalAdd (p : Rec64) : RoundTrip.Statement (.signalAdd p) :=
  roundTrip_packet p _ rfl fun h => by
    simp [Instr.wellFormed, Rec64.isPacket, Rec64.isSignal] at h
    simp [decodePacket, h]
theorem RoundTrip.signalEnq (p : Rec64) : RoundTrip.Statement (.signalEnq p) :=
  roundTrip_packet p _ rfl fun h => by
    simp [Instr.wellFormed, Rec64.isPacket, Rec64.isSignal] at h
    simp [decodePacket, h]
theorem RoundTrip.signalIntr (p : Rec64) : RoundTrip.Statement (.signalIntr p) :=
  roundTrip_packet p _ rfl fun h => by
    simp [Instr.wellFormed, Rec64.isPacket, Rec64.isSignal] at h
    simp [decodePacket, h]
theorem RoundTrip.qpBlockedResume : RoundTrip.Statement .qpBlockedResume := roundTrip_event _ rfl
theorem RoundTrip.adopt (b : BusWrite) : RoundTrip.Statement (.adopt b) := roundTrip_bus b _ rfl rfl
theorem RoundTrip.adoptStartThreads : RoundTrip.Statement .adoptStartThreads := roundTrip_event _ rfl
theorem RoundTrip.handback (b : BusWrite) : RoundTrip.Statement (.handback b) := roundTrip_bus b _ rfl rfl
theorem RoundTrip.handbackResume : RoundTrip.Statement .handbackResume := roundTrip_event _ rfl
theorem RoundTrip.graphValidate (b : BusWrite) : RoundTrip.Statement (.graphValidate b) := roundTrip_bus b _ rfl rfl
theorem RoundTrip.graphTrigger (b : BusWrite) : RoundTrip.Statement (.graphTrigger b) := roundTrip_bus b _ rfl rfl
theorem RoundTrip.graphNodeComplete : RoundTrip.Statement .graphNodeComplete := roundTrip_event _ rfl
theorem RoundTrip.ddxReleaseRequest : RoundTrip.Statement .ddxReleaseRequest := roundTrip_event _ rfl
theorem RoundTrip.periodicRelease : RoundTrip.Statement .periodicRelease := roundTrip_event _ rfl
theorem RoundTrip.jobCardWrite (b : BusWrite) : RoundTrip.Statement (.jobCardWrite b) := roundTrip_bus b _ rfl rfl
theorem RoundTrip.activate (b : BusWrite) : RoundTrip.Statement (.activate b) := roundTrip_bus b _ rfl rfl
theorem RoundTrip.retire (b : BusWrite) : RoundTrip.Statement (.retire b) := roundTrip_bus b _ rfl rfl
theorem RoundTrip.ddxResume (b : BusWrite) : RoundTrip.Statement (.ddxResume b) := roundTrip_bus b _ rfl rfl
theorem RoundTrip.ddxKill (b : BusWrite) : RoundTrip.Statement (.ddxKill b) := roundTrip_bus b _ rfl rfl
theorem RoundTrip.dispatch : RoundTrip.Statement .dispatch := roundTrip_event _ rfl
theorem RoundTrip.preemptSaveComplete : RoundTrip.Statement .preemptSaveComplete := roundTrip_event _ rfl
theorem RoundTrip.cardWorkDone : RoundTrip.Statement .cardWorkDone := roundTrip_event _ rfl
theorem RoundTrip.deadlineMiss : RoundTrip.Statement .deadlineMiss := roundTrip_event _ rfl
theorem RoundTrip.thermalStep : RoundTrip.Statement .thermalStep := roundTrip_event _ rfl
theorem RoundTrip.opChangeDone : RoundTrip.Statement .opChangeDone := roundTrip_event _ rfl
theorem RoundTrip.sluCfgWrite (b : BusWrite) : RoundTrip.Statement (.sluCfgWrite b) := roundTrip_bus b _ rfl rfl
theorem RoundTrip.sluiceWindow : RoundTrip.Statement .sluiceWindow := roundTrip_event _ rfl
theorem RoundTrip.sluiceOverrunReport : RoundTrip.Statement .sluiceOverrunReport := roundTrip_event _ rfl
theorem RoundTrip.teamPlace : RoundTrip.Statement .teamPlace := roundTrip_event _ rfl
theorem RoundTrip.steal : RoundTrip.Statement .steal := roundTrip_event _ rfl
theorem RoundTrip.stealRetry : RoundTrip.Statement .stealRetry := roundTrip_event _ rfl
theorem RoundTrip.contRecordRead : RoundTrip.Statement .contRecordRead := roundTrip_event _ rfl
theorem RoundTrip.binTimeout : RoundTrip.Statement .binTimeout := roundTrip_event _ rfl
theorem RoundTrip.contWarpPlace : RoundTrip.Statement .contWarpPlace := roundTrip_event _ rfl
theorem RoundTrip.teamNodeForward : RoundTrip.Statement .teamNodeForward := roundTrip_event _ rfl
theorem RoundTrip.teamBarrierRelease : RoundTrip.Statement .teamBarrierRelease := roundTrip_event _ rfl
theorem RoundTrip.blockBarrierRelease : RoundTrip.Statement .blockBarrierRelease := roundTrip_event _ rfl
theorem RoundTrip.phaseBarrierRecheck : RoundTrip.Statement .phaseBarrierRecheck := roundTrip_event _ rfl
theorem RoundTrip.clauseBegin (x : DWord) : RoundTrip.Statement (.clauseBegin x) := fun e _ h => by cases h; rfl
theorem RoundTrip.longLatencyComplete : RoundTrip.Statement .longLatencyComplete := roundTrip_event _ rfl
theorem RoundTrip.fenceWaitEnd : RoundTrip.Statement .fenceWaitEnd := roundTrip_event _ rfl
theorem RoundTrip.sleepExpiry : RoundTrip.Statement .sleepExpiry := roundTrip_event _ rfl
theorem RoundTrip.visionPreempt : RoundTrip.Statement .visionPreempt := roundTrip_event _ rfl
theorem RoundTrip.ordboundExpiry : RoundTrip.Statement .ordboundExpiry := roundTrip_event _ rfl
theorem RoundTrip.visionRestore : RoundTrip.Statement .visionRestore := roundTrip_event _ rfl
theorem RoundTrip.overlayLoadDone : RoundTrip.Statement .overlayLoadDone := roundTrip_event _ rfl
theorem RoundTrip.overlayLoadFail : RoundTrip.Statement .overlayLoadFail := roundTrip_event _ rfl
theorem RoundTrip.placeTimeout : RoundTrip.Statement .placeTimeout := roundTrip_event _ rfl
theorem RoundTrip.istoreRefetch : RoundTrip.Statement .istoreRefetch := roundTrip_event _ rfl
theorem RoundTrip.ovlCmdLoad (b : BusWrite) : RoundTrip.Statement (.ovlCmdLoad b) := roundTrip_bus b _ rfl rfl
theorem RoundTrip.invalCard (b : BusWrite) : RoundTrip.Statement (.invalCard b) := roundTrip_bus b _ rfl rfl
theorem RoundTrip.invalPid (b : BusWrite) : RoundTrip.Statement (.invalPid b) := roundTrip_bus b _ rfl rfl
theorem RoundTrip.iadd (w : VWord) : RoundTrip.Statement (.iadd w) := roundTrip_vision 0x000 w _ rfl rfl
theorem RoundTrip.isub (w : VWord) : RoundTrip.Statement (.isub w) := roundTrip_vision 0x001 w _ rfl rfl
theorem RoundTrip.imul (w : VWord) : RoundTrip.Statement (.imul w) := roundTrip_vision 0x002 w _ rfl rfl
theorem RoundTrip.imulhi (w : VWord) : RoundTrip.Statement (.imulhi w) := roundTrip_vision 0x003 w _ rfl rfl
theorem RoundTrip.imad (w : VWord) : RoundTrip.Statement (.imad w) := roundTrip_vision 0x004 w _ rfl rfl
theorem RoundTrip.imin (w : VWord) : RoundTrip.Statement (.imin w) := roundTrip_vision 0x005 w _ rfl rfl
theorem RoundTrip.imax (w : VWord) : RoundTrip.Statement (.imax w) := roundTrip_vision 0x006 w _ rfl rfl
theorem RoundTrip.iabs (w : VWord) : RoundTrip.Statement (.iabs w) := roundTrip_vision 0x007 w _ rfl rfl
theorem RoundTrip.ineg (w : VWord) : RoundTrip.Statement (.ineg w) := roundTrip_vision 0x008 w _ rfl rfl
theorem RoundTrip.lea (w : VWord) : RoundTrip.Statement (.lea w) := roundTrip_vision 0x009 w _ rfl rfl
theorem RoundTrip.icmp (w : VWord) : RoundTrip.Statement (.icmp w) := roundTrip_vision 0x00A w _ rfl rfl
theorem RoundTrip.sel (w : VWord) : RoundTrip.Statement (.sel w) := roundTrip_vision 0x00B w _ rfl rfl
theorem RoundTrip.and (w : VWord) : RoundTrip.Statement (.and w) := roundTrip_vision 0x020 w _ rfl rfl
theorem RoundTrip.or (w : VWord) : RoundTrip.Statement (.or w) := roundTrip_vision 0x021 w _ rfl rfl
theorem RoundTrip.xor (w : VWord) : RoundTrip.Statement (.xor w) := roundTrip_vision 0x022 w _ rfl rfl
theorem RoundTrip.not (w : VWord) : RoundTrip.Statement (.not w) := roundTrip_vision 0x023 w _ rfl rfl
theorem RoundTrip.shl (w : VWord) : RoundTrip.Statement (.shl w) := roundTrip_vision 0x024 w _ rfl rfl
theorem RoundTrip.shr (w : VWord) : RoundTrip.Statement (.shr w) := roundTrip_vision 0x025 w _ rfl rfl
theorem RoundTrip.rot (w : VWord) : RoundTrip.Statement (.rot w) := roundTrip_vision 0x026 w _ rfl rfl
theorem RoundTrip.bfe (w : VWord) : RoundTrip.Statement (.bfe w) := roundTrip_vision 0x027 w _ rfl rfl
theorem RoundTrip.bfi (w : VWord) : RoundTrip.Statement (.bfi w) := roundTrip_vision 0x028 w _ rfl rfl
theorem RoundTrip.popc (w : VWord) : RoundTrip.Statement (.popc w) := roundTrip_vision 0x029 w _ rfl rfl
theorem RoundTrip.clz (w : VWord) : RoundTrip.Statement (.clz w) := roundTrip_vision 0x02A w _ rfl rfl
theorem RoundTrip.brev (w : VWord) : RoundTrip.Statement (.brev w) := roundTrip_vision 0x02B w _ rfl rfl
theorem RoundTrip.fadd (w : VWord) : RoundTrip.Statement (.fadd w) := roundTrip_vision 0x040 w _ rfl rfl
theorem RoundTrip.fsub (w : VWord) : RoundTrip.Statement (.fsub w) := roundTrip_vision 0x041 w _ rfl rfl
theorem RoundTrip.fmul (w : VWord) : RoundTrip.Statement (.fmul w) := roundTrip_vision 0x042 w _ rfl rfl
theorem RoundTrip.ffma (w : VWord) : RoundTrip.Statement (.ffma w) := roundTrip_vision 0x043 w _ rfl rfl
theorem RoundTrip.fmin (w : VWord) : RoundTrip.Statement (.fmin w) := roundTrip_vision 0x044 w _ rfl rfl
theorem RoundTrip.fmax (w : VWord) : RoundTrip.Statement (.fmax w) := roundTrip_vision 0x045 w _ rfl rfl
theorem RoundTrip.fcmp (w : VWord) : RoundTrip.Statement (.fcmp w) := roundTrip_vision 0x046 w _ rfl rfl
theorem RoundTrip.fclass (w : VWord) : RoundTrip.Statement (.fclass w) := roundTrip_vision 0x047 w _ rfl rfl
theorem RoundTrip.frcp (w : VWord) : RoundTrip.Statement (.frcp w) := roundTrip_vision 0x048 w _ rfl rfl
theorem RoundTrip.frsq (w : VWord) : RoundTrip.Statement (.frsq w) := roundTrip_vision 0x049 w _ rfl rfl
theorem RoundTrip.fsqrt (w : VWord) : RoundTrip.Statement (.fsqrt w) := roundTrip_vision 0x04A w _ rfl rfl
theorem RoundTrip.fexp2 (w : VWord) : RoundTrip.Statement (.fexp2 w) := roundTrip_vision 0x04B w _ rfl rfl
theorem RoundTrip.flog2 (w : VWord) : RoundTrip.Statement (.flog2 w) := roundTrip_vision 0x04C w _ rfl rfl
theorem RoundTrip.fsin (w : VWord) : RoundTrip.Statement (.fsin w) := roundTrip_vision 0x04D w _ rfl rfl
theorem RoundTrip.fcos (w : VWord) : RoundTrip.Statement (.fcos w) := roundTrip_vision 0x04E w _ rfl rfl
theorem RoundTrip.cvt (w : VWord) : RoundTrip.Statement (.cvt w) := roundTrip_vision 0x060 w _ rfl rfl
theorem RoundTrip.pack (w : VWord) : RoundTrip.Statement (.pack w) := roundTrip_vision 0x061 w _ rfl rfl
theorem RoundTrip.unpack (w : VWord) : RoundTrip.Statement (.unpack w) := roundTrip_vision 0x062 w _ rfl rfl
theorem RoundTrip.dp4 (w : VWord) : RoundTrip.Statement (.dp4 w) := roundTrip_vision 0x063 w _ rfl rfl
theorem RoundTrip.dp8 (w : VWord) : RoundTrip.Statement (.dp8 w) := roundTrip_vision 0x064 w _ rfl rfl
theorem RoundTrip.bsel (w : VWord) : RoundTrip.Statement (.bsel w) := roundTrip_vision 0x065 w _ rfl rfl
theorem RoundTrip.mov (w : VWord) : RoundTrip.Statement (.mov w) := roundTrip_vision 0x066 w _ rfl rfl
theorem RoundTrip.pcomb (w : VWord) : RoundTrip.Statement (.pcomb w) := roundTrip_vision 0x067 w _ rfl rfl
theorem RoundTrip.psave (w : VWord) : RoundTrip.Statement (.psave w) := roundTrip_vision 0x068 w _ rfl rfl
theorem RoundTrip.pload (w : VWord) : RoundTrip.Statement (.pload w) := roundTrip_vision 0x069 w _ rfl rfl
theorem RoundTrip.qxch (w : VWord) : RoundTrip.Statement (.qxch w) := roundTrip_vision 0x080 w _ rfl rfl
theorem RoundTrip.lpick (w : VWord) : RoundTrip.Statement (.lpick w) := roundTrip_vision 0x081 w _ rfl rfl
theorem RoundTrip.vote (w : VWord) : RoundTrip.Statement (.vote w) := roundTrip_vision 0x082 w _ rfl rfl
theorem RoundTrip.scan (w : VWord) : RoundTrip.Statement (.scan w) := roundTrip_vision 0x083 w _ rfl rfl
theorem RoundTrip.red (w : VWord) : RoundTrip.Statement (.red w) := roundTrip_vision 0x084 w _ rfl rfl
theorem RoundTrip.lsame (w : VWord) : RoundTrip.Statement (.lsame w) := roundTrip_vision 0x085 w _ rfl rfl
theorem RoundTrip.lfirst (w : VWord) : RoundTrip.Statement (.lfirst w) := roundTrip_vision 0x086 w _ rfl rfl
theorem RoundTrip.bra (w : VWord) : RoundTrip.Statement (.bra w) := roundTrip_vision 0x0A0 w _ rfl rfl
theorem RoundTrip.brx (w : VWord) : RoundTrip.Statement (.brx w) := roundTrip_vision 0x0A1 w _ rfl rfl
theorem RoundTrip.call (w : VWord) : RoundTrip.Statement (.call w) := roundTrip_vision 0x0A2 w _ rfl rfl
theorem RoundTrip.ret (w : VWord) : RoundTrip.Statement (.ret w) := roundTrip_vision 0x0A3 w _ rfl rfl
theorem RoundTrip.ocall (w : VWord) : RoundTrip.Statement (.ocall w) := roundTrip_vision 0x0A4 w _ rfl rfl
theorem RoundTrip.conv (w : VWord) : RoundTrip.Statement (.conv w) := roundTrip_vision 0x0A5 w _ rfl rfl
theorem RoundTrip.exit (w : VWord) : RoundTrip.Statement (.exit w) := roundTrip_vision 0x0A6 w _ rfl rfl
theorem RoundTrip.sleep (w : VWord) : RoundTrip.Statement (.sleep w) := roundTrip_vision 0x0A7 w _ rfl rfl
theorem RoundTrip.waitf (w : VWord) : RoundTrip.Statement (.waitf w) := roundTrip_vision 0x0A8 w _ rfl rfl
theorem RoundTrip.nop (w : VWord) : RoundTrip.Statement (.nop w) := roundTrip_vision 0x0A9 w _ rfl rfl
theorem RoundTrip.ovld (w : VWord) : RoundTrip.Statement (.ovld w) := roundTrip_vision 0x0C0 w _ rfl rfl
theorem RoundTrip.ovqry (w : VWord) : RoundTrip.Statement (.ovqry w) := roundTrip_vision 0x0C1 w _ rfl rfl
theorem RoundTrip.ovrel (w : VWord) : RoundTrip.Statement (.ovrel w) := roundTrip_vision 0x0C2 w _ rfl rfl
theorem RoundTrip.rdsr (w : VWord) : RoundTrip.Statement (.rdsr w) := roundTrip_vision 0x0C3 w _ rfl rfl
theorem RoundTrip.wrsr (w : VWord) : RoundTrip.Statement (.wrsr w) := roundTrip_vision 0x0C4 w _ rfl rfl
theorem RoundTrip.trap (w : VWord) : RoundTrip.Statement (.trap w) := roundTrip_vision 0x0C5 w _ rfl rfl
theorem RoundTrip.bkpt (w : VWord) : RoundTrip.Statement (.bkpt w) := roundTrip_vision 0x0C6 w _ rfl rfl
theorem RoundTrip.svc (w : VWord) : RoundTrip.Statement (.svc w) := roundTrip_vision 0x0C7 w _ rfl rfl
theorem RoundTrip.ld (w : VWord) : RoundTrip.Statement (.ld w) := roundTrip_vision 0x100 w _ rfl rfl
theorem RoundTrip.st (w : VWord) : RoundTrip.Statement (.st w) := roundTrip_vision 0x101 w _ rfl rfl
theorem RoundTrip.cpa (w : VWord) : RoundTrip.Statement (.cpa w) := roundTrip_vision 0x102 w _ rfl rfl
theorem RoundTrip.atomAdd (w : VWord) : RoundTrip.Statement (.atomAdd w) := roundTrip_vision 0x110 w _ rfl rfl
theorem RoundTrip.atomMin (w : VWord) : RoundTrip.Statement (.atomMin w) := roundTrip_vision 0x111 w _ rfl rfl
theorem RoundTrip.atomMax (w : VWord) : RoundTrip.Statement (.atomMax w) := roundTrip_vision 0x112 w _ rfl rfl
theorem RoundTrip.atomAnd (w : VWord) : RoundTrip.Statement (.atomAnd w) := roundTrip_vision 0x113 w _ rfl rfl
theorem RoundTrip.atomOr (w : VWord) : RoundTrip.Statement (.atomOr w) := roundTrip_vision 0x114 w _ rfl rfl
theorem RoundTrip.atomXor (w : VWord) : RoundTrip.Statement (.atomXor w) := roundTrip_vision 0x115 w _ rfl rfl
theorem RoundTrip.atomExch (w : VWord) : RoundTrip.Statement (.atomExch w) := roundTrip_vision 0x116 w _ rfl rfl
theorem RoundTrip.atomCas (w : VWord) : RoundTrip.Statement (.atomCas w) := roundTrip_vision 0x117 w _ rfl rfl
theorem RoundTrip.atomFadd (w : VWord) : RoundTrip.Statement (.atomFadd w) := roundTrip_vision 0x118 w _ rfl rfl
theorem RoundTrip.fredAdd (w : VWord) : RoundTrip.Statement (.fredAdd w) := roundTrip_vision 0x119 w _ rfl rfl
theorem RoundTrip.fredMin (w : VWord) : RoundTrip.Statement (.fredMin w) := roundTrip_vision 0x11A w _ rfl rfl
theorem RoundTrip.fredMax (w : VWord) : RoundTrip.Statement (.fredMax w) := roundTrip_vision 0x11B w _ rfl rfl
theorem RoundTrip.fredAnd (w : VWord) : RoundTrip.Statement (.fredAnd w) := roundTrip_vision 0x11C w _ rfl rfl
theorem RoundTrip.fredOr (w : VWord) : RoundTrip.Statement (.fredOr w) := roundTrip_vision 0x11D w _ rfl rfl
theorem RoundTrip.fredXor (w : VWord) : RoundTrip.Statement (.fredXor w) := roundTrip_vision 0x11E w _ rfl rfl
theorem RoundTrip.fredFadd (w : VWord) : RoundTrip.Statement (.fredFadd w) := roundTrip_vision 0x11F w _ rfl rfl
theorem RoundTrip.fence (w : VWord) : RoundTrip.Statement (.fence w) := roundTrip_vision 0x120 w _ rfl rfl
theorem RoundTrip.bar (w : VWord) : RoundTrip.Statement (.bar w) := roundTrip_vision 0x121 w _ rfl rfl
theorem RoundTrip.pbinit (w : VWord) : RoundTrip.Statement (.pbinit w) := roundTrip_vision 0x122 w _ rfl rfl
theorem RoundTrip.pbarr (w : VWord) : RoundTrip.Statement (.pbarr w) := roundTrip_vision 0x123 w _ rfl rfl
theorem RoundTrip.pbwait (w : VWord) : RoundTrip.Statement (.pbwait w) := roundTrip_vision 0x124 w _ rfl rfl
theorem RoundTrip.tbar (w : VWord) : RoundTrip.Statement (.tbar w) := roundTrip_vision 0x125 w _ rfl rfl
theorem RoundTrip.qenq (w : VWord) : RoundTrip.Statement (.qenq w) := roundTrip_vision 0x140 w _ rfl rfl
theorem RoundTrip.qdeq (w : VWord) : RoundTrip.Statement (.qdeq w) := roundTrip_vision 0x141 w _ rfl rfl
theorem RoundTrip.qres (w : VWord) : RoundTrip.Statement (.qres w) := roundTrip_vision 0x142 w _ rfl rfl
theorem RoundTrip.qdone (w : VWord) : RoundTrip.Statement (.qdone w) := roundTrip_vision 0x143 w _ rfl rfl
theorem RoundTrip.qctl (w : VWord) : RoundTrip.Statement (.qctl w) := roundTrip_vision 0x144 w _ rfl rfl
theorem RoundTrip.cres (w : VWord) : RoundTrip.Statement (.cres w) := roundTrip_vision 0x148 w _ rfl rfl
theorem RoundTrip.cpost (w : VWord) : RoundTrip.Statement (.cpost w) := roundTrip_vision 0x149 w _ rfl rfl
theorem RoundTrip.ordin (w : VWord) : RoundTrip.Statement (.ordin w) := roundTrip_vision 0x160 w _ rfl rfl
theorem RoundTrip.ordout (w : VWord) : RoundTrip.Statement (.ordout w) := roundTrip_vision 0x161 w _ rfl rfl
theorem RoundTrip.tileDispatch : RoundTrip.Statement .tileDispatch := roundTrip_event _ rfl
theorem RoundTrip.wordRetire : RoundTrip.Statement .wordRetire := roundTrip_event _ rfl
theorem RoundTrip.ckptMeet : RoundTrip.Statement .ckptMeet := roundTrip_event _ rfl
theorem RoundTrip.tileSaveComplete : RoundTrip.Statement .tileSaveComplete := roundTrip_event _ rfl
theorem RoundTrip.tileRestore : RoundTrip.Statement .tileRestore := roundTrip_event _ rfl
theorem RoundTrip.ckspanExpiry : RoundTrip.Statement .ckspanExpiry := roundTrip_event _ rfl
theorem RoundTrip.knop (w : TWord) : RoundTrip.Statement (.knop w) := roundTrip_tile 0x00 w _ rfl rfl
theorem RoundTrip.kadd (w : TWord) : RoundTrip.Statement (.kadd w) := roundTrip_tile 0x01 w _ rfl rfl
theorem RoundTrip.ksub (w : TWord) : RoundTrip.Statement (.ksub w) := roundTrip_tile 0x02 w _ rfl rfl
theorem RoundTrip.kmul (w : TWord) : RoundTrip.Statement (.kmul w) := roundTrip_tile 0x03 w _ rfl rfl
theorem RoundTrip.kand (w : TWord) : RoundTrip.Statement (.kand w) := roundTrip_tile 0x04 w _ rfl rfl
theorem RoundTrip.kor (w : TWord) : RoundTrip.Statement (.kor w) := roundTrip_tile 0x05 w _ rfl rfl
theorem RoundTrip.kxor (w : TWord) : RoundTrip.Statement (.kxor w) := roundTrip_tile 0x06 w _ rfl rfl
theorem RoundTrip.kshl (w : TWord) : RoundTrip.Statement (.kshl w) := roundTrip_tile 0x07 w _ rfl rfl
theorem RoundTrip.kshr (w : TWord) : RoundTrip.Statement (.kshr w) := roundTrip_tile 0x08 w _ rfl rfl
theorem RoundTrip.ksra (w : TWord) : RoundTrip.Statement (.ksra w) := roundTrip_tile 0x09 w _ rfl rfl
theorem RoundTrip.kmin (w : TWord) : RoundTrip.Statement (.kmin w) := roundTrip_tile 0x0A w _ rfl rfl
theorem RoundTrip.kmax (w : TWord) : RoundTrip.Statement (.kmax w) := roundTrip_tile 0x0B w _ rfl rfl
theorem RoundTrip.kpack (w : TWord) : RoundTrip.Statement (.kpack w) := roundTrip_tile 0x0F w _ rfl rfl
theorem RoundTrip.kaddi (w : TWord) : RoundTrip.Statement (.kaddi w) := roundTrip_tile 0x0C w _ rfl rfl
theorem RoundTrip.kli (w : TWord) : RoundTrip.Statement (.kli w) := roundTrip_tile 0x0D w _ rfl rfl
theorem RoundTrip.klis (w : TWord) : RoundTrip.Statement (.klis w) := roundTrip_tile 0x0E w _ rfl rfl
theorem RoundTrip.kbeq (w : TWord) : RoundTrip.Statement (.kbeq w) := roundTrip_tile 0x10 w _ rfl rfl
theorem RoundTrip.kbne (w : TWord) : RoundTrip.Statement (.kbne w) := roundTrip_tile 0x11 w _ rfl rfl
theorem RoundTrip.kblt (w : TWord) : RoundTrip.Statement (.kblt w) := roundTrip_tile 0x12 w _ rfl rfl
theorem RoundTrip.kbge (w : TWord) : RoundTrip.Statement (.kbge w) := roundTrip_tile 0x13 w _ rfl rfl
theorem RoundTrip.kbltu (w : TWord) : RoundTrip.Statement (.kbltu w) := roundTrip_tile 0x14 w _ rfl rfl
theorem RoundTrip.kbgeu (w : TWord) : RoundTrip.Statement (.kbgeu w) := roundTrip_tile 0x15 w _ rfl rfl
theorem RoundTrip.kjmp (w : TWord) : RoundTrip.Statement (.kjmp w) := roundTrip_tile 0x16 w _ rfl rfl
theorem RoundTrip.kloop (w : TWord) : RoundTrip.Statement (.kloop w) := roundTrip_tile 0x17 w _ rfl rfl
theorem RoundTrip.kocall (w : TWord) : RoundTrip.Statement (.kocall w) := roundTrip_tile 0x18 w _ rfl rfl
theorem RoundTrip.kret (w : TWord) : RoundTrip.Statement (.kret w) := roundTrip_tile 0x19 w _ rfl rfl
theorem RoundTrip.ktime (w : TWord) : RoundTrip.Statement (.ktime w) := roundTrip_tile 0x1A w _ rfl rfl
theorem RoundTrip.kwch (w : TWord) : RoundTrip.Statement (.kwch w) := roundTrip_tile 0x1B w _ rfl rfl
theorem RoundTrip.kld (w : TWord) : RoundTrip.Statement (.kld w) := roundTrip_tile 0x1C w _ rfl rfl
theorem RoundTrip.tbind (w : TWord) : RoundTrip.Statement (.tbind w) := roundTrip_tile 0x20 w _ rfl rfl
theorem RoundTrip.tunbind (w : TWord) : RoundTrip.Statement (.tunbind w) := roundTrip_tile 0x21 w _ rfl rfl
theorem RoundTrip.ldw (w : TWord) : RoundTrip.Statement (.ldw w) := roundTrip_tile 0x22 w _ rfl rfl
theorem RoundTrip.ldr (w : TWord) : RoundTrip.Statement (.ldr w) := roundTrip_tile 0x23 w _ rfl rfl
theorem RoundTrip.lpf (w : TWord) : RoundTrip.Statement (.lpf w) := roundTrip_tile 0x24 w _ rfl rfl
theorem RoundTrip.xmmI8 (w : TWord) : RoundTrip.Statement (.xmmI8 w) := roundTrip_tile 0x30 w _ rfl rfl
theorem RoundTrip.xmmI4 (w : TWord) : RoundTrip.Statement (.xmmI4 w) := roundTrip_tile 0x31 w _ rfl rfl
theorem RoundTrip.xmmBf16 (w : TWord) : RoundTrip.Statement (.xmmBf16 w) := roundTrip_tile 0x32 w _ rfl rfl
theorem RoundTrip.xmmFp16 (w : TWord) : RoundTrip.Statement (.xmmFp16 w) := roundTrip_tile 0x33 w _ rfl rfl
theorem RoundTrip.xmmbI8 (w : TWord) : RoundTrip.Statement (.xmmbI8 w) := roundTrip_tile 0x34 w _ rfl rfl
theorem RoundTrip.xmmbI4 (w : TWord) : RoundTrip.Statement (.xmmbI4 w) := roundTrip_tile 0x35 w _ rfl rfl
theorem RoundTrip.vclr (w : TWord) : RoundTrip.Statement (.vclr w) := roundTrip_tile 0x40 w _ rfl rfl
theorem RoundTrip.vmov (w : TWord) : RoundTrip.Statement (.vmov w) := roundTrip_tile 0x41 w _ rfl rfl
theorem RoundTrip.vadd (w : TWord) : RoundTrip.Statement (.vadd w) := roundTrip_tile 0x42 w _ rfl rfl
theorem RoundTrip.vsub (w : TWord) : RoundTrip.Statement (.vsub w) := roundTrip_tile 0x43 w _ rfl rfl
theorem RoundTrip.vmul (w : TWord) : RoundTrip.Statement (.vmul w) := roundTrip_tile 0x44 w _ rfl rfl
theorem RoundTrip.vmax (w : TWord) : RoundTrip.Statement (.vmax w) := roundTrip_tile 0x45 w _ rfl rfl
theorem RoundTrip.vmin (w : TWord) : RoundTrip.Statement (.vmin w) := roundTrip_tile 0x46 w _ rfl rfl
theorem RoundTrip.vscl (w : TWord) : RoundTrip.Statement (.vscl w) := roundTrip_tile 0x47 w _ rfl rfl
theorem RoundTrip.vbadd (w : TWord) : RoundTrip.Statement (.vbadd w) := roundTrip_tile 0x48 w _ rfl rfl
theorem RoundTrip.vflclr (w : TWord) : RoundTrip.Statement (.vflclr w) := roundTrip_tile 0x52 w _ rfl rfl
theorem RoundTrip.viadd (w : TWord) : RoundTrip.Statement (.viadd w) := roundTrip_tile 0x49 w _ rfl rfl
theorem RoundTrip.viadds (w : TWord) : RoundTrip.Statement (.viadds w) := roundTrip_tile 0x4A w _ rfl rfl
theorem RoundTrip.vishr (w : TWord) : RoundTrip.Statement (.vishr w) := roundTrip_tile 0x4B w _ rfl rfl
theorem RoundTrip.vcvti (w : TWord) : RoundTrip.Statement (.vcvti w) := roundTrip_tile 0x4C w _ rfl rfl
theorem RoundTrip.vcvtf (w : TWord) : RoundTrip.Statement (.vcvtf w) := roundTrip_tile 0x4D w _ rfl rfl
theorem RoundTrip.vcvth (w : TWord) : RoundTrip.Statement (.vcvth w) := roundTrip_tile 0x50 w _ rfl rfl
theorem RoundTrip.vcvtb (w : TWord) : RoundTrip.Statement (.vcvtb w) := roundTrip_tile 0x51 w _ rfl rfl
theorem RoundTrip.vqnt8 (w : TWord) : RoundTrip.Statement (.vqnt8 w) := roundTrip_tile 0x4E w _ rfl rfl
theorem RoundTrip.vqnt4 (w : TWord) : RoundTrip.Statement (.vqnt4 w) := roundTrip_tile 0x4F w _ rfl rfl
theorem RoundTrip.sst (w : TWord) : RoundTrip.Statement (.sst w) := roundTrip_tile 0x60 w _ rfl rfl
theorem RoundTrip.sredi (w : TWord) : RoundTrip.Statement (.sredi w) := roundTrip_tile 0x61 w _ rfl rfl
theorem RoundTrip.sredf (w : TWord) : RoundTrip.Statement (.sredf w) := roundTrip_tile 0x62 w _ rfl rfl
theorem RoundTrip.sqsig (w : TWord) : RoundTrip.Statement (.sqsig w) := roundTrip_tile 0x63 w _ rfl rfl
theorem RoundTrip.tfence (w : TWord) : RoundTrip.Statement (.tfence w) := roundTrip_tile 0x70 w _ rfl rfl
theorem RoundTrip.ttok (w : TWord) : RoundTrip.Statement (.ttok w) := roundTrip_tile 0x71 w _ rfl rfl
theorem RoundTrip.tnop (w : TWord) : RoundTrip.Statement (.tnop w) := roundTrip_tile 0x72 w _ rfl rfl
theorem RoundTrip.ckpt (w : TWord) : RoundTrip.Statement (.ckpt w) := roundTrip_tile 0x78 w _ rfl rfl
theorem RoundTrip.tend (w : TWord) : RoundTrip.Statement (.tend w) := roundTrip_tile 0x79 w _ rfl rfl
theorem RoundTrip.tsync (w : TWord) : RoundTrip.Statement (.tsync w) := roundTrip_tile 0x7A w _ rfl rfl
theorem RoundTrip.pceReleaseStart : RoundTrip.Statement .pceReleaseStart := roundTrip_event _ rfl
theorem RoundTrip.pclr (p : Rec64) : RoundTrip.Statement (.pclr p) :=
  roundTrip_command p _ rfl fun h => by
    simp [Instr.wellFormed, Rec64.isCommand] at h
    simp [decodeCommand, h]
theorem RoundTrip.pfill (p : Rec64) : RoundTrip.Statement (.pfill p) :=
  roundTrip_command p _ rfl fun h => by
    simp [Instr.wellFormed, Rec64.isCommand] at h
    simp [decodeCommand, h]
theorem RoundTrip.prsv (p : Rec64) : RoundTrip.Statement (.prsv p) :=
  roundTrip_command p _ rfl fun h => by
    simp [Instr.wellFormed, Rec64.isCommand] at h
    simp [decodeCommand, h]
theorem RoundTrip.pceCommandComplete : RoundTrip.Statement .pceCommandComplete := roundTrip_event _ rfl
theorem RoundTrip.pceSpawn : RoundTrip.Statement .pceSpawn := roundTrip_event _ rfl
theorem RoundTrip.spawnedWarpPlace : RoundTrip.Statement .spawnedWarpPlace := roundTrip_event _ rfl
theorem RoundTrip.pceStop : RoundTrip.Statement .pceStop := roundTrip_event _ rfl
theorem RoundTrip.trapDeliver : RoundTrip.Statement .trapDeliver := roundTrip_event _ rfl
theorem RoundTrip.trapResend : RoundTrip.Statement .trapResend := roundTrip_event _ rfl
theorem RoundTrip.ctxResume (b : BusWrite) : RoundTrip.Statement (.ctxResume b) := roundTrip_bus b _ rfl rfl
theorem RoundTrip.ctxResumeAt (b : BusWrite) : RoundTrip.Statement (.ctxResumeAt b) := roundTrip_bus b _ rfl rfl
theorem RoundTrip.ctxKill (b : BusWrite) : RoundTrip.Statement (.ctxKill b) := roundTrip_bus b _ rfl rfl
theorem RoundTrip.ctxSkip (b : BusWrite) : RoundTrip.Statement (.ctxSkip b) := roundTrip_bus b _ rfl rfl
theorem RoundTrip.govAssign (b : BusWrite) : RoundTrip.Statement (.govAssign b) := roundTrip_bus b _ rfl rfl
theorem RoundTrip.merge (b : BusWrite) : RoundTrip.Statement (.merge b) := roundTrip_bus b _ rfl rfl
theorem RoundTrip.split (b : BusWrite) : RoundTrip.Statement (.split b) := roundTrip_bus b _ rfl rfl
theorem RoundTrip.restartPid (b : BusWrite) : RoundTrip.Statement (.restartPid b) := roundTrip_bus b _ rfl rfl
theorem RoundTrip.restartCtl (b : BusWrite) : RoundTrip.Statement (.restartCtl b) := roundTrip_bus b _ rfl rfl
theorem RoundTrip.govSnapshot (b : BusWrite) : RoundTrip.Statement (.govSnapshot b) := roundTrip_bus b _ rfl rfl
theorem RoundTrip.bootOk (b : BusWrite) : RoundTrip.Statement (.bootOk b) := roundTrip_bus b _ rfl rfl
theorem RoundTrip.restartDevice (b : BusWrite) : RoundTrip.Statement (.restartDevice b) := roundTrip_bus b _ rfl rfl
theorem RoundTrip.govSnapTWrite (b : BusWrite) : RoundTrip.Statement (.govSnapTWrite b) := roundTrip_bus b _ rfl rfl
theorem RoundTrip.snapshotLatch : RoundTrip.Statement .snapshotLatch := roundTrip_event _ rfl
theorem RoundTrip.ddxSilence : RoundTrip.Statement .ddxSilence := roundTrip_event _ rfl
theorem RoundTrip.qpHbSample : RoundTrip.Statement .qpHbSample := roundTrip_event _ rfl
theorem RoundTrip.distributorSilence : RoundTrip.Statement .distributorSilence := roundTrip_event _ rfl
theorem RoundTrip.skewReport : RoundTrip.Statement .skewReport := roundTrip_event _ rfl
theorem RoundTrip.serviceHbPeriod : RoundTrip.Statement .serviceHbPeriod := roundTrip_event _ rfl
theorem RoundTrip.governorReport : RoundTrip.Statement .governorReport := roundTrip_event _ rfl
theorem RoundTrip.ozashLinkDown : RoundTrip.Statement .ozashLinkDown := roundTrip_event _ rfl
theorem RoundTrip.ozashLinkRetrained : RoundTrip.Statement .ozashLinkRetrained := roundTrip_event _ rfl
theorem RoundTrip.flitReplay : RoundTrip.Statement .flitReplay := roundTrip_event _ rfl
theorem RoundTrip.powerLoss : RoundTrip.Statement .powerLoss := roundTrip_event _ rfl
theorem RoundTrip.dieTemperatureChange : RoundTrip.Statement .dieTemperatureChange := roundTrip_event _ rfl
theorem RoundTrip.governorWarmRestartDone : RoundTrip.Statement .governorWarmRestartDone := roundTrip_event _ rfl
theorem RoundTrip.qpRestartComplete : RoundTrip.Statement .qpRestartComplete := roundTrip_event _ rfl
theorem RoundTrip.rehomeHorizonReached : RoundTrip.Statement .rehomeHorizonReached := roundTrip_event _ rfl

end Sys2Proof.Laws
end

