-- ==== Sys2Proof/Laws/State.lean ====
section
/-! SUPPORT. What each named update of the state does to each field, so that no later proof unfolds a record update. -/

namespace Sys2Proof.Machine.State

set_option Elab.async false

@[simp] theorem setReg_time (s : State) (pa : Nat) (v : DWord) : (s.setReg pa v).time = s.time := rfl
@[simp] theorem setReg_regs (s : State) (pa : Nat) (v : DWord) : (s.setReg pa v).regs = s.regs.set pa v := rfl
@[simp] theorem setReg_snap (s : State) (pa : Nat) (v : DWord) : (s.setReg pa v).snap = s.snap := rfl
@[simp] theorem setReg_ms (s : State) (pa : Nat) (v : DWord) : (s.setReg pa v).ms = s.ms := rfl
@[simp] theorem setReg_lq (s : State) (pa : Nat) (v : DWord) : (s.setReg pa v).lq = s.lq := rfl
@[simp] theorem setReg_sp (s : State) (pa : Nat) (v : DWord) : (s.setReg pa v).sp = s.sp := rfl
@[simp] theorem setReg_th (s : State) (pa : Nat) (v : DWord) : (s.setReg pa v).th = s.th := rfl
@[simp] theorem setReg_qpch (s : State) (pa : Nat) (v : DWord) : (s.setReg pa v).qpch = s.qpch := rfl
@[simp] theorem setReg_ddx (s : State) (pa : Nat) (v : DWord) : (s.setReg pa v).ddx = s.ddx := rfl
@[simp] theorem setReg_warps (s : State) (pa : Nat) (v : DWord) : (s.setReg pa v).warps = s.warps := rfl
@[simp] theorem setReg_ops (s : State) (pa : Nat) (v : DWord) : (s.setReg pa v).ops = s.ops := rfl
@[simp] theorem setReg_ist (s : State) (pa : Nat) (v : DWord) : (s.setReg pa v).ist = s.ist := rfl
@[simp] theorem setReg_tiles (s : State) (pa : Nat) (v : DWord) : (s.setReg pa v).tiles = s.tiles := rfl
@[simp] theorem setReg_pces (s : State) (pa : Nat) (v : DWord) : (s.setReg pa v).pces = s.pces := rfl
@[simp] theorem setReg_gov (s : State) (pa : Nat) (v : DWord) : (s.setReg pa v).gov = s.gov := rfl
@[simp] theorem setReg_starts (s : State) (pa : Nat) (v : DWord) : (s.setReg pa v).starts = s.starts := rfl
@[simp] theorem setReg_dieOff (s : State) (pa : Nat) (v : DWord) : (s.setReg pa v).dieOff = s.dieOff := rfl
@[simp] theorem setReg_debugOpen (s : State) (pa : Nat) (v : DWord) : (s.setReg pa v).debugOpen = s.debugOpen := rfl
@[simp] theorem setReg_pcieDone (s : State) (pa : Nat) (v : DWord) : (s.setReg pa v).pcieDone = s.pcieDone := rfl
@[simp] theorem setReg_svc (s : State) (pa : Nat) (v : DWord) : (s.setReg pa v).svc = s.svc := rfl
@[simp] theorem setReg_l2 (s : State) (pa : Nat) (v : DWord) : (s.setReg pa v).l2 = s.l2 := rfl
@[simp] theorem setReg_reads (s : State) (pa : Nat) (v : DWord) : (s.setReg pa v).reads = s.reads := rfl
@[simp] theorem setReg_agenda (s : State) (pa : Nat) (v : DWord) : (s.setReg pa v).agenda = s.agenda := rfl
@[simp] theorem setReg_focus (s : State) (pa : Nat) (v : DWord) : (s.setReg pa v).focus = s.focus := rfl
@[simp] theorem setReg_ev (s : State) (pa : Nat) (v : DWord) : (s.setReg pa v).ev = s.ev := rfl
@[simp] theorem setReg_free (s : State) (pa : Nat) (v : DWord) : (s.setReg pa v).free = s.free := rfl
@[simp] theorem setReg_next (s : State) (pa : Nat) (v : DWord) : (s.setReg pa v).next = s.next := rfl

@[simp] theorem withMs_time (s : State) (m : MemSys) : (s.withMs m).time = s.time := rfl
@[simp] theorem withMs_regs (s : State) (m : MemSys) : (s.withMs m).regs = s.regs := rfl
@[simp] theorem withMs_snap (s : State) (m : MemSys) : (s.withMs m).snap = s.snap := rfl
@[simp] theorem withMs_ms (s : State) (m : MemSys) : (s.withMs m).ms = m := rfl
@[simp] theorem withMs_lq (s : State) (m : MemSys) : (s.withMs m).lq = s.lq := rfl
@[simp] theorem withMs_sp (s : State) (m : MemSys) : (s.withMs m).sp = s.sp := rfl
@[simp] theorem withMs_th (s : State) (m : MemSys) : (s.withMs m).th = s.th := rfl
@[simp] theorem withMs_qpch (s : State) (m : MemSys) : (s.withMs m).qpch = s.qpch := rfl
@[simp] theorem withMs_ddx (s : State) (m : MemSys) : (s.withMs m).ddx = s.ddx := rfl
@[simp] theorem withMs_warps (s : State) (m : MemSys) : (s.withMs m).warps = s.warps := rfl
@[simp] theorem withMs_ops (s : State) (m : MemSys) : (s.withMs m).ops = s.ops := rfl
@[simp] theorem withMs_ist (s : State) (m : MemSys) : (s.withMs m).ist = s.ist := rfl
@[simp] theorem withMs_tiles (s : State) (m : MemSys) : (s.withMs m).tiles = s.tiles := rfl
@[simp] theorem withMs_pces (s : State) (m : MemSys) : (s.withMs m).pces = s.pces := rfl
@[simp] theorem withMs_gov (s : State) (m : MemSys) : (s.withMs m).gov = s.gov := rfl
@[simp] theorem withMs_starts (s : State) (m : MemSys) : (s.withMs m).starts = s.starts := rfl
@[simp] theorem withMs_dieOff (s : State) (m : MemSys) : (s.withMs m).dieOff = s.dieOff := rfl
@[simp] theorem withMs_debugOpen (s : State) (m : MemSys) : (s.withMs m).debugOpen = s.debugOpen := rfl
@[simp] theorem withMs_pcieDone (s : State) (m : MemSys) : (s.withMs m).pcieDone = s.pcieDone := rfl
@[simp] theorem withMs_svc (s : State) (m : MemSys) : (s.withMs m).svc = s.svc := rfl
@[simp] theorem withMs_l2 (s : State) (m : MemSys) : (s.withMs m).l2 = s.l2 := rfl
@[simp] theorem withMs_reads (s : State) (m : MemSys) : (s.withMs m).reads = s.reads := rfl
@[simp] theorem withMs_agenda (s : State) (m : MemSys) : (s.withMs m).agenda = s.agenda := rfl
@[simp] theorem withMs_focus (s : State) (m : MemSys) : (s.withMs m).focus = s.focus := rfl
@[simp] theorem withMs_ev (s : State) (m : MemSys) : (s.withMs m).ev = s.ev := rfl
@[simp] theorem withMs_free (s : State) (m : MemSys) : (s.withMs m).free = s.free := rfl
@[simp] theorem withMs_next (s : State) (m : MemSys) : (s.withMs m).next = s.next := rfl

@[simp] theorem withLq_time (s : State) (l : Leats) : (s.withLq l).time = s.time := rfl
@[simp] theorem withLq_regs (s : State) (l : Leats) : (s.withLq l).regs = s.regs := rfl
@[simp] theorem withLq_snap (s : State) (l : Leats) : (s.withLq l).snap = s.snap := rfl
@[simp] theorem withLq_ms (s : State) (l : Leats) : (s.withLq l).ms = s.ms := rfl
@[simp] theorem withLq_lq (s : State) (l : Leats) : (s.withLq l).lq = l := rfl
@[simp] theorem withLq_sp (s : State) (l : Leats) : (s.withLq l).sp = s.sp := rfl
@[simp] theorem withLq_th (s : State) (l : Leats) : (s.withLq l).th = s.th := rfl
@[simp] theorem withLq_qpch (s : State) (l : Leats) : (s.withLq l).qpch = s.qpch := rfl
@[simp] theorem withLq_ddx (s : State) (l : Leats) : (s.withLq l).ddx = s.ddx := rfl
@[simp] theorem withLq_warps (s : State) (l : Leats) : (s.withLq l).warps = s.warps := rfl
@[simp] theorem withLq_ops (s : State) (l : Leats) : (s.withLq l).ops = s.ops := rfl
@[simp] theorem withLq_ist (s : State) (l : Leats) : (s.withLq l).ist = s.ist := rfl
@[simp] theorem withLq_tiles (s : State) (l : Leats) : (s.withLq l).tiles = s.tiles := rfl
@[simp] theorem withLq_pces (s : State) (l : Leats) : (s.withLq l).pces = s.pces := rfl
@[simp] theorem withLq_gov (s : State) (l : Leats) : (s.withLq l).gov = s.gov := rfl
@[simp] theorem withLq_starts (s : State) (l : Leats) : (s.withLq l).starts = s.starts := rfl
@[simp] theorem withLq_dieOff (s : State) (l : Leats) : (s.withLq l).dieOff = s.dieOff := rfl
@[simp] theorem withLq_debugOpen (s : State) (l : Leats) : (s.withLq l).debugOpen = s.debugOpen := rfl
@[simp] theorem withLq_pcieDone (s : State) (l : Leats) : (s.withLq l).pcieDone = s.pcieDone := rfl
@[simp] theorem withLq_svc (s : State) (l : Leats) : (s.withLq l).svc = s.svc := rfl
@[simp] theorem withLq_l2 (s : State) (l : Leats) : (s.withLq l).l2 = s.l2 := rfl
@[simp] theorem withLq_reads (s : State) (l : Leats) : (s.withLq l).reads = s.reads := rfl
@[simp] theorem withLq_agenda (s : State) (l : Leats) : (s.withLq l).agenda = s.agenda := rfl
@[simp] theorem withLq_focus (s : State) (l : Leats) : (s.withLq l).focus = s.focus := rfl
@[simp] theorem withLq_ev (s : State) (l : Leats) : (s.withLq l).ev = s.ev := rfl
@[simp] theorem withLq_free (s : State) (l : Leats) : (s.withLq l).free = s.free := rfl
@[simp] theorem withLq_next (s : State) (l : Leats) : (s.withLq l).next = s.next := rfl

@[simp] theorem withDdx_time (s : State) (d : Dispatch) : (s.withDdx d).time = s.time := rfl
@[simp] theorem withDdx_regs (s : State) (d : Dispatch) : (s.withDdx d).regs = s.regs := rfl
@[simp] theorem withDdx_snap (s : State) (d : Dispatch) : (s.withDdx d).snap = s.snap := rfl
@[simp] theorem withDdx_ms (s : State) (d : Dispatch) : (s.withDdx d).ms = s.ms := rfl
@[simp] theorem withDdx_lq (s : State) (d : Dispatch) : (s.withDdx d).lq = s.lq := rfl
@[simp] theorem withDdx_sp (s : State) (d : Dispatch) : (s.withDdx d).sp = s.sp := rfl
@[simp] theorem withDdx_th (s : State) (d : Dispatch) : (s.withDdx d).th = s.th := rfl
@[simp] theorem withDdx_qpch (s : State) (d : Dispatch) : (s.withDdx d).qpch = s.qpch := rfl
@[simp] theorem withDdx_ddx (s : State) (d : Dispatch) : (s.withDdx d).ddx = d := rfl
@[simp] theorem withDdx_warps (s : State) (d : Dispatch) : (s.withDdx d).warps = s.warps := rfl
@[simp] theorem withDdx_ops (s : State) (d : Dispatch) : (s.withDdx d).ops = s.ops := rfl
@[simp] theorem withDdx_ist (s : State) (d : Dispatch) : (s.withDdx d).ist = s.ist := rfl
@[simp] theorem withDdx_tiles (s : State) (d : Dispatch) : (s.withDdx d).tiles = s.tiles := rfl
@[simp] theorem withDdx_pces (s : State) (d : Dispatch) : (s.withDdx d).pces = s.pces := rfl
@[simp] theorem withDdx_gov (s : State) (d : Dispatch) : (s.withDdx d).gov = s.gov := rfl
@[simp] theorem withDdx_starts (s : State) (d : Dispatch) : (s.withDdx d).starts = s.starts := rfl
@[simp] theorem withDdx_dieOff (s : State) (d : Dispatch) : (s.withDdx d).dieOff = s.dieOff := rfl
@[simp] theorem withDdx_debugOpen (s : State) (d : Dispatch) : (s.withDdx d).debugOpen = s.debugOpen := rfl
@[simp] theorem withDdx_pcieDone (s : State) (d : Dispatch) : (s.withDdx d).pcieDone = s.pcieDone := rfl
@[simp] theorem withDdx_svc (s : State) (d : Dispatch) : (s.withDdx d).svc = s.svc := rfl
@[simp] theorem withDdx_l2 (s : State) (d : Dispatch) : (s.withDdx d).l2 = s.l2 := rfl
@[simp] theorem withDdx_reads (s : State) (d : Dispatch) : (s.withDdx d).reads = s.reads := rfl
@[simp] theorem withDdx_agenda (s : State) (d : Dispatch) : (s.withDdx d).agenda = s.agenda := rfl
@[simp] theorem withDdx_focus (s : State) (d : Dispatch) : (s.withDdx d).focus = s.focus := rfl
@[simp] theorem withDdx_ev (s : State) (d : Dispatch) : (s.withDdx d).ev = s.ev := rfl
@[simp] theorem withDdx_free (s : State) (d : Dispatch) : (s.withDdx d).free = s.free := rfl
@[simp] theorem withDdx_next (s : State) (d : Dispatch) : (s.withDdx d).next = s.next := rfl

@[simp] theorem withGov_time (s : State) (g : Gov) : (s.withGov g).time = s.time := rfl
@[simp] theorem withGov_regs (s : State) (g : Gov) : (s.withGov g).regs = s.regs := rfl
@[simp] theorem withGov_snap (s : State) (g : Gov) : (s.withGov g).snap = s.snap := rfl
@[simp] theorem withGov_ms (s : State) (g : Gov) : (s.withGov g).ms = s.ms := rfl
@[simp] theorem withGov_lq (s : State) (g : Gov) : (s.withGov g).lq = s.lq := rfl
@[simp] theorem withGov_sp (s : State) (g : Gov) : (s.withGov g).sp = s.sp := rfl
@[simp] theorem withGov_th (s : State) (g : Gov) : (s.withGov g).th = s.th := rfl
@[simp] theorem withGov_qpch (s : State) (g : Gov) : (s.withGov g).qpch = s.qpch := rfl
@[simp] theorem withGov_ddx (s : State) (g : Gov) : (s.withGov g).ddx = s.ddx := rfl
@[simp] theorem withGov_warps (s : State) (g : Gov) : (s.withGov g).warps = s.warps := rfl
@[simp] theorem withGov_ops (s : State) (g : Gov) : (s.withGov g).ops = s.ops := rfl
@[simp] theorem withGov_ist (s : State) (g : Gov) : (s.withGov g).ist = s.ist := rfl
@[simp] theorem withGov_tiles (s : State) (g : Gov) : (s.withGov g).tiles = s.tiles := rfl
@[simp] theorem withGov_pces (s : State) (g : Gov) : (s.withGov g).pces = s.pces := rfl
@[simp] theorem withGov_gov (s : State) (g : Gov) : (s.withGov g).gov = g := rfl
@[simp] theorem withGov_starts (s : State) (g : Gov) : (s.withGov g).starts = s.starts := rfl
@[simp] theorem withGov_dieOff (s : State) (g : Gov) : (s.withGov g).dieOff = s.dieOff := rfl
@[simp] theorem withGov_debugOpen (s : State) (g : Gov) : (s.withGov g).debugOpen = s.debugOpen := rfl
@[simp] theorem withGov_pcieDone (s : State) (g : Gov) : (s.withGov g).pcieDone = s.pcieDone := rfl
@[simp] theorem withGov_svc (s : State) (g : Gov) : (s.withGov g).svc = s.svc := rfl
@[simp] theorem withGov_l2 (s : State) (g : Gov) : (s.withGov g).l2 = s.l2 := rfl
@[simp] theorem withGov_reads (s : State) (g : Gov) : (s.withGov g).reads = s.reads := rfl
@[simp] theorem withGov_agenda (s : State) (g : Gov) : (s.withGov g).agenda = s.agenda := rfl
@[simp] theorem withGov_focus (s : State) (g : Gov) : (s.withGov g).focus = s.focus := rfl
@[simp] theorem withGov_ev (s : State) (g : Gov) : (s.withGov g).ev = s.ev := rfl
@[simp] theorem withGov_free (s : State) (g : Gov) : (s.withGov g).free = s.free := rfl
@[simp] theorem withGov_next (s : State) (g : Gov) : (s.withGov g).next = s.next := rfl

@[simp] theorem withTime_time (s : State) (t : Times) : (s.withTime t).time = t := rfl
@[simp] theorem withTime_regs (s : State) (t : Times) : (s.withTime t).regs = s.regs := rfl
@[simp] theorem withTime_snap (s : State) (t : Times) : (s.withTime t).snap = s.snap := rfl
@[simp] theorem withTime_ms (s : State) (t : Times) : (s.withTime t).ms = s.ms := rfl
@[simp] theorem withTime_lq (s : State) (t : Times) : (s.withTime t).lq = s.lq := rfl
@[simp] theorem withTime_sp (s : State) (t : Times) : (s.withTime t).sp = s.sp := rfl
@[simp] theorem withTime_th (s : State) (t : Times) : (s.withTime t).th = s.th := rfl
@[simp] theorem withTime_qpch (s : State) (t : Times) : (s.withTime t).qpch = s.qpch := rfl
@[simp] theorem withTime_ddx (s : State) (t : Times) : (s.withTime t).ddx = s.ddx := rfl
@[simp] theorem withTime_warps (s : State) (t : Times) : (s.withTime t).warps = s.warps := rfl
@[simp] theorem withTime_ops (s : State) (t : Times) : (s.withTime t).ops = s.ops := rfl
@[simp] theorem withTime_ist (s : State) (t : Times) : (s.withTime t).ist = s.ist := rfl
@[simp] theorem withTime_tiles (s : State) (t : Times) : (s.withTime t).tiles = s.tiles := rfl
@[simp] theorem withTime_pces (s : State) (t : Times) : (s.withTime t).pces = s.pces := rfl
@[simp] theorem withTime_gov (s : State) (t : Times) : (s.withTime t).gov = s.gov := rfl
@[simp] theorem withTime_starts (s : State) (t : Times) : (s.withTime t).starts = s.starts := rfl
@[simp] theorem withTime_dieOff (s : State) (t : Times) : (s.withTime t).dieOff = s.dieOff := rfl
@[simp] theorem withTime_debugOpen (s : State) (t : Times) : (s.withTime t).debugOpen = s.debugOpen := rfl
@[simp] theorem withTime_pcieDone (s : State) (t : Times) : (s.withTime t).pcieDone = s.pcieDone := rfl
@[simp] theorem withTime_svc (s : State) (t : Times) : (s.withTime t).svc = s.svc := rfl
@[simp] theorem withTime_l2 (s : State) (t : Times) : (s.withTime t).l2 = s.l2 := rfl
@[simp] theorem withTime_reads (s : State) (t : Times) : (s.withTime t).reads = s.reads := rfl
@[simp] theorem withTime_agenda (s : State) (t : Times) : (s.withTime t).agenda = s.agenda := rfl
@[simp] theorem withTime_focus (s : State) (t : Times) : (s.withTime t).focus = s.focus := rfl
@[simp] theorem withTime_ev (s : State) (t : Times) : (s.withTime t).ev = s.ev := rfl
@[simp] theorem withTime_free (s : State) (t : Times) : (s.withTime t).free = s.free := rfl
@[simp] theorem withTime_next (s : State) (t : Times) : (s.withTime t).next = s.next := rfl

@[simp] theorem setWarp_time (s : State) (i : Nat) (w : Warp) : (s.setWarp i w).time = s.time := rfl
@[simp] theorem setWarp_regs (s : State) (i : Nat) (w : Warp) : (s.setWarp i w).regs = s.regs := rfl
@[simp] theorem setWarp_snap (s : State) (i : Nat) (w : Warp) : (s.setWarp i w).snap = s.snap := rfl
@[simp] theorem setWarp_ms (s : State) (i : Nat) (w : Warp) : (s.setWarp i w).ms = s.ms := rfl
@[simp] theorem setWarp_lq (s : State) (i : Nat) (w : Warp) : (s.setWarp i w).lq = s.lq := rfl
@[simp] theorem setWarp_sp (s : State) (i : Nat) (w : Warp) : (s.setWarp i w).sp = s.sp := rfl
@[simp] theorem setWarp_th (s : State) (i : Nat) (w : Warp) : (s.setWarp i w).th = s.th := rfl
@[simp] theorem setWarp_qpch (s : State) (i : Nat) (w : Warp) : (s.setWarp i w).qpch = s.qpch := rfl
@[simp] theorem setWarp_ddx (s : State) (i : Nat) (w : Warp) : (s.setWarp i w).ddx = s.ddx := rfl
@[simp] theorem setWarp_warps (s : State) (i : Nat) (w : Warp) : (s.setWarp i w).warps = s.warps.set i w := rfl
@[simp] theorem setWarp_ops (s : State) (i : Nat) (w : Warp) : (s.setWarp i w).ops = s.ops := rfl
@[simp] theorem setWarp_ist (s : State) (i : Nat) (w : Warp) : (s.setWarp i w).ist = s.ist := rfl
@[simp] theorem setWarp_tiles (s : State) (i : Nat) (w : Warp) : (s.setWarp i w).tiles = s.tiles := rfl
@[simp] theorem setWarp_pces (s : State) (i : Nat) (w : Warp) : (s.setWarp i w).pces = s.pces := rfl
@[simp] theorem setWarp_gov (s : State) (i : Nat) (w : Warp) : (s.setWarp i w).gov = s.gov := rfl
@[simp] theorem setWarp_starts (s : State) (i : Nat) (w : Warp) : (s.setWarp i w).starts = s.starts := rfl
@[simp] theorem setWarp_dieOff (s : State) (i : Nat) (w : Warp) : (s.setWarp i w).dieOff = s.dieOff := rfl
@[simp] theorem setWarp_debugOpen (s : State) (i : Nat) (w : Warp) : (s.setWarp i w).debugOpen = s.debugOpen := rfl
@[simp] theorem setWarp_pcieDone (s : State) (i : Nat) (w : Warp) : (s.setWarp i w).pcieDone = s.pcieDone := rfl
@[simp] theorem setWarp_svc (s : State) (i : Nat) (w : Warp) : (s.setWarp i w).svc = s.svc := rfl
@[simp] theorem setWarp_l2 (s : State) (i : Nat) (w : Warp) : (s.setWarp i w).l2 = s.l2 := rfl
@[simp] theorem setWarp_reads (s : State) (i : Nat) (w : Warp) : (s.setWarp i w).reads = s.reads := rfl
@[simp] theorem setWarp_agenda (s : State) (i : Nat) (w : Warp) : (s.setWarp i w).agenda = s.agenda := rfl
@[simp] theorem setWarp_focus (s : State) (i : Nat) (w : Warp) : (s.setWarp i w).focus = s.focus := rfl
@[simp] theorem setWarp_ev (s : State) (i : Nat) (w : Warp) : (s.setWarp i w).ev = s.ev := rfl
@[simp] theorem setWarp_free (s : State) (i : Nat) (w : Warp) : (s.setWarp i w).free = s.free := rfl
@[simp] theorem setWarp_next (s : State) (i : Nat) (w : Warp) : (s.setWarp i w).next = s.next := rfl

@[simp] theorem setOp_time (s : State) (i : Nat) (o : PendOp) : (s.setOp i o).time = s.time := rfl
@[simp] theorem setOp_regs (s : State) (i : Nat) (o : PendOp) : (s.setOp i o).regs = s.regs := rfl
@[simp] theorem setOp_snap (s : State) (i : Nat) (o : PendOp) : (s.setOp i o).snap = s.snap := rfl
@[simp] theorem setOp_ms (s : State) (i : Nat) (o : PendOp) : (s.setOp i o).ms = s.ms := rfl
@[simp] theorem setOp_lq (s : State) (i : Nat) (o : PendOp) : (s.setOp i o).lq = s.lq := rfl
@[simp] theorem setOp_sp (s : State) (i : Nat) (o : PendOp) : (s.setOp i o).sp = s.sp := rfl
@[simp] theorem setOp_th (s : State) (i : Nat) (o : PendOp) : (s.setOp i o).th = s.th := rfl
@[simp] theorem setOp_qpch (s : State) (i : Nat) (o : PendOp) : (s.setOp i o).qpch = s.qpch := rfl
@[simp] theorem setOp_ddx (s : State) (i : Nat) (o : PendOp) : (s.setOp i o).ddx = s.ddx := rfl
@[simp] theorem setOp_warps (s : State) (i : Nat) (o : PendOp) : (s.setOp i o).warps = s.warps := rfl
@[simp] theorem setOp_ops (s : State) (i : Nat) (o : PendOp) : (s.setOp i o).ops = s.ops.set i o := rfl
@[simp] theorem setOp_ist (s : State) (i : Nat) (o : PendOp) : (s.setOp i o).ist = s.ist := rfl
@[simp] theorem setOp_tiles (s : State) (i : Nat) (o : PendOp) : (s.setOp i o).tiles = s.tiles := rfl
@[simp] theorem setOp_pces (s : State) (i : Nat) (o : PendOp) : (s.setOp i o).pces = s.pces := rfl
@[simp] theorem setOp_gov (s : State) (i : Nat) (o : PendOp) : (s.setOp i o).gov = s.gov := rfl
@[simp] theorem setOp_starts (s : State) (i : Nat) (o : PendOp) : (s.setOp i o).starts = s.starts := rfl
@[simp] theorem setOp_dieOff (s : State) (i : Nat) (o : PendOp) : (s.setOp i o).dieOff = s.dieOff := rfl
@[simp] theorem setOp_debugOpen (s : State) (i : Nat) (o : PendOp) : (s.setOp i o).debugOpen = s.debugOpen := rfl
@[simp] theorem setOp_pcieDone (s : State) (i : Nat) (o : PendOp) : (s.setOp i o).pcieDone = s.pcieDone := rfl
@[simp] theorem setOp_svc (s : State) (i : Nat) (o : PendOp) : (s.setOp i o).svc = s.svc := rfl
@[simp] theorem setOp_l2 (s : State) (i : Nat) (o : PendOp) : (s.setOp i o).l2 = s.l2 := rfl
@[simp] theorem setOp_reads (s : State) (i : Nat) (o : PendOp) : (s.setOp i o).reads = s.reads := rfl
@[simp] theorem setOp_agenda (s : State) (i : Nat) (o : PendOp) : (s.setOp i o).agenda = s.agenda := rfl
@[simp] theorem setOp_focus (s : State) (i : Nat) (o : PendOp) : (s.setOp i o).focus = s.focus := rfl
@[simp] theorem setOp_ev (s : State) (i : Nat) (o : PendOp) : (s.setOp i o).ev = s.ev := rfl
@[simp] theorem setOp_free (s : State) (i : Nat) (o : PendOp) : (s.setOp i o).free = s.free := rfl
@[simp] theorem setOp_next (s : State) (i : Nat) (o : PendOp) : (s.setOp i o).next = s.next := rfl

@[simp] theorem delOp_time (s : State) (i : Nat) : (s.delOp i).time = s.time := rfl
@[simp] theorem delOp_regs (s : State) (i : Nat) : (s.delOp i).regs = s.regs := rfl
@[simp] theorem delOp_snap (s : State) (i : Nat) : (s.delOp i).snap = s.snap := rfl
@[simp] theorem delOp_ms (s : State) (i : Nat) : (s.delOp i).ms = s.ms := rfl
@[simp] theorem delOp_lq (s : State) (i : Nat) : (s.delOp i).lq = s.lq := rfl
@[simp] theorem delOp_sp (s : State) (i : Nat) : (s.delOp i).sp = s.sp := rfl
@[simp] theorem delOp_th (s : State) (i : Nat) : (s.delOp i).th = s.th := rfl
@[simp] theorem delOp_qpch (s : State) (i : Nat) : (s.delOp i).qpch = s.qpch := rfl
@[simp] theorem delOp_ddx (s : State) (i : Nat) : (s.delOp i).ddx = s.ddx := rfl
@[simp] theorem delOp_warps (s : State) (i : Nat) : (s.delOp i).warps = s.warps := rfl
@[simp] theorem delOp_ops (s : State) (i : Nat) : (s.delOp i).ops = s.ops.del i := rfl
@[simp] theorem delOp_ist (s : State) (i : Nat) : (s.delOp i).ist = s.ist := rfl
@[simp] theorem delOp_tiles (s : State) (i : Nat) : (s.delOp i).tiles = s.tiles := rfl
@[simp] theorem delOp_pces (s : State) (i : Nat) : (s.delOp i).pces = s.pces := rfl
@[simp] theorem delOp_gov (s : State) (i : Nat) : (s.delOp i).gov = s.gov := rfl
@[simp] theorem delOp_starts (s : State) (i : Nat) : (s.delOp i).starts = s.starts := rfl
@[simp] theorem delOp_dieOff (s : State) (i : Nat) : (s.delOp i).dieOff = s.dieOff := rfl
@[simp] theorem delOp_debugOpen (s : State) (i : Nat) : (s.delOp i).debugOpen = s.debugOpen := rfl
@[simp] theorem delOp_pcieDone (s : State) (i : Nat) : (s.delOp i).pcieDone = s.pcieDone := rfl
@[simp] theorem delOp_svc (s : State) (i : Nat) : (s.delOp i).svc = s.svc := rfl
@[simp] theorem delOp_l2 (s : State) (i : Nat) : (s.delOp i).l2 = s.l2 := rfl
@[simp] theorem delOp_reads (s : State) (i : Nat) : (s.delOp i).reads = s.reads := rfl
@[simp] theorem delOp_agenda (s : State) (i : Nat) : (s.delOp i).agenda = s.agenda := rfl
@[simp] theorem delOp_focus (s : State) (i : Nat) : (s.delOp i).focus = s.focus := rfl
@[simp] theorem delOp_ev (s : State) (i : Nat) : (s.delOp i).ev = s.ev := rfl
@[simp] theorem delOp_free (s : State) (i : Nat) : (s.delOp i).free = s.free := rfl
@[simp] theorem delOp_next (s : State) (i : Nat) : (s.delOp i).next = s.next := rfl

@[simp] theorem setTile_time (s : State) (i : Nat) (t : TileCore) : (s.setTile i t).time = s.time := rfl
@[simp] theorem setTile_regs (s : State) (i : Nat) (t : TileCore) : (s.setTile i t).regs = s.regs := rfl
@[simp] theorem setTile_snap (s : State) (i : Nat) (t : TileCore) : (s.setTile i t).snap = s.snap := rfl
@[simp] theorem setTile_ms (s : State) (i : Nat) (t : TileCore) : (s.setTile i t).ms = s.ms := rfl
@[simp] theorem setTile_lq (s : State) (i : Nat) (t : TileCore) : (s.setTile i t).lq = s.lq := rfl
@[simp] theorem setTile_sp (s : State) (i : Nat) (t : TileCore) : (s.setTile i t).sp = s.sp := rfl
@[simp] theorem setTile_th (s : State) (i : Nat) (t : TileCore) : (s.setTile i t).th = s.th := rfl
@[simp] theorem setTile_qpch (s : State) (i : Nat) (t : TileCore) : (s.setTile i t).qpch = s.qpch := rfl
@[simp] theorem setTile_ddx (s : State) (i : Nat) (t : TileCore) : (s.setTile i t).ddx = s.ddx := rfl
@[simp] theorem setTile_warps (s : State) (i : Nat) (t : TileCore) : (s.setTile i t).warps = s.warps := rfl
@[simp] theorem setTile_ops (s : State) (i : Nat) (t : TileCore) : (s.setTile i t).ops = s.ops := rfl
@[simp] theorem setTile_ist (s : State) (i : Nat) (t : TileCore) : (s.setTile i t).ist = s.ist := rfl
@[simp] theorem setTile_tiles (s : State) (i : Nat) (t : TileCore) : (s.setTile i t).tiles = s.tiles.set i t := rfl
@[simp] theorem setTile_pces (s : State) (i : Nat) (t : TileCore) : (s.setTile i t).pces = s.pces := rfl
@[simp] theorem setTile_gov (s : State) (i : Nat) (t : TileCore) : (s.setTile i t).gov = s.gov := rfl
@[simp] theorem setTile_starts (s : State) (i : Nat) (t : TileCore) : (s.setTile i t).starts = s.starts := rfl
@[simp] theorem setTile_dieOff (s : State) (i : Nat) (t : TileCore) : (s.setTile i t).dieOff = s.dieOff := rfl
@[simp] theorem setTile_debugOpen (s : State) (i : Nat) (t : TileCore) : (s.setTile i t).debugOpen = s.debugOpen := rfl
@[simp] theorem setTile_pcieDone (s : State) (i : Nat) (t : TileCore) : (s.setTile i t).pcieDone = s.pcieDone := rfl
@[simp] theorem setTile_svc (s : State) (i : Nat) (t : TileCore) : (s.setTile i t).svc = s.svc := rfl
@[simp] theorem setTile_l2 (s : State) (i : Nat) (t : TileCore) : (s.setTile i t).l2 = s.l2 := rfl
@[simp] theorem setTile_reads (s : State) (i : Nat) (t : TileCore) : (s.setTile i t).reads = s.reads := rfl
@[simp] theorem setTile_agenda (s : State) (i : Nat) (t : TileCore) : (s.setTile i t).agenda = s.agenda := rfl
@[simp] theorem setTile_focus (s : State) (i : Nat) (t : TileCore) : (s.setTile i t).focus = s.focus := rfl
@[simp] theorem setTile_ev (s : State) (i : Nat) (t : TileCore) : (s.setTile i t).ev = s.ev := rfl
@[simp] theorem setTile_free (s : State) (i : Nat) (t : TileCore) : (s.setTile i t).free = s.free := rfl
@[simp] theorem setTile_next (s : State) (i : Nat) (t : TileCore) : (s.setTile i t).next = s.next := rfl

@[simp] theorem setPce_time (s : State) (i : Nat) (p : Pce) : (s.setPce i p).time = s.time := rfl
@[simp] theorem setPce_regs (s : State) (i : Nat) (p : Pce) : (s.setPce i p).regs = s.regs := rfl
@[simp] theorem setPce_snap (s : State) (i : Nat) (p : Pce) : (s.setPce i p).snap = s.snap := rfl
@[simp] theorem setPce_ms (s : State) (i : Nat) (p : Pce) : (s.setPce i p).ms = s.ms := rfl
@[simp] theorem setPce_lq (s : State) (i : Nat) (p : Pce) : (s.setPce i p).lq = s.lq := rfl
@[simp] theorem setPce_sp (s : State) (i : Nat) (p : Pce) : (s.setPce i p).sp = s.sp := rfl
@[simp] theorem setPce_th (s : State) (i : Nat) (p : Pce) : (s.setPce i p).th = s.th := rfl
@[simp] theorem setPce_qpch (s : State) (i : Nat) (p : Pce) : (s.setPce i p).qpch = s.qpch := rfl
@[simp] theorem setPce_ddx (s : State) (i : Nat) (p : Pce) : (s.setPce i p).ddx = s.ddx := rfl
@[simp] theorem setPce_warps (s : State) (i : Nat) (p : Pce) : (s.setPce i p).warps = s.warps := rfl
@[simp] theorem setPce_ops (s : State) (i : Nat) (p : Pce) : (s.setPce i p).ops = s.ops := rfl
@[simp] theorem setPce_ist (s : State) (i : Nat) (p : Pce) : (s.setPce i p).ist = s.ist := rfl
@[simp] theorem setPce_tiles (s : State) (i : Nat) (p : Pce) : (s.setPce i p).tiles = s.tiles := rfl
@[simp] theorem setPce_pces (s : State) (i : Nat) (p : Pce) : (s.setPce i p).pces = s.pces.set i p := rfl
@[simp] theorem setPce_gov (s : State) (i : Nat) (p : Pce) : (s.setPce i p).gov = s.gov := rfl
@[simp] theorem setPce_starts (s : State) (i : Nat) (p : Pce) : (s.setPce i p).starts = s.starts := rfl
@[simp] theorem setPce_dieOff (s : State) (i : Nat) (p : Pce) : (s.setPce i p).dieOff = s.dieOff := rfl
@[simp] theorem setPce_debugOpen (s : State) (i : Nat) (p : Pce) : (s.setPce i p).debugOpen = s.debugOpen := rfl
@[simp] theorem setPce_pcieDone (s : State) (i : Nat) (p : Pce) : (s.setPce i p).pcieDone = s.pcieDone := rfl
@[simp] theorem setPce_svc (s : State) (i : Nat) (p : Pce) : (s.setPce i p).svc = s.svc := rfl
@[simp] theorem setPce_l2 (s : State) (i : Nat) (p : Pce) : (s.setPce i p).l2 = s.l2 := rfl
@[simp] theorem setPce_reads (s : State) (i : Nat) (p : Pce) : (s.setPce i p).reads = s.reads := rfl
@[simp] theorem setPce_agenda (s : State) (i : Nat) (p : Pce) : (s.setPce i p).agenda = s.agenda := rfl
@[simp] theorem setPce_focus (s : State) (i : Nat) (p : Pce) : (s.setPce i p).focus = s.focus := rfl
@[simp] theorem setPce_ev (s : State) (i : Nat) (p : Pce) : (s.setPce i p).ev = s.ev := rfl
@[simp] theorem setPce_free (s : State) (i : Nat) (p : Pce) : (s.setPce i p).free = s.free := rfl
@[simp] theorem setPce_next (s : State) (i : Nat) (p : Pce) : (s.setPce i p).next = s.next := rfl

@[simp] theorem setIst_time (s : State) (i : Nat) (x : IStore) : (s.setIst i x).time = s.time := rfl
@[simp] theorem setIst_regs (s : State) (i : Nat) (x : IStore) : (s.setIst i x).regs = s.regs := rfl
@[simp] theorem setIst_snap (s : State) (i : Nat) (x : IStore) : (s.setIst i x).snap = s.snap := rfl
@[simp] theorem setIst_ms (s : State) (i : Nat) (x : IStore) : (s.setIst i x).ms = s.ms := rfl
@[simp] theorem setIst_lq (s : State) (i : Nat) (x : IStore) : (s.setIst i x).lq = s.lq := rfl
@[simp] theorem setIst_sp (s : State) (i : Nat) (x : IStore) : (s.setIst i x).sp = s.sp := rfl
@[simp] theorem setIst_th (s : State) (i : Nat) (x : IStore) : (s.setIst i x).th = s.th := rfl
@[simp] theorem setIst_qpch (s : State) (i : Nat) (x : IStore) : (s.setIst i x).qpch = s.qpch := rfl
@[simp] theorem setIst_ddx (s : State) (i : Nat) (x : IStore) : (s.setIst i x).ddx = s.ddx := rfl
@[simp] theorem setIst_warps (s : State) (i : Nat) (x : IStore) : (s.setIst i x).warps = s.warps := rfl
@[simp] theorem setIst_ops (s : State) (i : Nat) (x : IStore) : (s.setIst i x).ops = s.ops := rfl
@[simp] theorem setIst_ist (s : State) (i : Nat) (x : IStore) : (s.setIst i x).ist = s.ist.set i x := rfl
@[simp] theorem setIst_tiles (s : State) (i : Nat) (x : IStore) : (s.setIst i x).tiles = s.tiles := rfl
@[simp] theorem setIst_pces (s : State) (i : Nat) (x : IStore) : (s.setIst i x).pces = s.pces := rfl
@[simp] theorem setIst_gov (s : State) (i : Nat) (x : IStore) : (s.setIst i x).gov = s.gov := rfl
@[simp] theorem setIst_starts (s : State) (i : Nat) (x : IStore) : (s.setIst i x).starts = s.starts := rfl
@[simp] theorem setIst_dieOff (s : State) (i : Nat) (x : IStore) : (s.setIst i x).dieOff = s.dieOff := rfl
@[simp] theorem setIst_debugOpen (s : State) (i : Nat) (x : IStore) : (s.setIst i x).debugOpen = s.debugOpen := rfl
@[simp] theorem setIst_pcieDone (s : State) (i : Nat) (x : IStore) : (s.setIst i x).pcieDone = s.pcieDone := rfl
@[simp] theorem setIst_svc (s : State) (i : Nat) (x : IStore) : (s.setIst i x).svc = s.svc := rfl
@[simp] theorem setIst_l2 (s : State) (i : Nat) (x : IStore) : (s.setIst i x).l2 = s.l2 := rfl
@[simp] theorem setIst_reads (s : State) (i : Nat) (x : IStore) : (s.setIst i x).reads = s.reads := rfl
@[simp] theorem setIst_agenda (s : State) (i : Nat) (x : IStore) : (s.setIst i x).agenda = s.agenda := rfl
@[simp] theorem setIst_focus (s : State) (i : Nat) (x : IStore) : (s.setIst i x).focus = s.focus := rfl
@[simp] theorem setIst_ev (s : State) (i : Nat) (x : IStore) : (s.setIst i x).ev = s.ev := rfl
@[simp] theorem setIst_free (s : State) (i : Nat) (x : IStore) : (s.setIst i x).free = s.free := rfl
@[simp] theorem setIst_next (s : State) (i : Nat) (x : IStore) : (s.setIst i x).next = s.next := rfl

@[simp] theorem setSp_time (s : State) (i : Nat) (x : SpState) : (s.setSp i x).time = s.time := rfl
@[simp] theorem setSp_regs (s : State) (i : Nat) (x : SpState) : (s.setSp i x).regs = s.regs := rfl
@[simp] theorem setSp_snap (s : State) (i : Nat) (x : SpState) : (s.setSp i x).snap = s.snap := rfl
@[simp] theorem setSp_ms (s : State) (i : Nat) (x : SpState) : (s.setSp i x).ms = s.ms := rfl
@[simp] theorem setSp_lq (s : State) (i : Nat) (x : SpState) : (s.setSp i x).lq = s.lq := rfl
@[simp] theorem setSp_sp (s : State) (i : Nat) (x : SpState) : (s.setSp i x).sp = s.sp.set i x := rfl
@[simp] theorem setSp_th (s : State) (i : Nat) (x : SpState) : (s.setSp i x).th = s.th := rfl
@[simp] theorem setSp_qpch (s : State) (i : Nat) (x : SpState) : (s.setSp i x).qpch = s.qpch := rfl
@[simp] theorem setSp_ddx (s : State) (i : Nat) (x : SpState) : (s.setSp i x).ddx = s.ddx := rfl
@[simp] theorem setSp_warps (s : State) (i : Nat) (x : SpState) : (s.setSp i x).warps = s.warps := rfl
@[simp] theorem setSp_ops (s : State) (i : Nat) (x : SpState) : (s.setSp i x).ops = s.ops := rfl
@[simp] theorem setSp_ist (s : State) (i : Nat) (x : SpState) : (s.setSp i x).ist = s.ist := rfl
@[simp] theorem setSp_tiles (s : State) (i : Nat) (x : SpState) : (s.setSp i x).tiles = s.tiles := rfl
@[simp] theorem setSp_pces (s : State) (i : Nat) (x : SpState) : (s.setSp i x).pces = s.pces := rfl
@[simp] theorem setSp_gov (s : State) (i : Nat) (x : SpState) : (s.setSp i x).gov = s.gov := rfl
@[simp] theorem setSp_starts (s : State) (i : Nat) (x : SpState) : (s.setSp i x).starts = s.starts := rfl
@[simp] theorem setSp_dieOff (s : State) (i : Nat) (x : SpState) : (s.setSp i x).dieOff = s.dieOff := rfl
@[simp] theorem setSp_debugOpen (s : State) (i : Nat) (x : SpState) : (s.setSp i x).debugOpen = s.debugOpen := rfl
@[simp] theorem setSp_pcieDone (s : State) (i : Nat) (x : SpState) : (s.setSp i x).pcieDone = s.pcieDone := rfl
@[simp] theorem setSp_svc (s : State) (i : Nat) (x : SpState) : (s.setSp i x).svc = s.svc := rfl
@[simp] theorem setSp_l2 (s : State) (i : Nat) (x : SpState) : (s.setSp i x).l2 = s.l2 := rfl
@[simp] theorem setSp_reads (s : State) (i : Nat) (x : SpState) : (s.setSp i x).reads = s.reads := rfl
@[simp] theorem setSp_agenda (s : State) (i : Nat) (x : SpState) : (s.setSp i x).agenda = s.agenda := rfl
@[simp] theorem setSp_focus (s : State) (i : Nat) (x : SpState) : (s.setSp i x).focus = s.focus := rfl
@[simp] theorem setSp_ev (s : State) (i : Nat) (x : SpState) : (s.setSp i x).ev = s.ev := rfl
@[simp] theorem setSp_free (s : State) (i : Nat) (x : SpState) : (s.setSp i x).free = s.free := rfl
@[simp] theorem setSp_next (s : State) (i : Nat) (x : SpState) : (s.setSp i x).next = s.next := rfl

@[simp] theorem setMem_time (s : State) (m : Mem) : (s.setMem m).time = s.time := rfl
@[simp] theorem setMem_regs (s : State) (m : Mem) : (s.setMem m).regs = s.regs := rfl
@[simp] theorem setMem_snap (s : State) (m : Mem) : (s.setMem m).snap = s.snap := rfl
@[simp] theorem setMem_ms (s : State) (m : Mem) : (s.setMem m).ms = { s.ms with mem := m } := rfl
@[simp] theorem setMem_lq (s : State) (m : Mem) : (s.setMem m).lq = s.lq := rfl
@[simp] theorem setMem_sp (s : State) (m : Mem) : (s.setMem m).sp = s.sp := rfl
@[simp] theorem setMem_th (s : State) (m : Mem) : (s.setMem m).th = s.th := rfl
@[simp] theorem setMem_qpch (s : State) (m : Mem) : (s.setMem m).qpch = s.qpch := rfl
@[simp] theorem setMem_ddx (s : State) (m : Mem) : (s.setMem m).ddx = s.ddx := rfl
@[simp] theorem setMem_warps (s : State) (m : Mem) : (s.setMem m).warps = s.warps := rfl
@[simp] theorem setMem_ops (s : State) (m : Mem) : (s.setMem m).ops = s.ops := rfl
@[simp] theorem setMem_ist (s : State) (m : Mem) : (s.setMem m).ist = s.ist := rfl
@[simp] theorem setMem_tiles (s : State) (m : Mem) : (s.setMem m).tiles = s.tiles := rfl
@[simp] theorem setMem_pces (s : State) (m : Mem) : (s.setMem m).pces = s.pces := rfl
@[simp] theorem setMem_gov (s : State) (m : Mem) : (s.setMem m).gov = s.gov := rfl
@[simp] theorem setMem_starts (s : State) (m : Mem) : (s.setMem m).starts = s.starts := rfl
@[simp] theorem setMem_dieOff (s : State) (m : Mem) : (s.setMem m).dieOff = s.dieOff := rfl
@[simp] theorem setMem_debugOpen (s : State) (m : Mem) : (s.setMem m).debugOpen = s.debugOpen := rfl
@[simp] theorem setMem_pcieDone (s : State) (m : Mem) : (s.setMem m).pcieDone = s.pcieDone := rfl
@[simp] theorem setMem_svc (s : State) (m : Mem) : (s.setMem m).svc = s.svc := rfl
@[simp] theorem setMem_l2 (s : State) (m : Mem) : (s.setMem m).l2 = s.l2 := rfl
@[simp] theorem setMem_reads (s : State) (m : Mem) : (s.setMem m).reads = s.reads := rfl
@[simp] theorem setMem_agenda (s : State) (m : Mem) : (s.setMem m).agenda = s.agenda := rfl
@[simp] theorem setMem_focus (s : State) (m : Mem) : (s.setMem m).focus = s.focus := rfl
@[simp] theorem setMem_ev (s : State) (m : Mem) : (s.setMem m).ev = s.ev := rfl
@[simp] theorem setMem_free (s : State) (m : Mem) : (s.setMem m).free = s.free := rfl
@[simp] theorem setMem_next (s : State) (m : Mem) : (s.setMem m).next = s.next := rfl

@[simp] theorem setSvc_time (s : State) (i : Nat) (c : SvcCore) : (setSvc s i c).time = s.time := rfl
@[simp] theorem setSvc_regs (s : State) (i : Nat) (c : SvcCore) : (setSvc s i c).regs = s.regs := rfl
@[simp] theorem setSvc_snap (s : State) (i : Nat) (c : SvcCore) : (setSvc s i c).snap = s.snap := rfl
@[simp] theorem setSvc_ms (s : State) (i : Nat) (c : SvcCore) : (setSvc s i c).ms = s.ms := rfl
@[simp] theorem setSvc_lq (s : State) (i : Nat) (c : SvcCore) : (setSvc s i c).lq = s.lq := rfl
@[simp] theorem setSvc_sp (s : State) (i : Nat) (c : SvcCore) : (setSvc s i c).sp = s.sp := rfl
@[simp] theorem setSvc_th (s : State) (i : Nat) (c : SvcCore) : (setSvc s i c).th = s.th := rfl
@[simp] theorem setSvc_qpch (s : State) (i : Nat) (c : SvcCore) : (setSvc s i c).qpch = s.qpch := rfl
@[simp] theorem setSvc_ddx (s : State) (i : Nat) (c : SvcCore) : (setSvc s i c).ddx = s.ddx := rfl
@[simp] theorem setSvc_warps (s : State) (i : Nat) (c : SvcCore) : (setSvc s i c).warps = s.warps := rfl
@[simp] theorem setSvc_ops (s : State) (i : Nat) (c : SvcCore) : (setSvc s i c).ops = s.ops := rfl
@[simp] theorem setSvc_ist (s : State) (i : Nat) (c : SvcCore) : (setSvc s i c).ist = s.ist := rfl
@[simp] theorem setSvc_tiles (s : State) (i : Nat) (c : SvcCore) : (setSvc s i c).tiles = s.tiles := rfl
@[simp] theorem setSvc_pces (s : State) (i : Nat) (c : SvcCore) : (setSvc s i c).pces = s.pces := rfl
@[simp] theorem setSvc_gov (s : State) (i : Nat) (c : SvcCore) : (setSvc s i c).gov = s.gov := rfl
@[simp] theorem setSvc_starts (s : State) (i : Nat) (c : SvcCore) : (setSvc s i c).starts = s.starts := rfl
@[simp] theorem setSvc_dieOff (s : State) (i : Nat) (c : SvcCore) : (setSvc s i c).dieOff = s.dieOff := rfl
@[simp] theorem setSvc_debugOpen (s : State) (i : Nat) (c : SvcCore) : (setSvc s i c).debugOpen = s.debugOpen := rfl
@[simp] theorem setSvc_pcieDone (s : State) (i : Nat) (c : SvcCore) : (setSvc s i c).pcieDone = s.pcieDone := rfl
@[simp] theorem setSvc_svc (s : State) (i : Nat) (c : SvcCore) : (setSvc s i c).svc = s.svc.set i c := rfl
@[simp] theorem setSvc_l2 (s : State) (i : Nat) (c : SvcCore) : (setSvc s i c).l2 = s.l2 := rfl
@[simp] theorem setSvc_reads (s : State) (i : Nat) (c : SvcCore) : (setSvc s i c).reads = s.reads := rfl
@[simp] theorem setSvc_agenda (s : State) (i : Nat) (c : SvcCore) : (setSvc s i c).agenda = s.agenda := rfl
@[simp] theorem setSvc_focus (s : State) (i : Nat) (c : SvcCore) : (setSvc s i c).focus = s.focus := rfl
@[simp] theorem setSvc_ev (s : State) (i : Nat) (c : SvcCore) : (setSvc s i c).ev = s.ev := rfl
@[simp] theorem setSvc_free (s : State) (i : Nat) (c : SvcCore) : (setSvc s i c).free = s.free := rfl
@[simp] theorem setSvc_next (s : State) (i : Nat) (c : SvcCore) : (setSvc s i c).next = s.next := rfl

end Sys2Proof.Machine.State
end

