-- ==== Sys2Proof/Laws/Tables.lean ====
section
/-! SUPPORT. Laws of sparse tables, of lists written with padding, and of byte stores: read after write, and the
canonical form kept. -/

namespace Sys2Proof

set_option Elab.async false

/-! ## Tables -/

@[simp] theorem Tbl.find_set_same {α : Type} (t : Tbl α) (k : Nat) (v : α) : (t.set k v).find k = some v := by
  induction t with
  | nil => simp [Tbl.set, Tbl.find]
  | cons e t ih =>
    obtain ⟨i, w⟩ := e
    simp only [Tbl.set]
    split
    · simp [Tbl.find]
    · split
      · simp [Tbl.find]
      · have : ¬ i = k := by omega
        simp [Tbl.find, this, ih]

theorem Tbl.find_set_other {α : Type} (t : Tbl α) {k j : Nat} (v : α) (h : j ≠ k) : (t.set k v).find j = t.find j := by
  induction t with
  | nil => simp [Tbl.set, Tbl.find, Ne.symm h]
  | cons e t ih =>
    obtain ⟨i, w⟩ := e
    simp only [Tbl.set]
    split
    · simp [Tbl.find, Ne.symm h]
    · split
      · subst k; simp [Tbl.find, Ne.symm h]
      · simp [Tbl.find, ih]

theorem Tbl.find_set {α : Type} (t : Tbl α) (k j : Nat) (v : α) :
    (t.set k v).find j = if j = k then some v else t.find j := by
  split
  · next h => subst h; simp
  · next h => exact find_set_other t v h

theorem Tbl.get_eq_find {α : Type} (d : α) (t : Tbl α) (k : Nat) : Tbl.get d t k = (t.find k).getD d := by
  induction t with
  | nil => rfl
  | cons e t ih =>
    obtain ⟨i, w⟩ := e
    simp only [Tbl.get, Tbl.find]
    split <;> simp [*]

@[simp] theorem Tbl.get_set_same {α : Type} (d : α) (t : Tbl α) (k : Nat) (v : α) : Tbl.get d (t.set k v) k = v := by
  simp [Tbl.get_eq_find]

theorem Tbl.get_set_other {α : Type} (d : α) (t : Tbl α) {k j : Nat} (v : α) (h : j ≠ k) :
    Tbl.get d (t.set k v) j = Tbl.get d t j := by
  simp [Tbl.get_eq_find, Tbl.find_set_other t v h]

theorem Tbl.get_set {α : Type} (d : α) (t : Tbl α) (k j : Nat) (v : α) :
    Tbl.get d (t.set k v) j = if j = k then v else Tbl.get d t j := by
  split
  · next h => subst h; simp
  · next h => exact get_set_other d t v h

@[simp] theorem Tbl.find_del_same {α : Type} (t : Tbl α) (k : Nat) : (t.del k).find k = none := by
  induction t with
  | nil => rfl
  | cons e t ih =>
    obtain ⟨i, w⟩ := e
    by_cases h : i = k
    · subst h; simpa [Tbl.del, List.filter_cons] using ih
    · simpa [Tbl.del, List.filter_cons, h, Tbl.find] using ih

theorem Tbl.find_del_other {α : Type} (t : Tbl α) {k j : Nat} (h : j ≠ k) : (t.del k).find j = t.find j := by
  induction t with
  | nil => rfl
  | cons e t ih =>
    obtain ⟨i, w⟩ := e
    by_cases h1 : i = k
    · subst h1; simpa [Tbl.del, List.filter_cons, Tbl.find, Ne.symm h] using ih
    · have e : Tbl.del ((i, w) :: t) k = (i, w) :: Tbl.del t k := by simp [Tbl.del, h1]
      rw [e, Tbl.find, Tbl.find, ih]

theorem Tbl.find_mapVals {α β : Type} (f : α → β) (t : Tbl α) (k : Nat) : (t.mapVals f).find k = (t.find k).map f := by
  induction t with
  | nil => rfl
  | cons e t ih =>
    obtain ⟨i, w⟩ := e
    have := ih
    simp only [Tbl.mapVals] at this
    simp only [Tbl.mapVals, List.map_cons, Tbl.find, this]
    split <;> rfl

/-! ## Lists -/

theorem getD_setPad {α : Type} (d : α) (l : List α) (i j : Nat) (v : α) :
    (setPad d l i v).getD j d = if j = i then v else l.getD j d := by
  induction l generalizing i j with
  | nil =>
    induction i generalizing j with
    | zero => cases j <;> simp [setPad]
    | succ n ih =>
      cases j with
      | zero => simp [setPad]
      | succ m => have := ih m; simp [setPad] at *; simpa using this
  | cons x t ih =>
    cases i with
    | zero => cases j <;> simp [setPad]
    | succ n =>
      cases j with
      | zero => simp [setPad]
      | succ m => have := ih n m; simp [setPad] at *; simpa using this

theorem setAt_get {α : Type} (l : List α) (i j : Nat) (v : α) :
    (setAt l i v)[j]? = if j = i ∧ i < l.length then some v else l[j]? := by
  induction l generalizing i j with
  | nil => simp [setAt]
  | cons x t ih =>
    cases i with
    | zero => cases j <;> simp [setAt]
    | succ n =>
      cases j with
      | zero => simp [setAt]
      | succ m => simpa [setAt] using ih n m

/-! ## Byte stores -/

@[simp] theorem Mem.read_nil (a : Nat) : Mem.read [] a = Mem.unlisted := rfl

theorem Mem.read_cons (i : Nat) (b : Byte) (m : Mem) (a : Nat) :
    Mem.read ((i, b) :: m) a = if i = a then b else Mem.read m a := rfl

theorem Mem.read_insert {m : Mem} {a : Nat} (h : ∀ e ∈ m, e.1 ≠ a) (b : Byte) (x : Nat) :
    (m.insert a b).read x = if x = a then b else m.read x := by
  induction m with
  | nil =>
    rw [Mem.insert, Mem.read_cons]
    by_cases hx : x = a
    · simp [hx]
    · rw [if_neg (Ne.symm hx), if_neg hx]
  | cons e t ih =>
    obtain ⟨i, w⟩ := e
    have hi : i ≠ a := h (i, w) (by simp)
    rw [Mem.insert]
    split
    · rw [Mem.read_cons]
      by_cases hx : x = a
      · simp [hx]
      · rw [if_neg (Ne.symm hx), if_neg hx]
    · rw [Mem.read_cons, Mem.read_cons, ih fun e he => h e (by simp [he])]
      by_cases hx : i = x
      · subst hx; simp [hi]
      · simp [hx]

theorem Mem.read_filter (m : Mem) (p : Nat → Bool) (x : Nat) :
    Mem.read (m.filter fun e => p e.1) x = if p x then m.read x else Mem.unlisted := by
  induction m with
  | nil => simp
  | cons e t ih =>
    obtain ⟨i, w⟩ := e
    simp only [List.filter_cons]
    by_cases hp : p i = true
    · simp only [hp, if_true, Mem.read_cons, ih]
      by_cases hx : i = x
      · subst hx; simp [hp]
      · simp [hx]
    · rw [if_neg hp, ih, Mem.read_cons]
      by_cases hx : i = x
      · subst hx; simp [hp]
      · simp [hx]

/-- Read after write: the byte written is read at its address, and every other address reads as before. -/
theorem Mem.read_write (m : Mem) (a : Nat) (b : Byte) (x : Nat) :
    (m.write a b).read x = if x = a then b else m.read x := by
  have hf : ∀ x, Mem.read (m.filter fun e => decide (e.1 ≠ a)) x = if x ≠ a then m.read x else Mem.unlisted := by
    intro x
    have := Mem.read_filter m (fun i => decide (i ≠ a)) x
    simpa using this
  simp only [Mem.write]
  split
  · next hb => rw [hf]; by_cases hx : x = a <;> simp [hx, hb]
  · rw [Mem.read_insert (fun e he => by simpa using (List.mem_filter.1 he).2), hf]
    by_cases hx : x = a <;> simp [hx]

/-- Reading bytes after a run of bytes was written. -/
theorem Mem.read_writeN (m : Mem) (a : Nat) (l : List Byte) (x : Nat) :
    (m.writeN a l).read x = if a ≤ x ∧ x < a + l.length then l.getD (x - a) 0 else m.read x := by
  induction l generalizing m a with
  | nil => simp [Mem.writeN] <;> omega
  | cons b t ih =>
    rw [Mem.writeN, ih, Mem.read_write]
    simp only [List.length_cons]
    by_cases hx : x = a
    · subst hx; simp <;> (intro; omega)
    · simp only [hx, if_false]
      by_cases hr : a + 1 ≤ x ∧ x < a + 1 + t.length
      · have e : x - a = (x - (a + 1)) + 1 := by omega
        rw [if_pos hr, if_pos (by omega), e, List.getD_cons_succ]
      · rw [if_neg hr, if_neg (by omega)]

/-! ### The canonical form -/

theorem Mem.wfFrom_weaken {lo lo' : Nat} {m : Mem} (h : Mem.wfFrom (some lo) m = true) (hl : lo' ≤ lo) :
    Mem.wfFrom (some lo') m = true := by
  cases m with
  | nil => rfl
  | cons e t =>
    obtain ⟨i, b⟩ := e
    simp only [Mem.wfFrom, Bool.and_eq_true, decide_eq_true_eq] at h ⊢
    exact ⟨⟨by omega, h.1.2⟩, h.2⟩

theorem Mem.wfFrom_none {lo : Nat} {m : Mem} (h : Mem.wfFrom (some lo) m = true) : Mem.wfFrom none m = true := by
  cases m with
  | nil => rfl
  | cons e t =>
    obtain ⟨i, b⟩ := e
    simp only [Mem.wfFrom, Bool.and_eq_true, decide_eq_true_eq] at h ⊢
    exact ⟨⟨trivial, h.1.2⟩, h.2⟩

theorem Mem.filter_wfFrom {lo : Nat} {m : Mem} (h : Mem.wfFrom (some lo) m = true) (p : Nat × Byte → Bool) :
    Mem.wfFrom (some lo) (m.filter p) = true := by
  induction m generalizing lo with
  | nil => rfl
  | cons e t ih =>
    obtain ⟨i, w⟩ := e
    simp only [Mem.wfFrom, Bool.and_eq_true, decide_eq_true_eq] at h
    obtain ⟨⟨h1, h2⟩, h3⟩ := h
    simp only [List.filter_cons]
    split
    · simp [Mem.wfFrom, h1, h2, ih h3]
    · exact Mem.wfFrom_weaken (ih h3) (by omega)

/-- Dropping bytes keeps the canonical form. -/
theorem Mem.filter_wf {m : Mem} (h : m.wf = true) (p : Nat × Byte → Bool) : Mem.wf (m.filter p) = true := by
  cases m with
  | nil => rfl
  | cons e t =>
    obtain ⟨i, w⟩ := e
    simp only [Mem.wf, Mem.wfFrom, Bool.and_eq_true, decide_eq_true_eq] at h
    simp only [List.filter_cons, Mem.wf]
    split
    · simp [Mem.wfFrom, h.1.2, Mem.filter_wfFrom h.2 p]
    · exact Mem.wfFrom_none (Mem.filter_wfFrom h.2 p)

theorem Mem.insert_wfFrom {lo : Nat} {m : Mem} (h : Mem.wfFrom (some lo) m = true) {a : Nat} (ha : lo < a) {b : Byte}
    (hb : b ≠ Mem.unlisted) (hn : ∀ e ∈ m, e.1 ≠ a) : Mem.wfFrom (some lo) (m.insert a b) = true := by
  induction m generalizing lo with
  | nil => simp [Mem.insert, Mem.wfFrom, ha, hb]
  | cons e t ih =>
    obtain ⟨i, w⟩ := e
    simp only [Mem.wfFrom, Bool.and_eq_true, decide_eq_true_eq] at h
    obtain ⟨⟨h1, h2⟩, h3⟩ := h
    have hi : i ≠ a := hn (i, w) (by simp)
    rw [Mem.insert]
    split
    · next hai => simp [Mem.wfFrom, ha, hb, hai, h2, h3]
    · have := ih h3 (by omega) fun e he => hn e (by simp [he])
      simp [Mem.wfFrom, h1, h2, this]

/-- A write keeps the canonical form. -/
theorem Mem.write_wf {m : Mem} (h : m.wf = true) (a : Nat) (b : Byte) : (m.write a b).wf = true := by
  have hf := Mem.filter_wf h fun e => decide (e.1 ≠ a)
  have hn : ∀ e ∈ (m.filter fun e => decide (e.1 ≠ a)), e.1 ≠ a := fun e he => by simpa using (List.mem_filter.1 he).2
  simp only [Mem.write]
  generalize m.filter (fun e => decide (e.1 ≠ a)) = t at *
  split
  · exact hf
  · next hb =>
    cases t with
    | nil => simp [Mem.insert, Mem.wf, Mem.wfFrom, hb]
    | cons e t =>
      obtain ⟨i, w⟩ := e
      have hi : i ≠ a := hn (i, w) (by simp)
      simp only [Mem.wf, Mem.wfFrom, Bool.and_eq_true, decide_eq_true_eq] at hf
      rw [Mem.insert]
      split
      · next hai => simp [Mem.wf, Mem.wfFrom, hb, hai, hf.1.2, hf.2]
      · have := Mem.insert_wfFrom hf.2 (a := a) (by omega) hb fun e he => hn e (by simp [he])
        simp [Mem.wf, Mem.wfFrom, hf.1.2, this]

theorem Mem.writeN_wf {m : Mem} (h : m.wf = true) (a : Nat) (l : List Byte) : (m.writeN a l).wf = true := by
  induction l generalizing m a with
  | nil => exact h
  | cons b t ih => exact ih (Mem.write_wf h a b) (a + 1)

end Sys2Proof
end

