-- ==== Sys2Proof/Laws/Tile.lean ====
section
/-! SUPPORT. What the shared operations of tile words do: the start of a word, a walker put back, a repetition done. -/

namespace Sys2Proof.Machine

set_option Elab.async false

theorem setAt_self {α : Type} {l : List α} {i : Nat} {v : α} (h : l[i]? = some v) : setAt l i v = l := by
  induction l generalizing i with
  | nil => rfl
  | cons x l ih =>
    cases i with
    | zero => simp at h; simp [setAt, h]
    | succ n => simp at h; simp [setAt, ih h]

theorem setAt_setAt {α : Type} (l : List α) (i : Nat) (v w : α) : setAt (setAt l i v) i w = setAt l i w := by
  induction l generalizing i with
  | nil => rfl
  | cons x l ih => cases i <;> simp [setAt, ih]

theorem setAt_getElem? {α : Type} {l : List α} {i : Nat} {v : α} (w : α) (h : l[i]? = some v) : (setAt l i w)[i]? = some w := by
  induction l generalizing i with
  | nil => simp at h
  | cons x l ih => cases i <;> simp_all [setAt]

/-- A word of which the tokens are popped pops nothing more. -/
theorem popOne_popped {s : State} {k : TCtx} {f : Nat} (h : s.tiles.find k.tc = some k.t) (hw : k.t.walkers[k.e]? = some k.w)
    (hp : (k.w.pops.find f).isSome) : popOne s k f = s := by
  unfold popOne
  simp only [h, hw]
  split
  · rename_i w hd rest he _
    cases he
    simp [hp]
  · rfl

theorem walkerNow_eq {s : State} {k : TCtx} (h : s.tiles.find k.tc = some k.t) (hw : k.t.walkers[k.e]? = some k.w) :
    walkerNow s k = k.w := by
  simp [walkerNow, h, hw]

/-- Where a walker performs a word, the word's effect is all that happens. -/
theorem Walks.runs {s : State} {opc : Nat} {k : TCtx} (h : Walks s opc k) (f : State → TCtx → State) :
    runTile s opc k.word f = .next (f s k) := by
  obtain ⟨ha, hf, hl, hh, hm, hg, hs, hc, he, hi, hso, ht⟩ := h
  obtain ⟨tc, e, t, x, w, word⟩ := k
  simp only at ha hf hl hh hm hg hs hc he hi hso ht
  have hpop : ∀ l : List Nat, (∀ n ∈ l, (w.pops.find n).isSome) →
      l.foldl (fun (a : State) n => popOne a { tc := tc, e := e, t := t, x := x, w := w, word := word } n) s = s := by
    intro l hall
    induction l with
    | nil => rfl
    | cons n l ih =>
      rw [List.foldl_cons, popOne_popped hf hh (hall n (by simp))]
      exact ih fun m hm => hall m (by simp [hm])
  have htok : ∀ n ∈ (if word.t = 0 ∨ word.t = 5 then [] else popFifos e word), (w.pops.find n).isSome := by
    intro n hn
    split at hn
    · simp at hn
    · rename_i hne
      rcases ht with h0 | h5 | hp
      · exact absurd (Or.inl h0) hne
      · exact absurd (Or.inr h5) hne
      · exact hp n hn
  have hnow : walkerNow s { tc := tc, e := e, t := t, x := x, w := w, word := word } = w := walkerNow_eq hf hh
  have hskip : ¬ (word.t ≠ 0 ∧ word.t ≠ 5 ∧ word.t ≠ e + 1) := by omega
  have hsoft : ¬ (e < 4 ∧ w.asked = none ∧ w.sent = false ∧ commandOk t e w opc word = false) := fun h => by
    simp [hso h.1] at h
  have hturn : tileTurn s tc e t x w = true := by simp [tileTurn, hm]
  have hclock : sameClock s tc e t w = false := by simp [sameClock, hg]
  have honly : ∀ s', onlyFaults s s' = s' := fun s' => by simp [onlyFaults, ha, hf, hh, hclock]
  unfold runTile tStart
  simp only [honly]
  simp only [ha, hf, hl, hh, hturn, Bool.not_true, Bool.false_eq_true, if_false, Nat.not_le.mpr hs, hc, he, hskip, hsoft]
  rw [hpop _ htok]
  simp only [hnow, hg, List.all_eq_true]
  rw [if_pos htok]
  simp [hf]

/-- A walker put back: the tile core holds it, and nothing else changes. -/
theorem putWalker_is {s : State} {k : TCtx} (h : s.tiles.find k.tc = some k.t) (hw : k.t.walkers[k.e]? = some k.w) (w : Walker) :
    WalkerIs s (putWalker s k w) k k.t w := by
  unfold putWalker setWalkerAt
  simp only [h, hw]
  exact ⟨rfl, fun j hj => by simpa using Tbl.find_set_other _ _ hj, by simp⟩

/-- The end of a K word. -/
theorem kDone_is {s : State} {k : TCtx} (h : s.tiles.find k.tc = some k.t) (hw : k.t.walkers[k.e]? = some k.w) (w : Walker)
    (pc : OvAddr) : WalkerIs s (kDone s k w pc) k k.t (w.finish pc) := putWalker_is h hw _

theorem Past.finish {k : TCtx} (h : k.w.st = .run) (pc : OvAddr) (l : List DWord) :
    Past k pc ({ k.w with k := l }.finish pc) := by
  simp [Past, Walker.finish, WkState.going, h]

theorem kr_setK (w : Walker) (n j : Nat) (v : DWord) : (w.setK n v).kr j = if j = n then v else w.kr j := by
  simp only [Walker.setK, Walker.kr, getD_setPad]

/-- The end of a K word that writes one register of its walker's replica. -/
theorem Walks.done {s : State} {opc : Nat} {k : TCtx} (h : Walks s opc k) (n : Nat) (v : DWord) (pc : OvAddr) :
    WalkerIs s (kDone s k (k.w.setK n v) pc) k k.t ((k.w.setK n v).finish pc) ∧ WrotesK k ((k.w.setK n v).finish pc) n v ∧
      Past k pc ((k.w.setK n v).finish pc) :=
  ⟨kDone_is h.found h.here _ _, fun j => kr_setK k.w n j v, Past.finish h.going pc _⟩

/-- A word that writes one register of its walker's replica. -/
theorem KWrites.of_done {mk : TWord → Instr} {opc : Nat} {f : TCtx → DWord}
    (h : ∀ s k, Walks s opc k → exec (mk k.word) s = .next (kDone s k (k.w.setK k.word.kd (f k)) k.w.pc.next)) :
    KWrites mk opc f := fun s k hk => ⟨_, _, h s k hk, hk.done _ _ _⟩

/-- The same of a word of two sources. -/
theorem KWrites.of_runKrr {mk : TWord → Instr} {opc : Nat} {f : DWord → DWord → DWord}
    (h : ∀ w s, exec (mk w) s = runKrr s opc w f) : KWrites mk opc fun k => f (k.w.kr k.word.ka) (k.w.kr k.word.kb) :=
  KWrites.of_done fun s k hk => by rw [h, runKrr, hk.runs]

theorem KBranch.of_runKbr {mk : TWord → Instr} {opc : Nat} {p : DWord → DWord → Bool} {q : DWord → DWord → Prop}
    (h : ∀ w s, exec (mk w) s = runKbr s opc w p) (hq : ∀ a b, p a b = true ↔ q a b) : KBranch mk opc q := by
  intro s k hk
  refine ⟨_, _, by rw [h, runKbr, hk.runs], kDone_is hk.found hk.here _ _, rfl, ?_, ?_⟩
  · intro ht
    rw [if_pos ((hq _ _).mpr ht)]
    exact Past.finish hk.going _ k.w.k
  · intro ht
    rw [if_neg (fun hp => ht ((hq _ _).mp hp))]
    exact Past.finish hk.going _ k.w.k

/-- A repetition done by a walker that waits for no reads. -/
theorem tRep_is {s : State} {k : TCtx} {t : TileCore} {w : Walker} (h : s.tiles.find k.tc = some t) (hw : t.walkers[k.e]? = some w)
    (hg : w.st = .run) (ha : w.asked = none) :
    ∃ w', RepDone k w w' ∧ tRep s k = s.setTile k.tc { t with walkers := setAt t.walkers k.e w' } := by
  have hnow : walkerNow s k = w := by simp [walkerNow, h, hw]
  refine ⟨_, rfl, ?_⟩
  unfold tRep putWalker setWalkerAt
  simp only [hnow, dropAsked, ha, h, hw, hg, WkState.going]

end Sys2Proof.Machine
end

