-- ==== Sys2Proof/Laws/Vision.lean ====
section
/-! SUPPORT. What the shared operations of the vision words do: the checks at issue, register and predicate results, and
the end of a word. -/

namespace Sys2Proof.Machine

set_option Elab.async false

/-! ## Masks of lanes -/

theorem mem_lanesOf {m : Word} {l : Nat} : l ∈ lanesOf m ↔ l < 32 ∧ laneIn m l = true := by
  simp [lanesOf, lanes32]

theorem lanes32_map_get {α : Type} (d : α) (f : Nat → α) {l : Nat} (h : l < 32) : laneGet d (lanes32.map f) l = f l := by
  simp [laneGet, lanes32, h]

/-! ## The start of a word -/

theorem Issues.issuing {s : State} {opc : Nat} {x : VWord} {k : VCtx} (h : Issues s opc x k) :
    Machine.issuing s = some (k.wid, k.w, (k.core, k.part), k.c) := by
  simp [Machine.issuing, h.agent, h.found, h.placed, h.inside, h.ready, h.free]

theorem Issues.x {s : State} {opc : Nat} {x : VWord} {k : VCtx} (h : Issues s opc x k) : k.x = x := by
  have := h.masks
  rw [this]; rfl

/-- A word that issues passes every check and acts. -/
theorem Issues.go {s : State} {opc : Nat} {x : VWord} {k : VCtx} (h : Issues s opc x k) : vStart s opc x = .go k s := by
  have e := h.masks
  have hb : flagBad k.w k.c opc x = false := by
    unfold flagBad
    cases k.c.flag x.fs <;> simp [Warp.badFlag, h.soundU]
  simp only [vStart, h.issuing, ← e, h.legal, h.clear, h.room, h.soundU, h.soundV, hb]
  simp

/-! ## Registers -/

theorem vKey_inj {r l r' l' : Nat} (h : l < 32) (h' : l' < 32) : vKey r l = vKey r' l' ↔ r = r' ∧ l = l' := by
  unfold vKey; omega

theorem field_vSet (w : Warp) {f l r j : Nat} (x : Word) (hl : l < 32) (hj : j < 32) (hf : f < 256) :
    (w.vSet f l x).field r j = if r = f ∧ j = l then x else w.field r j := by
  unfold Warp.field Warp.vSet Warp.vGet Warp.sGet
  by_cases hr : r < 256
  · simp only [hr, if_true, Tbl.get_set]
    by_cases h : r = f ∧ j = l
    · simp [h]
    · have : ¬ vKey r j = vKey f l := by rw [vKey_inj hj hl]; exact h
      simp [h, this]
  · have : ¬ (r = f ∧ j = l) := by omega
    simp [hr, this]

theorem field_sSet (w : Warp) {f r j : Nat} (x : Word) (hf : ¬ f < 256) :
    (w.sSet (f - 256) x).field r j = if r = f then x else w.field r j := by
  unfold Warp.field Warp.sSet Warp.vGet Warp.sGet
  by_cases hr : r < 256
  · have : ¬ r = f := by omega
    simp [hr, this]
  · simp only [hr, if_false, Tbl.get_set]
    by_cases h : r = f
    · simp [h]
    · have : ¬ r - 256 = f - 256 := by omega
      simp [h, this]

/-- What writing words from a destination field up leaves in every register. -/
theorem field_dstWrite (ws : List Word) : ∀ (w : Warp) {f l r j : Nat}, l < 32 → j < 32 → r < 448 →
    (w.dstWrite f l ws).field r j =
      if f ≤ r ∧ r < f + ws.length ∧ (256 ≤ r ∨ j = l) then ws.getD (r - f) 0 else w.field r j := by
  induction ws with
  | nil => intro w f l r j _ _ _; simp [Warp.dstWrite]; omega
  | cons x t ih =>
    intro w f l r j hl hj hr
    simp only [Warp.dstWrite, List.length_cons]
    rw [ih _ hl hj hr]
    by_cases h1 : f < 256
    · simp only [h1, if_true, show f < 448 by omega]
      rw [field_vSet _ _ hl hj h1]
      by_cases e : r = f
      · subst e
        by_cases e2 : j = l
        · rw [if_neg (by omega), if_pos ⟨rfl, e2⟩, if_pos (by simp [e2])]; simp
        · rw [if_neg (by omega), if_neg (by omega), if_neg (by omega)]
      · have e3 : ¬ (r = f ∧ j = l) := by omega
        simp only [e3, if_false]
        by_cases c : f + 1 ≤ r ∧ r < f + 1 + t.length ∧ (256 ≤ r ∨ j = l)
        · have e4 : r - f = (r - (f + 1)) + 1 := by omega
          rw [if_pos c, if_pos (by omega), e4, List.getD_cons_succ]
        · rw [if_neg c, if_neg (by omega)]
    · by_cases h2 : f < 448
      · simp only [h1, if_false, h2, if_true]
        rw [field_sSet _ _ h1]
        by_cases e : r = f
        · subst e
          rw [if_neg (by omega), if_pos rfl, if_pos ⟨Nat.le_refl _, by omega, by omega⟩]; simp
        · simp only [e, if_false]
          by_cases c : f + 1 ≤ r ∧ r < f + 1 + t.length ∧ (256 ≤ r ∨ j = l)
          · have e4 : r - f = (r - (f + 1)) + 1 := by omega
            rw [if_pos c, if_pos (by omega), e4, List.getD_cons_succ]
          · rw [if_neg c, if_neg (by omega)]
      · simp only [h1, if_false, h2]
        rw [if_neg (by omega), if_neg (by omega)]

/-- What writing destination fields changes of a warp with no uncorrectable error: its v and s registers only. -/
theorem dstWrite_frame (ws : List Word) : ∀ (w : Warp) (f l : Nat), w.badV = [] → w.badU = [] →
    w.dstWrite f l ws = { w with v := (w.dstWrite f l ws).v, s := (w.dstWrite f l ws).s } := by
  induction ws with
  | nil => intro w f l _ _; rfl
  | cons x t ih =>
    intro w f l hv hu
    simp only [Warp.dstWrite]
    by_cases h1 : f < 256
    · simp only [h1, if_true]
      have := ih (w.vSet f l x) (if f < 448 then f + 1 else f) l (by simp [Warp.vSet, hv]) (by simp [Warp.vSet, hu])
      rw [this]; simp [Warp.vSet, hv]
    · by_cases h2 : f < 448
      · simp only [h1, if_false, h2, if_true]
        have := ih (w.sSet (f - 256) x) (f + 1) l (by simp [Warp.sSet, hv]) (by simp [Warp.sSet, hu])
        rw [this]; simp [Warp.sSet, hu]
      · simp only [h1, if_false, h2]
        exact ih w f l hv hu

theorem dstWrites_frame (f : LaneFn) (d : Nat) (ls : List Nat) : ∀ (w : Warp), w.badV = [] → w.badU = [] →
    let w' := ls.foldl (fun (a : Warp) l => a.dstWrite d l (f l).1) w
    w' = { w with v := w'.v, s := w'.s } := by
  induction ls with
  | nil => intro w _ _; rfl
  | cons l t ih =>
    intro w hv hu
    have h := dstWrite_frame (f l).1 w d l hv hu
    have h2 := ih (w.dstWrite d l (f l).1) (by rw [h]; exact hv) (by rw [h]; exact hu)
    simp only [List.foldl_cons] at h2 ⊢
    rw [h2, h]

/-- Registers after every lane of a list has written its results: a v register in the lane's own copy, an s register by
the last lane. -/
theorem field_dstWrites (f : LaneFn) (n d : Nat) (hn : ∀ l, (f l).1.length = n) (ls : List Nat) (hls : ∀ l ∈ ls, l < 32) :
    ∀ (w : Warp) {r j : Nat}, j < 32 → r < 448 →
    (ls.foldl (fun (a : Warp) l => a.dstWrite d l (f l).1) w).field r j =
      match (if d ≤ r ∧ r < d + n then (if r < 256 then (if j ∈ ls then some j else none) else ls.getLast?) else none) with
      | some i => (f i).1.getD (r - d) 0
      | none => w.field r j := by
  induction ls with
  | nil => intro w r j _ _; simp
  | cons l t ih =>
    intro w r j hj hr
    rw [List.foldl_cons, ih (fun x hx => hls x (by simp [hx])) _ hj hr, field_dstWrite _ _ (hls l (by simp)) hj hr, hn l]
    by_cases c : d ≤ r ∧ r < d + n
    · by_cases c2 : r < 256
      · by_cases c3 : j ∈ t
        · simp [c, c2, c3]
        · by_cases c4 : j = l
          · simp [c, c2, c4]
            split <;> simp_all
          · simp [c, c2, c3, c4] <;> (intro; omega)
      · cases t with
        | nil => simp [c, c2, show 256 ≤ r by omega]
        | cons a u => simp [c, c2, List.getLast?_cons]
    · have : ¬ (d ≤ r ∧ r < d + n ∧ (256 ≤ r ∨ j = l)) := by omega
      simp [c, this]

theorem lowLane_lt {m : Word} {l : Nat} (h : lowLane m = some l) : l < 32 := by
  have : l ∈ lanesOf m := List.mem_of_mem_head? (by simpa [lowLane] using h)
  exact (mem_lanesOf.1 this).1

/-- Everything a register result does to its warp. -/
theorem regResult_spec (k : VCtx) (f : LaneFn) (n : Nat) (hn : ∀ l, (f l).1.length = n) (hv : k.w.badV = [])
    (hu : k.w.badU = []) :
    let w := regResult k f
    (∀ r l, r < 448 → l < 32 → w.field r l =
      match (if k.x.dst.toNat ≤ r ∧ r < k.x.dst.toNat + n then writerOf k r l else none) with
      | some j => (f j).1.getD (r - k.x.dst.toNat) 0
      | none => k.w.field r l) ∧
    (w.fpflags = (k.w.fpflags ||| raisedBy k fun l => (f l).2) % 32 ∨
      (w.fpflags = k.w.fpflags ∧ (raisedBy k fun l => (f l).2) = 0)) ∧
    w = { k.w with v := w.v, s := w.s, fpflags := w.fpflags } := by
  have frame1 : ∀ (w : Warp) fl, (w.orFp fl) = { w with fpflags := (w.fpflags ||| fl) % 32 } := fun _ _ => rfl
  by_cases u : k.x.uni = true
  · by_cases pf : k.performs = true
    · obtain ⟨l, hl⟩ : ∃ l, lowLane k.path = some l := by
        revert pf; unfold VCtx.performs; cases lowLane k.path <;> simp
      have hlt := lowLane_lt hl
      have fr := dstWrite_frame (f l).1 k.w k.x.dst.toNat l hv hu
      refine ⟨?_, ?_, ?_⟩
      · intro r j hr hj
        simp only [regResult, u, if_true, pf, hl, writerOf, Bool.true_and]
        have e := field_dstWrite (f l).1 k.w (f := k.x.dst.toNat) hlt hj hr
        have e' : (((k.w.dstWrite k.x.dst.toNat l (f l).1).orFp (f l).2)).field r j =
            (k.w.dstWrite k.x.dst.toNat l (f l).1).field r j := rfl
        rw [e', e, hn l]
        by_cases c : k.x.dst.toNat ≤ r ∧ r < k.x.dst.toNat + n
        · by_cases c2 : 256 ≤ r
          · simp [c, c2]
          · by_cases c3 : j = l
            · subst c3; simp [c]
            · simp [c, c2, c3, Ne.symm c3]
        · have : ¬ (k.x.dst.toNat ≤ r ∧ r < k.x.dst.toNat + n ∧ (256 ≤ r ∨ j = l)) := by omega
          simp [c, this]
      · left
        simp only [regResult, u, if_true, pf, hl, raisedBy, frame1]
        rw [fr]
      · simp only [regResult, u, if_true, pf, hl, frame1]
        rw [fr]
    · refine ⟨?_, ?_, ?_⟩
      · intro r j hr hj
        simp only [regResult, u, if_true, writerOf]
        simp [pf]
      · right; simp [regResult, u, pf, raisedBy]
      · simp [regResult, u, pf]
  · have fr := dstWrites_frame f k.x.dst.toNat (lanesOf k.exec) k.w hv hu
    simp only at fr
    refine ⟨?_, ?_, ?_⟩
    · intro r j hr hj
      have e := field_dstWrites f n k.x.dst.toNat hn (lanesOf k.exec) (fun l h => (mem_lanesOf.1 h).1) k.w hj hr
      simp only [regResult, u, writerOf, writeLanes, Bool.false_eq_true, if_false]
      refine Eq.trans e ?_
      simp only [mem_lanesOf, hj, true_and]
    · left
      simp only [regResult, u, writeLanes, raisedBy, frame1, Bool.false_eq_true, if_false]
      rw [fr]
    · simp only [regResult, u, writeLanes, frame1, Bool.false_eq_true, if_false]
      rw [fr]

/-! ## The end of a word -/

/-- Ending a word changes the warps only. -/
theorem putWarp_onlyWarp (s : State) (k : VCtx) (w : Warp) : OnlyWarp s (putWarp s k w) k.wid := by
  constructor
  · simp only [putWarp, noteIssue]
    split <;> rfl
  · intro j hj
    have key : ∀ (t : State), (t.setWarp k.wid
        (if k.last && hdrYield k.c.hdr then { w with yieldTo := readyMates t k.wid (k.core, k.part) } else w)).warps.find j =
        t.warps.find j := fun t => by simp [Tbl.find_set_other _ _ hj]
    simp only [putWarp]
    rw [key]
    simp only [noteIssue]
    split
    · simp [Tbl.find_mapVals]
    · next h =>
      have h' : ∀ e ∈ s.warps, e.2.yieldTo = [] := by simpa using h
      have : ∀ (l : Tbl Warp), (∀ e ∈ l, e.2.yieldTo = []) → l.find j = (l.find j).map
          fun (w : Warp) => { w with yieldTo := w.yieldTo.filter fun n => decide (n ≠ k.wid) } := by
        intro l
        induction l with
        | nil => intro _; rfl
        | cons e t ih =>
          intro ha
          obtain ⟨i, v⟩ := e
          simp only [Tbl.find]
          split
          · have := ha (i, v) (by simp)
            simp at this
            cases v; simp_all
          · exact ih fun e he => ha e (by simp [he])
      exact this _ h'

/-- The warp after the end of a word. -/
theorem putWarp_find (s : State) (k : VCtx) (w : Warp) :
    ∃ w', (putWarp s k w).warps.find k.wid = some w' ∧ w' = { w with yieldTo := w'.yieldTo } := by
  simp only [putWarp, State.setWarp_warps, Tbl.find_set_same]
  refine ⟨_, rfl, ?_⟩
  split <;> rfl

theorem advance_advanced (k : VCtx) (w : Warp) (h : w.pc = k.w.pc) (y : List Nat) :
    Advanced k { advance k w with yieldTo := y } := by
  constructor
  · simp only [advance]; split <;> simp [*]
  · intro l hl
    simp only [advance]
    split
    · next hk =>
      simp only [lanes32_map_get _ _ hl, hk, Bool.true_and, h]
      rfl
    · next hk => simp [hk, h]

theorem advance_frame (k : VCtx) (w : Warp) : advance k w = { w with clause := (advance k w).clause, pc := (advance k w).pc } := by
  simp only [advance]; split <;> rfl

/-- The end of a word with the warp's new contents. -/
theorem vDone_spec (s : State) (k : VCtx) (w : Warp) (h : w.pc = k.w.pc) :
    OnlyWarp s (vDone s k w) k.wid ∧ ∃ w', (vDone s k w).warps.find k.wid = some w' ∧ Advanced k w' ∧
      w' = { w with clause := w'.clause, pc := w'.pc, yieldTo := w'.yieldTo } := by
  refine ⟨putWarp_onlyWarp s k _, ?_⟩
  obtain ⟨w', h1, h2⟩ := putWarp_find s k (advance k w)
  refine ⟨w', h1, ?_, ?_⟩
  · rw [h2]; exact advance_advanced k w h _
  · rw [h2, advance_frame]

/-- A word that ends with a register result: everything it does. -/
theorem regDone_wrote {s : State} {opc : Nat} {x : VWord} {k : VCtx} (h : Issues s opc x k) (f : LaneFn) (n : Nat)
    (hn : ∀ l, (f l).1.length = n) : Wrote s (vDone s k (regResult k f)) k n f false := by
  obtain ⟨h1, h2, h3⟩ := regResult_spec k f n hn h.soundV h.soundU
  have hpc : (regResult k f).pc = k.w.pc := by rw [h3]
  obtain ⟨o, w', e1, e2, e3⟩ := vDone_spec s k (regResult k f) hpc
  refine ⟨o, w', e1, e2, ?_, ?_, ?_, ?_⟩
  · intro r l hr hl
    refine Eq.trans ?_ (h1 r l hr hl)
    rw [e3]; rfl
  · rw [e3]; exact h2
  · rw [e3, h3]; simp
  · rw [e3, h3]

/-- A word that writes registers: everything it does. -/
theorem runReg_wrote {s : State} {opc : Nat} {x : VWord} {k : VCtx} (h : Issues s opc x k) (f : VCtx → LaneFn) (n : Nat)
    (hn : ∀ l, (f k l).1.length = n) : ∃ t, runReg s opc x f = .next t ∧ Wrote s t k n (f k) false :=
  ⟨vDone s k (regResult k (f k)), by simp [runReg, h.go], regDone_wrote h (f k) n hn⟩

/-! ## Predicates -/

theorem pMask_setPad (w : Warp) (n m : Nat) (v : Word) (l : List Word) (h : l = setPad 0 w.p n v) (w' : Warp) (hw : w'.p = l) :
    w'.pMask m = if m = n ∧ m < 7 then v else w.pMask m := by
  subst h
  unfold Warp.pMask
  rw [hw]
  by_cases h7 : m < 7
  · simp only [h7, if_true, and_true, getD_setPad]
  · simp [h7]

theorem sumBits (p : Nat → Bool) : ∀ n i,
    ((List.range n).foldl (fun acc l => if p l then acc + 2 ^ l else acc) 0) < 2 ^ n ∧
    ((List.range n).foldl (fun acc l => if p l then acc + 2 ^ l else acc) 0).testBit i = (decide (i < n) && p i) := by
  intro n
  induction n with
  | zero => intro i; simp
  | succ n ih =>
    intro i
    have hlt := (ih i).1
    have hb := (ih i).2
    rw [List.range_succ, List.foldl_append]
    simp only [List.foldl_cons, List.foldl_nil]
    generalize hA : (List.range n).foldl (fun acc l => if p l then acc + 2 ^ l else acc) 0 = A at *
    by_cases hp : p n = true
    · simp only [hp, if_true]
      refine ⟨by rw [Nat.pow_succ]; omega, ?_⟩
      rw [Nat.add_comm]
      rcases Nat.lt_trichotomy i n with h | h | h
      · rw [Nat.testBit_two_pow_add_gt h, hb]; simp [h, Nat.lt_succ_of_lt h]
      · subst h; rw [Nat.testBit_two_pow_add_eq, hb]; simp [hp]
      · rw [Nat.testBit_lt_two_pow]
        · have : ¬ i < n + 1 := by omega
          simp [this]
        · calc 2 ^ n + A < 2 ^ (n + 1) := by rw [Nat.pow_succ]; omega
            _ ≤ 2 ^ i := Nat.pow_le_pow_right (by omega) (by omega)
    · rw [if_neg hp, hb]
      refine ⟨by rw [Nat.pow_succ]; omega, ?_⟩
      by_cases e : i = n
      · subst e; simp [hp]
      · have : (i < n + 1) ↔ (i < n) := by omega
        simp [this]

theorem laneIn_maskOf (p : Nat → Bool) {l : Nat} (h : l < 32) : laneIn (maskOf p) l = p l := by
  have hs := (sumBits p 32 l).1
  unfold laneIn maskOf lanes32
  rw [BitVec.toNat_ofNat, Nat.mod_eq_of_lt hs, (sumBits p 32 l).2]
  simp [h]

theorem laneIn_and (a b : Word) (l : Nat) : laneIn (a &&& b) l = (laneIn a l && laneIn b l) := by simp [laneIn]
theorem laneIn_or (a b : Word) (l : Nat) : laneIn (a ||| b) l = (laneIn a l || laneIn b l) := by simp [laneIn]
theorem laneIn_not (a : Word) {l : Nat} (h : l < 32) : laneIn (~~~a) l = !laneIn a l := by
  have : ∀ (m : Word), laneIn m l = m.getLsbD l := fun m => rfl
  rw [this, this]; simp [h]
theorem laneIn_allOnes {l : Nat} (h : l < 32) : laneIn (BitVec.allOnes 32) l = true := by
  have : ∀ (m : Word), laneIn m l = m.getLsbD l := fun m => rfl
  rw [this, BitVec.getLsbD_allOnes]; simp [h]
theorem laneIn_zero (l : Nat) : laneIn 0 l = false := by simp [laneIn]

/-- Everything a predicate result does to its warp. -/
theorem predResult_spec (k : VCtx) (f : Nat → Bool × Nat) (hu : k.w.badU = []) (hd : k.x.dst.toNat < 7) :
    let w := predResult k f
    (∀ l, l < 32 → w.pGet k.x.dst.toNat l =
      if k.x.uni then
        match k.performs, lowLane k.path with
        | true, some j => (f j).1
        | _, _ => k.w.pGet k.x.dst.toNat l
      else if laneIn k.exec l then (f l).1 else k.w.pGet k.x.dst.toNat l) ∧
    (∀ n, n ≠ k.x.dst.toNat → w.pMask n = k.w.pMask n) ∧
    (w.fpflags = (k.w.fpflags ||| raisedBy k fun l => (f l).2) % 32 ∨
      (w.fpflags = k.w.fpflags ∧ (raisedBy k fun l => (f l).2) = 0)) ∧
    w = { k.w with p := w.p, fpflags := w.fpflags } := by
  by_cases u : k.x.uni = true
  · by_cases pf : k.performs = true
    · obtain ⟨j, hj⟩ : ∃ l, lowLane k.path = some l := by
        revert pf; unfold VCtx.performs; cases lowLane k.path <;> simp
      have e : predResult k f = (k.w.pSetMask k.x.dst.toNat (if (f j).1 then BitVec.allOnes 32 else 0)).orFp (f j).2 := by
        simp [predResult, u, pf, hj]
      refine ⟨?_, ?_, ?_, ?_⟩
      · intro l hl
        simp only [e, u, if_true, pf, hj, Warp.pGet]
        rw [pMask_setPad k.w k.x.dst.toNat _ _ _ rfl _ rfl]
        rw [if_pos ⟨rfl, hd⟩]
        cases (f j).1
        · exact laneIn_zero l
        · exact laneIn_allOnes hl
      · intro n hn
        rw [e, pMask_setPad k.w k.x.dst.toNat _ _ _ rfl _ rfl, if_neg (by simp [hn])]
      · left; simp [e, raisedBy, u, pf, hj, Warp.orFp, Warp.pSetMask]
      · simp only [e]; simp [Warp.orFp, Warp.pSetMask, hu]
    · refine ⟨?_, ?_, ?_, ?_⟩
      · intro l hl; simp [predResult, u, pf]
      · intro n _; simp [predResult, u, pf]
      · right; simp [predResult, u, pf, raisedBy]
      · simp [predResult, u, pf]
  · have e : predResult k f = (k.w.pSetLanes k.x.dst.toNat k.exec (maskOf fun l => (f l).1)).orFp
        (laneFlags k.act fun l => (f l).2) := by simp [predResult, u]
    have hm : k.w.pMask k.x.dst.toNat = k.w.p.getD k.x.dst.toNat 0 := by simp [Warp.pMask, hd]
    refine ⟨?_, ?_, ?_, ?_⟩
    · intro l hl
      rw [e]
      simp only [u, Bool.false_eq_true, if_false, Warp.pGet]
      rw [pMask_setPad k.w k.x.dst.toNat _ _ _ rfl _ rfl, if_pos ⟨rfl, hd⟩, laneIn_or, laneIn_and, laneIn_and, laneIn_not _ hl,
        laneIn_maskOf _ hl, hm]
      cases laneIn k.exec l <;> simp
    · intro n hn
      rw [e, pMask_setPad k.w k.x.dst.toNat _ _ _ rfl _ rfl, if_neg (by simp [hn])]
    · left; simp [e, raisedBy, u, Warp.orFp, Warp.pSetLanes]
    · simp only [e]; simp [Warp.orFp, Warp.pSetLanes]

/-- A predicate destination of a word that passes its checks names p0 to p6 (R228). -/
theorem Issues.pdst {s : State} {opc : Nat} {x : VWord} {k : VCtx} (h : Issues s opc x k)
    (hf : (vFields opc x).head? = some .pdst) : k.x.dst.toNat < 7 := by
  have hl := h.legal
  rw [h.x]
  unfold vEnc at hl
  have hr : vRegOk opc x = true := by
    revert hl
    repeat' split
    all_goals simp_all
  unfold vRegOk at hr
  cases hv : vFields opc x with
  | nil => simp [hv] at hf
  | cons a t =>
    rw [hv] at hf hr
    simp only [List.head?_cons, Option.some.injEq] at hf
    subst hf
    simp only [VWord.vals, List.zip_cons_cons, List.all_cons, Fk.ok, Bool.and_eq_true, decide_eq_true_eq] at hr
    omega

/-- A word that ends with a predicate result: everything it does. -/
theorem predDone_wrote {s : State} {opc : Nat} {x : VWord} {k : VCtx} (h : Issues s opc x k) (f : Nat → Bool × Nat)
    (hf : (vFields opc x).head? = some .pdst) : WrotePred s (vDone s k (predResult k f)) k f := by
  obtain ⟨h1, h2, h3, h4⟩ := predResult_spec k f h.soundU (h.pdst hf)
  have hpc : (predResult k f).pc = k.w.pc := by rw [h4]
  obtain ⟨o, w', e1, e2, e3⟩ := vDone_spec s k (predResult k f) hpc
  refine ⟨o, w', e1, e2, ?_, ?_, ?_, ?_⟩
  · intro l hl
    refine Eq.trans ?_ (h1 l hl)
    rw [e3]; rfl
  · intro n hn
    rw [← h2 n hn, e3]; rfl
  · rw [e3]; exact h3
  · rw [e3, h4]

/-- A word that writes a predicate: everything it does. -/
theorem runPred_wrote {s : State} {opc : Nat} {x : VWord} {k : VCtx} (h : Issues s opc x k) (f : VCtx → Nat → Bool × Nat)
    (hf : (vFields opc x).head? = some .pdst) : ∃ t, runPred s opc x f = .next t ∧ WrotePred s t k (f k) :=
  ⟨vDone s k (predResult k (f k)), by simp [runPred, h.go], predDone_wrote h (f k) hf⟩

/-- A word whose meaning is a register result, the result given in other words. -/
theorem WordWrites.of_runReg {mk : VWord → Instr} {opc n : Nat} {f : VCtx → LaneFn} {g : VWord → VCtx → LaneFn}
  (he : ∀ x s, exec (mk x) s = runReg s opc x (g x)) (hg : ∀ k l, (g k.x k l) = f k l) (hn : ∀ k l, (f k l).1.length = n) :
  WordWrites mk opc n f := by
  intro s x k h
  have e : ∀ l, g x k l = f k l := fun l => by rw [← hg, h.x]
  obtain ⟨t, h1, h2⟩ := runReg_wrote h (g x) n (fun l => by rw [e]; exact hn k l)
  refine ⟨t, by rw [he, h1], ?_⟩
  have : g x k = f k := funext e
  rw [this] at h2; exact h2

/-- A word whose meaning is a predicate result, the result given in other words. -/
theorem WordTests.of_runPred {mk : VWord → Instr} {opc : Nat} {f : VCtx → Nat → Bool × Nat} {g : VWord → VCtx → Nat → Bool × Nat}
  (he : ∀ x s, exec (mk x) s = runPred s opc x (g x)) (hg : ∀ k l, (g k.x k l) = f k l) (hf : ∀ x, (vFields opc x).head? = some .pdst) :
  WordTests mk opc f := by
  intro s x k h
  have e : ∀ l, g x k l = f k l := fun l => by rw [← hg, h.x]
  obtain ⟨t, h1, h2⟩ := runPred_wrote h (g x) (hf x)
  refine ⟨t, by rw [he, h1], ?_⟩
  have : g x k = f k := funext e
  rw [this] at h2; exact h2

end Sys2Proof.Machine
end

