-- ==== Sys2Proof/Tests/Slice0.lean ====
section
/-! SUPPORT. Tests: ill-formed terms that each check refuses, words of every family decoded, worked examples of the spec, and for
each statement states and operands that meet its hypotheses. -/

open Sys2Proof Sys2Proof.Machine

namespace Sys2Proof.Tests

set_option Elab.async false

/-! ## Builders -/

/-- A vision word of an opcode, unguarded. -/
def vw (u dst a b c m : Nat) : VWord :=
  { guard := 7, u := BitVec.ofNat 1 u, dst := BitVec.ofNat 9 dst, srcA := BitVec.ofNat 9 a, srcB := BitVec.ofNat 9 b,
    srcC := BitVec.ofNat 9 c, mod := BitVec.ofNat 13 m }

/-- A warp of card 0 in a clause of one word, on vision core 0. -/
def vst (f : Warp → Warp) : State :=
  let s := placeVision State.reset 0
  { s with warps := s.warps.map fun e => (e.1, f e.2), focus := .warp 0 }

def warp0 (s : State) : Warp := (s.warps.find 0).getD (placedWarp s)
def clause0 (s : State) : Clause :=
  (warp0 s).clause.getD { at_ := zeroAddr, hdr := 0, next := 0, lanes := 0, doneLanes := 0 }
def vk (s : State) (opc : Nat) (x : VWord) : VCtx := vCtx 0 (warp0 s) (0, 0) (clause0 s) opc x

/-- Whether warp 0 of a state issues a word. -/
def issuesB (s : State) (opc : Nat) (x : VWord) : Bool :=
  let w := warp0 s
  let c := clause0 s
  decide ((s.focus = .warp 0 ∧ s.warps.find 0 = some w ∧ w.place = some (0, 0) ∧ w.clause = some c) ∧
    (w.st = .ready ∧ w.hold = none ∧ vEnc opc x (allot w) (vk s opc x).last = none) ∧
    hazard s 0 opc x = false ∧ flagFull w c opc x = false ∧ w.badV = [] ∧ w.badU = [])

theorem issues_of {s : State} {opc : Nat} {x : VWord} (h : issuesB s opc x = true) : Issues s opc x (vk s opc x) := by
  have ⟨a, b, c⟩ := of_decide_eq_true h
  exact { agent := a.1, found := a.2.1, placed := a.2.2.1, inside := a.2.2.2, ready := b.1, free := b.2.1, legal := b.2.2,
          clear := c.1, room := c.2.1, soundV := c.2.2.1, soundU := c.2.2.2, masks := rfl }

/-! ## Witnesses: vision words

Each theorem names the statement, or the part of one, whose hypotheses its states and operands meet. -/

def V : State := vst id

/-- A word of each opcode that writes registers or predicates, or goes on, under no condition but that it issues. -/
def plainWords : List (Nat × VWord) :=
  [(0x000, vw 0 8 2 4 448 0), (0x001, vw 1 259 259 449 448 0), (0x002, vw 0 8 2 4 448 0x80), (0x003, vw 0 8 2 4 448 0),
   (0x004, vw 0 8 2 4 6 0), (0x005, vw 0 8 2 4 448 0), (0x006, vw 0 8 2 4 448 0), (0x007, vw 0 8 2 448 448 0),
   (0x008, vw 0 8 2 448 448 0), (0x009, vw 0 8 2 4 448 0), (0x00B, vw 0 8 2 4 6 0), (0x066, vw 0 255 2 448 448 0),
   (0x062, vw 0 8 2 448 448 0x280), (0x065, vw 0 8 2 4 6 0), (0x068, vw 0 8 0 448 448 0)] ++
  [(0x020, vw 0 8 2 4 448 0), (0x021, vw 0 8 2 4 448 0), (0x022, vw 0 8 2 4 448 0), (0x023, vw 0 8 2 448 448 0),
   (0x024, vw 0 8 2 4 448 0), (0x025, vw 0 8 2 4 448 0), (0x026, vw 0 8 2 4 448 0), (0x027, vw 0 8 2 4 448 0),
   (0x028, vw 0 8 2 4 6 0), (0x029, vw 0 8 2 448 448 0), (0x02A, vw 0 8 2 448 448 0), (0x02B, vw 0 8 2 448 448 0)] ++
  [(0x040, vw 0 8 2 4 448 0x100), (0x041, vw 0 8 2 4 448 0x100), (0x042, vw 0 8 2 4 448 0x100), (0x043, vw 0 8 2 4 6 0x100),
   (0x044, vw 0 8 2 4 448 0x100), (0x045, vw 0 8 2 4 448 0x100), (0x047, vw 0 8 2 448 448 0x100), (0x048, vw 0 8 2 448 448 0x100),
   (0x049, vw 0 8 2 448 448 0x100), (0x04A, vw 0 8 2 448 448 0x100), (0x04B, vw 0 8 2 448 448 0x100),
   (0x04C, vw 0 8 2 448 448 0x100), (0x04D, vw 0 8 2 448 448 0x100), (0x04E, vw 0 8 2 448 448 0x100)] ++
  [(0x061, vw 0 8 2 4 448 0x280), (0x063, vw 0 8 2 4 6 0x300), (0x064, vw 0 8 2 4 6 0x380), (0x00A, vw 0 2 2 4 448 0),
   (0x046, vw 0 2 2 4 448 0x100), (0x067, vw 0 2 2 4 448 0), (0x080, vw 0 8 2 448 448 0), (0x080, vw 0 8 2 448 448 0x38),
   (0x081, vw 0 8 2 4 448 0), (0x083, vw 0 8 2 448 448 0), (0x084, vw 0 8 2 448 448 0), (0x085, vw 0 8 2 448 448 0),
   (0x0C3, vw 0 8 448 448 448 0), (0x0A9, vw 0 448 448 448 448 0), (0x121, vw 0 448 448 448 448 0)]

theorem witness_plainWords : ∀ e ∈ plainWords, ∃ s k, Issues s e.1 e.2 k := by
  have h : ∀ e ∈ plainWords, issuesB V e.1 e.2 = true := by decide +kernel
  exact fun e he => ⟨V, _, issues_of (h e he)⟩

theorem witness_PackedElements : (vw 0 8 2 4 448 0x400).sat = true ∧ (vw 0 8 2 4 448 0x400).typ ∈ [0, 1, 5, 6, 7] ∧
    (vw 0 8 2 4 448 0x380).sat = false ∧ (vw 0 8 2 4 448 0x380).typ ∈ [0, 1, 5, 6, 7] := by decide

/-- CVT of ordinary codes, and from an SX16 code with E = 255. -/
theorem witness_ConvertWords :
    (∃ s x k, Issues s 0x060 x k ∧ cvtBadLane k = none) ∧ (∃ s x k, Issues s 0x060 x k ∧ cvtBadLane k = some 0) := by
  let a := vw 0 8 2 448 448 0x100
  let b := vw 0 8 2 448 448 0x109
  let t := vst fun w => { w with v := (List.range 32).map fun l => (vKey 2 l, 0xFFFF) }
  exact ⟨⟨V, a, _, issues_of (by decide +kernel), by decide +kernel⟩, ⟨t, b, _, issues_of (by decide +kernel), by decide +kernel⟩⟩

theorem witness_PredicateWords :
    (∃ s x k, Issues s 0x069 x k ∧ x.uni = false) ∧ (∃ s x k, Issues s 0x069 x k ∧ x.uni = true) :=
  ⟨⟨V, vw 0 2 2 448 448 0, _, issues_of (by decide +kernel), by decide⟩,
   ⟨V, vw 1 2 258 448 448 0, _, issues_of (by decide +kernel), by decide⟩⟩

theorem witness_CollectiveWords :
    (∃ s x k, Issues s 0x082 x k ∧ x.subX = 2) ∧ (∃ s x k, Issues s 0x082 x k ∧ x.subX < 2) ∧
    (∃ s x k, Issues s 0x086 x k ∧ x.uni = true) ∧ (∃ s x k, Issues s 0x086 x k ∧ x.uni = false) :=
  ⟨⟨V, vw 1 258 2 448 448 0x1410, _, issues_of (by decide +kernel), by decide⟩,
   ⟨V, vw 0 2 2 448 448 0x1408, _, issues_of (by decide +kernel), by decide⟩,
   ⟨V, vw 1 258 2 448 448 0x1400, _, issues_of (by decide +kernel), by decide⟩,
   ⟨V, vw 0 2 448 448 448 0, _, issues_of (by decide +kernel), by decide⟩⟩

/-- An operation of warp 0 in flight, without sectors. -/
def pend (k : OpKind) : PendOp :=
  { wid := 0, core := 0, ctx := { card := 0, gen := 0 }, kind := k, dst := .discard, flag := none, lanes := [], got := [],
    answers := [], order := [], wct := 0, issue := 0, result := [], back := none }

theorem witness_SpecialRegisterWords :
    (∃ s x k, Issues s 0x0C4 x k ∧ (x.srn = 0x15 → faddPending s k.wid = false)) ∧
    (∃ s x k, Issues s 0x0C4 x k ∧ x.srn = 0x15 ∧ faddPending s k.wid = true) := by
  let x := vw 1 448 258 448 448 0x2A0
  let t := { V with ops := [(7, pend (.atom .fadd false 4 false false [] []))] }
  exact ⟨⟨V, x, _, issues_of (by decide +kernel), by decide +kernel⟩,
    ⟨t, x, _, issues_of (by decide +kernel), by decide, by decide⟩⟩

/-- The overlay address of the header of V's clause. -/
def here : OvAddr := (clause0 V).at_

/-- V with the address of its header in s4 and s5, at call depth 1. -/
def VT : State := vst fun w => { w with s := [(4, 0), (5, here.tok)], depth := List.replicate 32 1 }

theorem lands_here {k : VCtx} {a : OvAddr} (h : k.core = 0 ∧ k.w.card = 0 ∧ k.w.gen = 0 ∧ a = here) : Lands VT k a here := by
  obtain ⟨h1, h2, h3, h4⟩ := h
  refine ⟨by rw [h4]; decide +kernel, placedOvl V, by decide +kernel, by rw [h4]; decide +kernel, ?_, .inl ?_⟩
  · rw [h1, h4]; decide +kernel
  · rw [h1, h2, h3, h4]; decide +kernel

/-- BRA, BRX, CALL, RET and OCALL whose lanes all land on that header. -/
theorem witness_TransferWords : ∃ s, ∃ b : Nat → OvAddr,
    (∃ x k, Issues s 0x0A0 x k ∧
      ∀ l, l < 32 → laneIn k.exec l → Lands s k { tok := k.c.at_.tok, off := 8 * x.mod.toNat } (b l)) ∧
    (∃ x k, Issues s 0x0A1 x k ∧ ∀ l, l < 32 → laneIn k.exec l →
      (k.a l).toNat < 2 ^ 16 ∧ Lands s k { tok := k.c.at_.tok, off := (k.a l).toNat } (b l)) ∧
    (∃ x k, Issues s 0x0A2 x k ∧ ∀ l, l < 32 → laneIn k.exec l →
      k.w.depth.getD l 0 < 255 ∧ Lands s k { tok := k.c.at_.tok, off := 8 * x.mod.toNat } (b l)) ∧
    (∃ x k, Issues s 0x0A3 x k ∧ ∀ l, l < 32 → laneIn k.exec l →
      0 < k.w.depth.getD l 0 ∧ k.w.depth.getD l 0 ≤ 255 ∧ Lands s k (ovAddr (k.a64 l)) (b l)) ∧
    (∃ x k, Issues s 0x0A4 x k ∧ x.dst.toNat ≠ 448 ∧
      ∀ l, l < 32 → laneIn k.exec l → k.w.depth.getD l 0 < 255 ∧ Lands s k (ovAddr (k.a64 l)) (b l)) ∧
    ∃ x k, Issues s 0x0A4 x k ∧ x.dst.toNat = 448 ∧ ∀ l, l < 32 → laneIn k.exec l → Lands s k (ovAddr (k.a64 l)) (b l) := by
  refine ⟨VT, fun _ => here, ⟨vw 0 448 448 448 448 0, _, issues_of (by decide +kernel), fun l _ _ => lands_here (by decide +kernel)⟩,
    ⟨vw 0 448 260 448 448 0, _, issues_of (by decide +kernel), fun l h _ => ?_⟩,
    ⟨vw 0 8 448 448 448 0, _, issues_of (by decide +kernel), fun l h _ => ⟨?_, lands_here (by decide +kernel)⟩⟩,
    ⟨vw 0 448 260 448 448 0, _, issues_of (by decide +kernel), fun l h _ => ?_⟩,
    ⟨vw 0 8 260 448 448 0, _, issues_of (by decide +kernel), by decide, fun l h _ => ?_⟩,
    ⟨vw 0 448 260 448 448 0, _, issues_of (by decide +kernel), by decide, fun l h _ => lands_here ?_⟩⟩
  · have e := (by decide +kernel : ∀ l, l < 32 → ((vk VT 0x0A1 (vw 0 448 260 448 448 0)).a l).toNat = 0) l h
    exact ⟨by omega, lands_here ⟨rfl, rfl, rfl, congrArg (OvAddr.mk here.tok) e⟩⟩
  · exact (by decide +kernel : ∀ l, l < 32 → (vk VT 0x0A2 (vw 0 8 448 448 448 0)).w.depth.getD l 0 < 255) l h
  · exact ⟨(by decide +kernel : ∀ l, l < 32 → 0 < (vk VT 0x0A3 (vw 0 448 260 448 448 0)).w.depth.getD l 0) l h,
      (by decide +kernel : ∀ l, l < 32 → (vk VT 0x0A3 (vw 0 448 260 448 448 0)).w.depth.getD l 0 ≤ 255) l h,
      lands_here ⟨rfl, rfl, rfl, (by decide +kernel : ∀ l, l < 32 → ovAddr ((vk VT 0x0A3 (vw 0 448 260 448 448 0)).a64 l) = here) l h⟩⟩
  · exact ⟨(by decide +kernel : ∀ l, l < 32 → (vk VT 0x0A4 (vw 0 8 260 448 448 0)).w.depth.getD l 0 < 255) l h,
      lands_here ⟨rfl, rfl, rfl, (by decide +kernel : ∀ l, l < 32 → ovAddr ((vk VT 0x0A4 (vw 0 8 260 448 448 0)).a64 l) = here) l h⟩⟩
  · exact ⟨rfl, rfl, rfl, (by decide +kernel : ∀ l, l < 32 → ovAddr ((vk VT 0x0A4 (vw 0 448 260 448 448 0)).a64 l) = here) l h⟩

theorem witness_CallDepthTraps :
    (∃ s x k, Issues s 0x0A2 x k ∧ (lanesOf k.exec).find? (fun i => decide (k.w.depth.getD i 0 = 255)) = some 31) ∧
    (∃ s x k, Issues s 0x0A3 x k ∧ (lanesOf k.exec).find? (fun i => decide (k.w.depth.getD i 0 = 0)) = some 0) :=
  ⟨⟨vst fun w => { w with depth := List.replicate 31 0 ++ [255] }, vw 0 8 448 448 448 0, _, issues_of (by decide +kernel),
    by decide +kernel⟩, ⟨V, vw 0 448 260 448 448 0, _, issues_of (by decide +kernel), by decide +kernel⟩⟩

/-! ### Waits, EXIT, traps, clauses and overlays -/

/-- A team of one block of warp 0, with 4 KiB of scratchpad. -/
def blk0 : Block :=
  { card := 0, gen := 0, team := 0, kind := .grid, linear := 0, coord := (0, 0, 0), warps := [0], cores := [0], spm := 4096, mem := [],
    poison := [] }

def team0 : Team :=
  { card := 0, gen := 0, owner := 0, phase := 0, blocks := [0], nodes := { cores := [], dies := [] } }

/-- A readable and writable page: of one unit of a die, virtual page 0, at 0x1000. -/
def page0 (die unit : Nat) : TlbEnt := { die := die, unit := unit, asid := 0, vpn := 0, level := 0, pte := 0x4DF }

/-- A warp with a block, a team, and virtual page 0 mapped. -/
def vmst (f : Warp → Warp) : State :=
  let s := vst f
  { s with ms := { s.ms with tlb := [page0 0 0] }, ddx := { s.ddx with blocks := [(0, blk0)], teams := [(0, team0)] } }

def VM : State := vmst id

theorem witness_WaitingWords :
    (∃ s x k, Issues s 0x0A5 x k ∧ laneIn (k.a 0) 31 = true ∧ k.w.isLive 31 = true ∧ laneIn k.exec 31 = false ∧
      laneGet .none k.w.wait 31 = .none) ∧
    (∃ s x k, Issues s 0x0A5 x k ∧ (k.a 0).toNat = 2 ^ 32 - 1 ∧ (∀ j, j < 32 → laneIn k.exec j = true) ∧
      ∀ i < 32, ∀ j < 32, k.w.depth.getD i 0 = k.w.depth.getD j 0) ∧
    (∃ s x k, Issues s 0x0A7 x k ∧ (k.a 0).toNat ≠ 0) ∧ (∃ s x k, Issues s 0x0A7 x k ∧ (k.a 0).toNat = 0) ∧
    (∃ s x k, Issues s 0x0A8 x k ∧ (k.a 0).toNat % 2 ^ 12 = 4095 ∧ k.w.flagsClear ((k.a 0).toNat % 2 ^ 12) = true) ∧
    (∃ s x k, Issues s 0x0A8 x k ∧ k.w.flagsClear ((k.a 0).toNat % 2 ^ 12) = false) ∧
    (∃ s x k, Issues s 0x125 x k ∧ k.act ≠ 0 ∧ ((warpTeam s k.w).map fun p => p.2.phase).getD 0 = (k.a 0).toNat % 65536) := by
  let all := vmst fun w => { w with s := [(2, 0xFFFFFFFF)] }
  let half := vmst fun w => { w with s := [(2, 0xFFFFFFFF)], clause := w.clause.map fun c => { c with lanes := 0x0000FFFF } }
  let flag := vmst fun w => { w with s := [(2, 0x800)], flags := List.replicate 11 (0, 0) ++ [(1, 0)] }
  exact ⟨⟨half, vw 0 448 258 448 448 0, _, issues_of (by decide +kernel), by decide +kernel, by decide +kernel, by decide +kernel, by decide +kernel⟩,
    ⟨all, vw 0 448 258 448 448 0, _, issues_of (by decide +kernel), by decide +kernel, by decide +kernel, by decide +kernel⟩,
    ⟨all, vw 0 448 258 448 448 0, _, issues_of (by decide +kernel), by decide +kernel⟩,
    ⟨all, vw 0 448 448 448 448 0, _, issues_of (by decide +kernel), by decide +kernel⟩,
    ⟨all, vw 0 448 258 448 448 0, _, issues_of (by decide +kernel), by decide +kernel, by decide +kernel⟩,
    ⟨flag, vw 0 448 258 448 448 0, _, issues_of (by decide +kernel), by decide +kernel⟩,
    ⟨all, vw 0 448 448 448 448 0, _, issues_of (by decide +kernel), by decide +kernel, by decide +kernel⟩⟩

theorem witness_ExitWord :
    (∃ s x k, Issues s 0x0A6 x k ∧ k.w.nonHelper &&& ~~~k.exec ≠ 0) ∧
    (∃ s x k, Issues s 0x0A6 x k ∧ k.w.nonHelper &&& ~~~k.exec = 0 ∧ k.w.held = false ∧ k.w.flagsClear 0xFFF = true ∧
      (∀ q ∈ s.ms.reqs, q.agent ≠ .warp k.wid) ∧ (∀ e ∈ s.ops, e.2.wid ≠ k.wid)) := by
  let half := vmst fun w => { w with clause := w.clause.map fun c => { c with lanes := 0x0000FFFF } }
  exact ⟨⟨half, vw 0 448 448 448 448 0, _, issues_of (by decide +kernel), by decide +kernel⟩,
    ⟨VM, vw 0 448 448 448 448 0, _, issues_of (by decide +kernel), by decide +kernel, by decide +kernel, by decide +kernel,
      by decide +kernel, by decide +kernel⟩⟩

theorem witness_TrapWords : ∀ o ∈ [0x0C5, 0x0C6, 0x0C7],
    (∃ s x k, Issues s o x k ∧ lowLane k.act = some 0) ∧ (∃ s x k, Issues s o x k ∧ k.act = 0) := by
  let x := vw 0 448 448 448 448 0
  let y := { x with guard := 0 }
  have h : ∀ o ∈ [0x0C5, 0x0C6, 0x0C7], issuesB V o x = true ∧ lowLane (vk V o x).act = some 0 ∧
      issuesB V o y = true ∧ (vk V o y).act = 0 := by decide +kernel
  exact fun o ho => ⟨⟨V, x, _, issues_of (h o ho).1, (h o ho).2.1⟩, ⟨V, y, _, issues_of (h o ho).2.2.1, (h o ho).2.2.2⟩⟩

theorem witness_WarpTrapEntry : ∃ (s : State) (wid : Nat) (w : Warp) (k : Clause), s.warps.find wid = some w ∧ w.clause = some k ∧ k.next = 1 :=
  ⟨V, 0, warp0 V, clause0 V, by decide +kernel, by decide +kernel, by decide +kernel⟩

/-- An IADD with GUARD 0b1111. -/
theorem witness_IllegalWordsTrap : ∃ (v : DWord) (i : Instr) (s : State) (w : Warp) (p : Nat × Nat) (c : Clause), decodeVision v = .ok i ∧ s.focus = .warp 0 ∧ s.warps.find 0 = some w ∧
    w.place = some p ∧ w.clause = some c ∧ w.st = .ready ∧ w.hold = none ∧
    vEnc (vOpcode v) (vFieldsOf v) (allot w) (decide (c.next = hdrLen c.hdr)) = some 3 :=
  ⟨0x003C04027FF80000, .iadd (vFieldsOf 0x003C04027FF80000), V, warp0 V, (0, 0), clause0 V, rfl, by decide +kernel, by decide +kernel,
    by decide +kernel, by decide +kernel, by decide +kernel, by decide +kernel, by decide +kernel⟩

/-- A warp at the header of its clause. -/
def VH (f : Warp → Warp) : State := vmst fun w => f { w with clause := none }

theorem witness_ClauseBegins :
    (∃ (s : State) (w : Warp) (p : Nat × Nat), s.focus = .warp 0 ∧ s.warps.find 0 = some w ∧ w.place = some p ∧ w.st = .ready ∧ w.hold = none ∧ w.clause = none ∧
      w.isLive w.rot = true ∧ hdrOk 0xC0000FF600000000 = false ∧ hdrOk 0xC1000FF600000000 = true ∧
      clauseFits s p.1 w (laneGet zeroAddr w.pc w.rot) (hdrLen 0xC1000FF600000000) = true ∧
      w.flagsClear (hdrWait 0xC1000FF600000000) = true) ∧
    (∃ (s : State) (w : Warp) (p : Nat × Nat), s.warps.find 0 = some w ∧ w.place = some p ∧ w.clause = none ∧ w.isLive w.rot = true ∧
      w.flagsClear (hdrWait 0xC1800FF600000000) = false ∧
      clauseFits s p.1 w (laneGet zeroAddr w.pc w.rot) (hdrLen 0xC1800FF600000000) = true) ∧
    (∃ (s : State) (w : Warp) (p : Nat × Nat), s.warps.find 0 = some w ∧ w.place = some p ∧ w.clause = none ∧ w.isLive w.rot = true ∧
      clauseFits s p.1 w (laneGet zeroAddr w.pc w.rot) (hdrLen 0xC1000FF600000000) = false) := by
  let flag := VH fun w => { w with flags := List.replicate 11 (0, 0) ++ [(1, 0)] }
  let edge := VH fun w => { w with pc := w.pc.map fun a => { a with off := 4096 - 8 } }
  exact ⟨⟨VH id, warp0 (VH id), (0, 0), by decide +kernel, by decide +kernel, by decide +kernel, by decide +kernel, by decide +kernel,
      by decide +kernel, by decide +kernel, by decide, by decide, by decide +kernel, by decide +kernel⟩,
    ⟨flag, warp0 flag, (0, 0), by decide +kernel, by decide +kernel, by decide +kernel, by decide +kernel, by decide +kernel, by decide +kernel⟩,
    ⟨edge, warp0 edge, (0, 0), by decide +kernel, by decide +kernel, by decide +kernel, by decide +kernel, by decide +kernel⟩⟩

/-- A table of two vision overlays of one page, in virtual page 0 at 0x1800; s0 to s2 hold 1, 2 and 1. -/
def VO : State :=
  let m := Mem.writeN [] 0x1800 (wordsBytes [0x000000014F564C54, 2, 0, 0, 0, 0x20, 0, 0, 0x1000, 0x20, 0, 0])
  let s := vmst fun w => { w with s := [(0, 1), (1, 2), (2, 1)] }
  { s with ms := { s.ms with mem := m }, ddx := { s.ddx with rel := [(0, { placedRel with hdr := [0, 0, 0, 0, 0x800, 0, 0, 0] })] } }

def ovOut : OvE × State → Bool
  | (.wait, _) => false
  | _ => true

def isLater : Explicit × State → Bool
  | (.later _, _) => true
  | _ => false

def isNow : Explicit × State → Bool
  | (.now _ _, _) => true
  | _ => false

theorem witness_OverlayWords :
    (∃ s x k, Issues s 0x0C2 x k ∧ k.performs = true) ∧
    (∃ s x k, Issues s 0x0C0 x k ∧ k.performs = true ∧
      let i := issueOp s k (.ovld k.core (k.b 0).toNat) [] []
      isNow (explicitLoad i.2 k.core k.w.card ((k.a 0).toNat % 2 ^ 12) (k.b 0).toNat (some i.1) false) = true) ∧
    (∃ s x k, Issues s 0x0C0 x k ∧ k.performs = true ∧
      let i := issueOp s k (.ovld k.core (k.b 0).toNat) [] []
      isLater (explicitLoad i.2 k.core k.w.card ((k.a 0).toNat % 2 ^ 12) (k.b 0).toNat (some i.1) false) = true) ∧
    (∃ s x k, Issues s 0x0C1 x k ∧ k.performs = true ∧ ovOut (ovEntry s k.core k.w.card ((k.a 0).toNat % 2 ^ 12)) = true) ∧
    (∀ e ∈ [(0x0C0, vw 1 262 256 256 448 0), (0x0C1, vw 1 262 256 448 448 0), (0x0C2, vw 1 448 256 448 448 0)],
      ∃ s k, Issues s e.1 { e.2 with guard := 0 } k ∧ k.performs = false) := by
  have h : ∀ e ∈ [(0x0C0, vw 1 262 256 256 448 0), (0x0C1, vw 1 262 256 448 448 0), (0x0C2, vw 1 448 256 448 448 0)],
      issuesB V e.1 { e.2 with guard := 0 } = true ∧ (vk V e.1 { e.2 with guard := 0 }).performs = false := by decide +kernel
  exact ⟨⟨V, vw 1 448 256 448 448 0, _, issues_of (by decide +kernel), by decide +kernel⟩,
    ⟨VO, vw 1 262 256 256 448 0, _, issues_of (by decide +kernel), by decide +kernel, by decide +kernel⟩,
    ⟨VO, vw 1 262 257 258 448 0, _, issues_of (by decide +kernel), by decide +kernel, by decide +kernel⟩,
    ⟨VO, vw 1 262 257 448 448 0, _, issues_of (by decide +kernel), by decide +kernel, by decide +kernel⟩,
    fun e he => ⟨V, _, issues_of (h e he).1, (h e he).2⟩⟩

/-! ### Memory and synchronization -/

def accB : AccRes × State → Bool
  | (.ok _, _) => true
  | _ => false

def acc1B : AccRes × State → Bool
  | (.ok (_ :: _), _) => true
  | _ => false

def accTrapB : AccRes × State → Bool
  | (.trap _, _) => true
  | _ => false

/-- The address checks of a load. -/
def ldAddrs (s : State) (x : VWord) (k : VCtx) : AccRes × State :=
  let spm := decide (x.space = 1)
  laneAddrs s k spm (if spm then min (2 ^ x.size) 4 else 2 ^ x.size) (2 ^ x.size) x.size .read (!x.uni)
    (fun l => if spm then (k.a l + k.b l).toNat else (k.a64 l + (k.b l).signExtend 64).toNat) (if x.uni then [0] else lanesOf k.exec)

/-- A page that is mapped, the last bytes of the scratchpad, an odd address, and one past the end. -/
theorem witness_LaneAddressChecks : ∃ s : State, ∃ k : VCtx,
    (translate s (cSpace s k) 4095 .read).1 = .ok 8191 ∧ spmSize s k.w = 4096 ∧ (4095 % 1 = 0 ∧ 4095 + 1 ≤ 4096) ∧
    (4096 % 1 = 0 ∧ 4096 < 4096 + 1) ∧ 4093 % 4 ≠ 0 :=
  ⟨VM, vk VM 0x100 (vw 0 8 448 448 448 0x42), by decide +kernel, by decide +kernel, by decide, by decide, by decide⟩

theorem witness_LoadWord :
    (∃ s x k, Issues s 0x100 x k ∧ x.uni = true ∧ k.performs = false) ∧
    (∃ s x k, Issues s 0x100 x k ∧ x.uni = true ∧ k.performs = true ∧ accB (ldAddrs s x k) = true) ∧
    (∃ s x k, Issues s 0x100 x k ∧ x.uni = false ∧ x.space = 1 ∧ accB (ldAddrs s x k) = true ∧ (warpBlock s k.w).isSome = true) ∧
    (∃ s x k, Issues s 0x100 x k ∧ x.uni = false ∧ x.space ≠ 1 ∧ accTrapB (ldAddrs s x k) = true) := by
  let g := vw 1 260 448 448 448 0x40
  let odd := vmst fun w => { w with v := [(vKey 2 31, 3)] }
  exact ⟨⟨VM, { g with guard := 0 }, _, issues_of (by decide +kernel), by decide, by decide +kernel⟩,
    ⟨VM, g, _, issues_of (by decide +kernel), by decide, by decide +kernel, by decide +kernel⟩,
    ⟨VM, vw 0 8 448 448 448 0x42, _, issues_of (by decide +kernel), by decide, by decide, by decide +kernel, by decide +kernel⟩,
    ⟨odd, vw 0 8 2 448 448 0x40, _, issues_of (by decide +kernel), by decide, by decide, by decide +kernel⟩⟩

def stAddrs (s : State) (x : VWord) (k : VCtx) : AccRes × State :=
  if x.space = 1 then
    laneAddrs s k true (min (2 ^ x.size) 4) (2 ^ x.size) x.size .write false (fun l => (k.a l + k.b l).toNat)
      (if x.uni then [0] else lanesOf k.act)
  else
    laneAddrs s k false (2 ^ x.size) (2 ^ x.size) x.size .write false (fun l => (k.a64 l + (k.b l).signExtend 64).toNat)
      (if x.uni then [0] else lanesOf k.act)

theorem witness_Stores :
    (∃ s x k, Issues s 0x101 x k ∧ x.space = 1 ∧ x.uni = false ∧ (warpBlock s k.w).isSome = true ∧ accB (stAddrs s x k) = true) ∧
    (∃ s x k, Issues s 0x101 x k ∧ x.space ≠ 1 ∧ x.uni = false ∧ x.ord = 2 ∧ fenceDone s k.wid k.w x.scope s.next = true ∧
      accB (stAddrs s x k) = true) ∧
    (∃ s x k, Issues s 0x101 x k ∧ x.space ≠ 1 ∧ x.uni = true ∧ k.performs = true ∧ accB (stAddrs s x k) = true) :=
  ⟨⟨VM, vw 0 448 2 448 6 0x42, _, issues_of (by decide +kernel), by decide, by decide, by decide +kernel, by decide +kernel⟩,
   ⟨VM, vw 0 448 2 448 6 0xE40, _, issues_of (by decide +kernel), by decide, by decide, by decide, by decide +kernel, by decide +kernel⟩,
   ⟨VM, vw 1 448 260 448 262 0x40, _, issues_of (by decide +kernel), by decide, by decide, by decide +kernel, by decide +kernel⟩⟩

def atAddrs (s : State) (x : VWord) (k : VCtx) (a : Acc) : AccRes × State :=
  laneAddrs s k (decide (x.space = 1)) (2 ^ x.size) (2 ^ x.size) x.size a false
    (fun l => if decide (x.space = 1) then (k.a l).toNat else (k.a64 l).toNat) (lanesOf k.act)

theorem witness_AtomicWords :
    (∀ e ∈ atomWords, ∃ s x k, Issues s e.2.1 x k ∧ x.space ≠ 1 ∧ accB (atAddrs s x k .rw) = true) ∧
    (∃ s x k, Issues s 0x110 x k ∧ x.space = 1 ∧ accB (atAddrs s x k .rw) = true) ∧
    (∃ s x k, Issues s 0x110 x k ∧ 2 ≤ x.ord ∧ fenceDone s k.wid k.w x.scope s.next = true ∧ accB (atAddrs s x k .rw) = true) ∧
    (∀ e ∈ fredWords, ∃ s x k, Issues s e.2.1 x k ∧ x.ord = 0 ∧ accB (atAddrs s x k .write) = true) := by
  have h : ∀ o ∈ [0x110, 0x111, 0x112, 0x113, 0x114, 0x115, 0x116, 0x117, 0x118],
      let x := vw 0 8 2 4 (if o = 0x117 then 6 else 448) 0x40
      issuesB VM o x = true ∧ x.space ≠ 1 ∧ accB (atAddrs VM x (vk VM o x) .rw) = true := by decide +kernel
  have g : ∀ o ∈ [0x119, 0x11A, 0x11B, 0x11C, 0x11D, 0x11E, 0x11F],
      let x := vw 0 448 2 4 448 0x40
      issuesB VM o x = true ∧ x.ord = 0 ∧ accB (atAddrs VM x (vk VM o x) .write) = true := by decide +kernel
  have m : ∀ e ∈ atomWords, e.2.1 ∈ [0x110, 0x111, 0x112, 0x113, 0x114, 0x115, 0x116, 0x117, 0x118] := by simp [atomWords]
  have n : ∀ e ∈ fredWords, e.2.1 ∈ [0x119, 0x11A, 0x11B, 0x11C, 0x11D, 0x11E, 0x11F] := by simp [fredWords]
  exact ⟨fun e he => ⟨VM, _, _, issues_of (h _ (m e he)).1, (h _ (m e he)).2⟩,
    ⟨VM, vw 0 8 2 4 448 0x42, _, issues_of (by decide +kernel), by decide, by decide +kernel⟩,
    ⟨VM, vw 0 8 2 4 448 0xE40, _, issues_of (by decide +kernel), by decide, by decide +kernel, by decide +kernel⟩,
    fun e he => ⟨VM, _, _, issues_of (g _ (n e he)).1, (g _ (n e he)).2⟩⟩

theorem witness_CopyAndFence :
    (∃ s x k, Issues s 0x102 x k ∧
      accB (laneAddrs s k false 16 16 4 (if x.space = 1 then .read else .write) false (fun l => (k.a64 l).toNat) (lanesOf k.act)) = true ∧
      accB (laneAddrs s k true 16 16 4 .read false (fun l => (k.b l).toNat) (lanesOf k.act)) = true) ∧
    (∃ s x k, Issues s 0x120 x k ∧ fenceDone s k.wid k.w x.scope s.next = true) ∧
    (∃ s x k, Issues s 0x120 x k ∧ k.exec ≠ 0 ∧ fenceDone s k.wid k.w x.scope s.next = false) := by
  let late := vmst fun w => { w with ch := 9 }
  exact ⟨⟨VM, vw 0 448 2 4 448 0x80, _, issues_of (by decide +kernel), by decide +kernel, by decide +kernel⟩,
    ⟨VM, vw 0 448 448 448 448 0xC00, _, issues_of (by decide +kernel), by decide +kernel⟩,
    ⟨late, vw 0 448 448 448 448 0xC00, _, issues_of (by decide +kernel), by decide +kernel, by decide +kernel⟩⟩

/-- The word of a phase barrier at phase 5 with 3 of 4 arrivals pending, in the scratchpad at 0 and in virtual page 0 at 0x1000; s0 to s3
hold 5, 3, 6 and 4. -/
def VP (n : Nat) : State :=
  let m := wordsBytes [BitVec.ofNat 64 (5 * 2 ^ 48 + 4 * 2 ^ 24 + n)]
  let s := vmst fun w => { w with s := [(0, 5), (1, 3), (2, 6), (3, 4)] }
  { s with ms := { s.ms with mem := Mem.writeN [] 0x1000 m },
           ddx := { s.ddx with blocks := [(0, { blk0 with mem := Mem.writeN [] 0 m })] } }

def pbIs (r : PbRead) (o : DWord) : Bool :=
  match r with
  | .val x false => decide (x = o)
  | _ => false

/-- The test of a PBWAIT on an object at phase 5 is made at its home and changes no warp. -/
def pbTestB (s : State) (k : VCtx) (x : VWord) (pa : Nat) : Bool :=
  let spm := decide (x.subS % 2 = 1)
  match pbHome (pbCheck s k .read).2 k.core k.w.card spm false pa with
  | (true, u) => decide (u.warps = s.warps) && pbIs (pbRead u k.wid k.w spm pa) (5 * 2 ^ 48 + 4 * 2 ^ 24 + 3)
  | _ => false

theorem witness_PhaseBarrierWords :
    (∃ s x k, Issues s 0x122 x k ∧ k.act ≠ 0 ∧ acc1B (pbCheck s k .write) = true ∧ x.subS % 2 = 1 ∧ (warpBlock s k.w).isSome = true ∧
      1 ≤ (k.b 0).toNat ∧ (k.b 0).toNat < 2 ^ 24) ∧
    (∃ s x k, Issues s 0x122 x k ∧ k.act ≠ 0 ∧ acc1B (pbCheck s k .write) = true ∧ x.subS % 2 = 0 ∧
      1 ≤ (k.b 0).toNat ∧ (k.b 0).toNat < 2 ^ 24) ∧
    (∃ s x k b, Issues s 0x123 x k ∧ k.act ≠ 0 ∧ acc1B (pbCheck s k .rw) = true ∧ x.subS % 2 = 1 ∧ warpBlock s k.w = some b ∧
      spmPoisoned b 0 8 = false ∧ fenceDone s k.wid k.w x.scope s.next = true ∧
      bits (b.mem.read64 0) 63 48 = (k.b 0).toNat % 65536 ∧ (k.cc 0).toNat = bits (b.mem.read64 0) 23 0 ∧ 1 ≤ (k.cc 0).toNat) ∧
    (∃ s x k b, Issues s 0x123 x k ∧ k.act ≠ 0 ∧ acc1B (pbCheck s k .rw) = true ∧ x.subS % 2 = 1 ∧ warpBlock s k.w = some b ∧
      bits (b.mem.read64 0) 63 48 = (k.b 0).toNat % 65536 ∧ (k.cc 0).toNat < bits (b.mem.read64 0) 23 0 ∧ 1 ≤ (k.cc 0).toNat) ∧
    (∃ s x k b, Issues s 0x123 x k ∧ x.subS % 2 = 1 ∧ warpBlock s k.w = some b ∧ acc1B (pbCheck s k .rw) = true ∧
      phaseOver (bits (b.mem.read64 0) 63 48) ((k.b 0).toNat % 65536) = true) ∧
    (∃ s x k b, Issues s 0x123 x k ∧ x.subS % 2 = 1 ∧ warpBlock s k.w = some b ∧ acc1B (pbCheck s k .rw) = true ∧
      phaseOver (bits (b.mem.read64 0) 63 48) ((k.b 0).toNat % 65536) = false ∧ bits (b.mem.read64 0) 63 48 ≠ (k.b 0).toNat % 65536) ∧
    (∃ s x k b, Issues s 0x123 x k ∧ x.subS % 2 = 1 ∧ warpBlock s k.w = some b ∧ acc1B (pbCheck s k .rw) = true ∧
      bits (b.mem.read64 0) 63 48 = (k.b 0).toNat % 65536 ∧ bits (b.mem.read64 0) 23 0 < (k.cc 0).toNat) ∧
    (∃ s x k, Issues s 0x124 x k ∧ k.act ≠ 0 ∧ acc1B (pbCheck s k .read) = true ∧ phaseOver 5 ((k.b 0).toNat % 65536) = true ∧
      x.subS % 2 = 0 ∧ pbTestB s k x 0x1000 = true) ∧
    (∃ s x k, Issues s 0x124 x k ∧ k.act ≠ 0 ∧ acc1B (pbCheck s k .read) = true ∧ phaseOver 5 ((k.b 0).toNat % 65536) = false ∧
      x.subS % 2 = 1 ∧ pbTestB s k x 0 = true) := by
  let S := VP 3
  exact ⟨⟨S, vw 0 448 448 257 448 2, _, issues_of (by decide +kernel), by decide +kernel, by decide +kernel, by decide, by decide +kernel, by decide +kernel, by decide +kernel⟩,
    ⟨S, vw 0 448 448 257 448 0, _, issues_of (by decide +kernel), by decide +kernel, by decide +kernel, by decide, by decide +kernel, by decide +kernel⟩,
    ⟨S, vw 0 448 448 256 257 0x402, _, _, issues_of (by decide +kernel), by decide +kernel, by decide +kernel, by decide, rfl, by decide +kernel, by decide +kernel, by decide +kernel, by decide +kernel, by decide +kernel⟩,
    ⟨VP 4, vw 0 448 448 256 257 0x402, _, _, issues_of (by decide +kernel), by decide +kernel, by decide +kernel, by decide, rfl, by decide +kernel, by decide +kernel, by decide +kernel⟩,
    ⟨S, vw 0 448 448 448 257 0x402, _, _, issues_of (by decide +kernel), by decide, rfl, by decide +kernel, by decide +kernel⟩,
    ⟨S, vw 0 448 448 258 257 0x402, _, _, issues_of (by decide +kernel), by decide, rfl, by decide +kernel, by decide +kernel, by decide +kernel⟩,
    ⟨S, vw 0 448 448 256 259 0x402, _, _, issues_of (by decide +kernel), by decide, rfl, by decide +kernel, by decide +kernel, by decide +kernel⟩,
    ⟨S, vw 0 448 448 259 448 0x400, _, issues_of (by decide +kernel), by decide +kernel, by decide +kernel, by decide +kernel, by decide +kernel, by decide +kernel⟩,
    ⟨S, vw 0 448 448 256 448 0x402, _, issues_of (by decide +kernel), by decide +kernel, by decide +kernel, by decide +kernel, by decide +kernel, by decide +kernel⟩⟩

/-! ### Queue words and ordered sections -/

def qB : QRes × State → Bool
  | (.ok (_ :: _), _) => true
  | _ => false

def qLanes (s : State) (x : VWord) (k : VCtx) (buf : Option Acc) : QRes × State :=
  queueLanes s k buf (if x.uni then [0] else (lanesOf k.act).filter fun l => !(laneIn k.c.doneLanes l))

def pubB : (Word × Option Nat) × State → Option Nat := fun e => e.1.2

def pubLanes (s : State) (x : VWord) (k : VCtx) : (Word × Option Nat) × State :=
  publishLanes s (coreDie k.core) k.w.card (fun l => (k.a l).toNat)
    (if x.uni then [0] else (lanesOf k.act).filter fun l => !(laneIn k.c.doneLanes l)) k.c.doneLanes

theorem witness_QueueWords :
    (∀ e ∈ queueOps, ∃ s x k, Issues s e.2.1 x k ∧ x.uni = false ∧ qB (qLanes s x k e.2.2.2.2) = true ∧ fenceDone s k.wid k.w 4 s.next = true) ∧
    (∃ s x k, Issues s 0x144 x k ∧ x.subS ∈ [1, 2, 5] ∧ x.uni = false ∧ qB (qLanes s x k none) = true ∧ fenceDone s k.wid k.w 4 s.next = true) ∧
    (∃ s x k, Issues s 0x144 x k ∧ x.subS ∈ [0, 3, 4] ∧ x.uni = false) ∧ (∃ s x k, Issues s 0x148 x k ∧ x.uni = false) ∧
    (∃ s x k, Issues s 0x149 x k ∧ x.uni = true ∧ k.performs = true ∧ fenceDone s k.wid k.w 4 s.next = true ∧ pubB (pubLanes s x k) = none) ∧
    (∃ s x k, Issues s 0x149 x k ∧ x.uni = false ∧ fenceDone s k.wid k.w 4 s.next = true ∧ pubB (pubLanes s x k) = some 1) := by
  have h : ∀ e ∈ ([(0x140, some .read), (0x141, some .write), (0x142, none), (0x143, none)] : List (Nat × Option Acc)),
      let x := vw 0 8 448 448 448 0
      issuesB VM e.1 x = true ∧ qB (qLanes VM x (vk VM e.1 x) e.2) = true ∧
        fenceDone VM 0 (vk VM e.1 x).w 4 VM.next = true := by decide +kernel
  have m : ∀ e ∈ queueOps, (e.2.1, e.2.2.2.2) ∈ ([(0x140, some .read), (0x141, some .write), (0x142, none), (0x143, none)] :
      List (Nat × Option Acc)) := by simp [queueOps]
  let P := { VM with ddx := { VM.ddx with pools := [(0, { tail := 1, resv := [0], pub := [], head := 0, freed := [] })] } }
  exact ⟨fun e he => ⟨VM, _, _, issues_of (h _ (m e he)).1, by decide, (h _ (m e he)).2⟩,
    ⟨VM, vw 0 8 448 448 448 10, _, issues_of (by decide +kernel), by decide, by decide, by decide +kernel, by decide +kernel⟩,
    ⟨VM, vw 0 8 448 448 448 8, _, issues_of (by decide +kernel), by decide, by decide⟩,
    ⟨VM, vw 0 8 448 448 448 0, _, issues_of (by decide +kernel), by decide⟩,
    ⟨P, vw 1 448 256 448 448 0, _, issues_of (by decide +kernel), by decide, by decide +kernel, by decide +kernel, by decide +kernel⟩,
    ⟨P, vw 0 448 448 448 448 0, _, issues_of (by decide +kernel), by decide, by decide +kernel, by decide +kernel⟩⟩

theorem witness_OrderedSections :
    (∃ s x k p, Issues s 0x160 x k ∧ k.act ≠ 0 ∧ k.w.spawn = some p ∧ k.w.ordDone = false ∧ ordLower s k.w.card p.prim p.quads = false) ∧
    (∃ s x k p, Issues s 0x160 x k ∧ k.act ≠ 0 ∧ k.w.spawn = some p ∧ k.w.ordDone = false ∧ ordLower s k.w.card p.prim p.quads = true) ∧
    (∃ s x k, Issues s 0x161 x k ∧ k.act ≠ 0 ∧ k.w.spawn.isSome = true ∧ k.w.held = true ∧ fenceDone s k.wid k.w 4 s.next = true) ∧
    (∃ s x k, Issues s 0x160 x k ∧ k.act ≠ 0 ∧ k.w.spawn = none) ∧
    (∃ s x k, Issues s 0x160 x k ∧ k.act ≠ 0 ∧ k.w.spawn.isSome = true ∧ k.w.ordDone = true) ∧
    (∃ s x k, Issues s 0x161 x k ∧ k.act ≠ 0 ∧ k.w.spawn.isSome = true ∧ k.w.held = false) := by
  let q (n : Nat) : Spawn := { prim := n, quads := [(0, 0)], px := [] }
  let S := vst fun w => { w with spawn := some (q 1) }
  let L := { S with warps := S.warps ++ [(1, { warp0 S with spawn := some (q 0) })] }
  let H := vst fun w => { w with spawn := some (q 1), held := true, ordDone := true }
  let x := vw 0 448 448 448 448 0
  exact ⟨⟨S, x, _, q 1, issues_of (by decide +kernel), by decide +kernel, by decide +kernel, by decide +kernel, by decide +kernel⟩,
    ⟨L, x, _, q 1, issues_of (by decide +kernel), by decide +kernel, by decide +kernel, by decide +kernel, by decide +kernel⟩,
    ⟨H, x, _, issues_of (by decide +kernel), by decide +kernel, by decide +kernel, by decide +kernel, by decide +kernel⟩,
    ⟨V, x, _, issues_of (by decide +kernel), by decide +kernel, by decide +kernel⟩,
    ⟨H, x, _, issues_of (by decide +kernel), by decide +kernel, by decide +kernel, by decide +kernel⟩,
    ⟨S, x, _, issues_of (by decide +kernel), by decide +kernel, by decide +kernel, by decide +kernel⟩⟩

/-! ## Witnesses: tile words -/

/-- A tile word of a tag without tokens. -/
def tw (tag rep step opa opb : Nat) : TWord :=
  { high := 0, tag := BitVec.ofNat 3 tag, popP := 0, popN := 0, pushP := 0, pushN := 0, rep := BitVec.ofNat 7 rep,
    step := BitVec.ofNat 3 step, opa := BitVec.ofNat 12 opa, opb := BitVec.ofNat 12 opb }

def pageT : TlbEnt := page0 0 32

/-- A program on tile core 0 whose walker e is to move, with virtual page 0 mapped. -/
def tst (e : Nat) (f : TileCore → TileCore) (g : Walker → Walker) : State :=
  let s := placeTile State.reset 0
  { s with tiles := s.tiles.map fun x => (x.1, f { x.2 with walkers := x.2.walkers.map g }), focus := .walker 0 e,
           ms := { s.ms with tlb := [pageT] } }

/-- The checker has formed the commands of a word at which every walker stands. -/
def fms (o : Nat) (x : TWord) (s : State) : State :=
  { s with tiles := s.tiles.map fun e => (e.1, { e.2 with formed := (e.2.walkers.take 1).map fun w =>
      { count := w.count, pc := w.pc, word := tPack (BitVec.ofNat 7 o) x, k := w.k } }) }

def tile0 (s : State) : TileCore := (s.tiles.find 0).getD (TileCore.blank { card := 0, gen := 0 } 0)
def tk (s : State) (e : Nat) (word : TWord) : TCtx :=
  let t := tile0 s
  { tc := 0, e := e, t := t, x := t.card.getD { card := 0, gen := 0 }, w := (t.walkers[e]?).getD (placedWalker s), word := word }

def walksB (s : State) (opc : Nat) (k : TCtx) : Bool :=
  decide ((s.focus = .walker k.tc k.e ∧ s.tiles.find k.tc = some k.t ∧ k.t.card = some k.x ∧ k.t.walkers[k.e]? = some k.w) ∧
    (tileGo s k.tc k.t k.x k.w = true ∧ k.w.st = .run ∧ k.w.count - minCount k.t < tileSlip s k.x.card ∧
      checkerBehind k.t k.e k.w = false) ∧
    tEnc opc k.word = none ∧ (k.word.t = 0 ∨ k.word.t = 5 ∨ k.word.t = k.e + 1) ∧
    (k.e < 4 → commandOk k.t k.e k.w opc k.word = true) ∧
    (k.word.t = 0 ∨ k.word.t = 5 ∨ ∀ f ∈ popFifos k.e k.word, (k.w.pops.find f).isSome = true))

theorem walks_of {s : State} {opc : Nat} {k : TCtx} (h : walksB s opc k = true) : Walks s opc k := by
  have ⟨a, b, c⟩ := of_decide_eq_true h
  exact { agent := a.1, found := a.2.1, loaded := a.2.2.1, here := a.2.2.2, moves := b.1, going := b.2.1, slip := b.2.2.1,
          checked := b.2.2.2, legal := c.1, mine := c.2.1, sound := c.2.2.1, tokens := c.2.2.2 }

def T0 : State := tst 4 id id

theorem witness_KernelWords : ∀ o ∈ List.range 0x10 ++ [0x10, 0x11, 0x12, 0x13, 0x14, 0x15, 0x16, 0x17], ∃ s k, Walks s o k := by
  have h : ∀ o ∈ List.range 0x10 ++ [0x10, 0x11, 0x12, 0x13, 0x14, 0x15, 0x16, 0x17],
      walksB T0 o (tk T0 4 (tw 0 0 0 0 0)) = true := by decide +kernel
  exact fun o ho => ⟨T0, _, walks_of (h o ho)⟩

/-- Whether a resolution names the address held. -/
def resolvesB (s : State) (k : TCtx) : Bool :=
  match resolve s k.core k.x.card k.x.gen (ovAddr (k.w.kr k.word.ka)) false (k.w.ovFirst.map (·.1)) with
  | (.ok _, t) => decide (t = s)
  | _ => false

/-- A walker with the address of its own overlay in K1. -/
def TK : State := tst 4 id fun w => { w with k := [0, BitVec.ofNat 64 (2 ^ 32 * (placedTok State.reset 32).toNat)] ++ List.replicate 30 0 }

theorem witness_KernelBranches :
    (∃ s k x, Walks s 0x18 k ∧ sampleFor k = some x ∧ ∀ o ∈ (istore s k.core).ovls, o.doomed = false) ∧
    (∀ o ∈ [0x18, 0x19], ∃ s k, Walks s o k ∧ sampleFor k = none ∧ resolvesB s k = true ∧ ∀ o ∈ (istore s k.core).ovls, o.doomed = false) := by
  let S := tst 4 (fun t => { t with samples := [{ count := 0, val := 0, dest := zeroAddr, left := [0, 4] }] }) id
  have h : ∀ o ∈ [0x18, 0x19], let k := tk TK 4 (tw 0 0 0 4 0)
      walksB TK o k = true ∧ sampleFor k = none ∧ resolvesB TK k = true ∧ ∀ x ∈ (istore TK k.core).ovls, x.doomed = false := by
    decide +kernel
  exact ⟨⟨S, tk S 4 (tw 0 0 0 0 0), _, walks_of (by decide +kernel), rfl, by decide +kernel⟩,
    fun o ho => ⟨TK, _, walks_of (h o ho).1, (h o ho).2⟩⟩

def sec0 (n : Nat) : Tbl Sec := (List.range n).map fun i => (64 + i, { data := List.replicate 64 0, poison := false, req := 0 })

/-- A walker whose reads of sectors 64 up are at hand as operation 7. -/
def tgot (e n : Nat) (f : TileCore → TileCore) (g : Walker → Walker) : State :=
  let s := tst e f fun w => g { w with asked := some 7 }
  { s with ops := [(7, { pend (.tile 0 e) with core := 32, got := sec0 n, order := (List.range n).map fun i => 64 + i })], next := 8 }

def op7 (s : State) : PendOp := (s.ops.find 7).getD (pend .ovqry)

def atHandB (s : State) (k : TCtx) : Bool :=
  decide (k.w.asked = some 7) && decide (s.ops.find 7 = some (op7 s)) && (op7 s).order.all fun x => ((op7 s).got.find x).isSome

theorem atHand_of {s : State} {k : TCtx} (h : atHandB s k = true) : AtHand s k 7 (op7 s) := by
  simp only [atHandB, Bool.and_eq_true, decide_eq_true_eq, List.all_eq_true] at h
  exact ⟨h.1.1, h.1.2, h.2⟩

theorem witness_SampledWords :
    (∀ o ∈ [0x1A, 0x1B, 0x1C], ∃ s k x, Walks s o k ∧ sampleFor k = some x) ∧
    (∀ o ∈ [0x1A, 0x1B], ∃ s k, Walks s o k ∧ sampleFor k = none) ∧
    (∃ s k i o, Walks s 0x1C k ∧ sampleFor k = none ∧ samplerBusy k = false ∧ AtHand s k i o ∧
      translate s (k.space s) 56 .read = (.ok 4152, s) ∧ (k.w.kr k.word.ka + k.word.opb.signExtend 64).toNat = 56 ∧
      (o.got.find (4152 / 64)).map (fun x => x.poison) = some false) ∧
    (∃ s k, Walks s 0x1C k ∧ sampleFor k = none ∧ samplerBusy k = false ∧
      (k.w.kr k.word.ka + k.word.opb.signExtend 64).toNat % 8 ≠ 0) := by
  let S := tst 4 (fun t => { t with samples := [{ count := 0, val := 0, dest := zeroAddr, left := [0, 4] }] }) id
  let G := tgot 4 1 (fun t => { t with walkers := t.walkers.mapIdx fun i w => if i = 4 then w else { w with asked := none } }) id
  have h : ∀ o ∈ [0x1A, 0x1B, 0x1C], walksB S o (tk S 4 (tw 0 0 0 0 0)) = true := by decide +kernel
  have g : ∀ o ∈ [0x1A, 0x1B], walksB T0 o (tk T0 4 (tw 0 0 0 0 0)) = true := by decide +kernel
  exact ⟨fun o ho => ⟨S, _, { count := 0, val := 0, dest := zeroAddr, left := [0, 4] }, walks_of (h o ho), rfl⟩,
    fun o ho => ⟨T0, _, walks_of (g o ho), rfl⟩,
    ⟨G, tk G 4 (tw 0 0 0 0 56), 7, op7 G, walks_of (by decide +kernel), rfl, by decide +kernel, atHand_of (by decide +kernel),
      by decide +kernel, by decide +kernel, by decide +kernel⟩,
    ⟨T0, tk T0 4 (tw 0 0 0 0 4), walks_of (by decide +kernel), rfl, by decide +kernel, by decide +kernel⟩⟩

/-! ### Handles and the engines -/

/-- A descriptor of 4 rows of 128 elements at virtual address 0, 768 bytes a row. -/
def desc (fmt flags : Nat) : List DWord := [0, 768, 0, 4 * 2 ^ 32 + 128, 0, 0, BitVec.ofNat 64 (fmt + flags), 0]
def hnd (fmt flags : Nat) : Handle := { va := 0, desc := desc fmt flags, pages := [(0, 1)], entries := 1, marked := [] }

def only (e : Nat) (t : TileCore) : TileCore :=
  { t with walkers := t.walkers.mapIdx fun i w => if i = e then w else { w with asked := none } }

/-- Walker e with handle 0 of a format, its reads of 12 sectors at hand. -/
def thnd (e fmt flags : Nat) (f : TileCore → TileCore) : State :=
  tgot e 12 (fun t => f { only e t with handles := [(0, hnd fmt flags)] }) id

/-- The same without reads. -/
def tidle (e fmt flags : Nat) (f : TileCore → TileCore) : State :=
  tst e (fun t => f { t with handles := [(0, hnd fmt flags)] }) id

def bindB (s : State) (k : TCtx) (o : PendOp) (pa : Nat) : Bool :=
  let d := (List.range 8).map fun j => (BitVec.ofNat 64 (leNat (((gotBytes o.got pa 64).1.drop (8 * j)).take 8)) : DWord)
  let s0 := setHandles s k.tc fun h => h.del (hndOf k.word.opa)
  (match translate s0 (k.space s0) (k.w.kr k.word.kb).toNat .read with
   | (.ok p, u) => decide (p = pa ∧ u = s0)
   | _ => false) && !(gotBytes o.got pa 64).2 &&
  (match bindDesc s0 (k.space s0) (entriesUsed { k.t with handles := k.t.handles.del (hndOf k.word.opa) }) (k.w.kr k.word.kb).toNat d with
   | (.ok _, u) => decide (u = s0)
   | _ => false)

/-- Walker 0 whose read of the descriptor at virtual address 0 is at hand. -/
def TB : State :=
  let s := fms 0x20 (tw 1 0 0 0 0) (tgot 0 1 (only 0) id)
  { s with ops := s.ops.map fun e => (e.1, { e.2 with got := [(64, { data := wordsBytes (desc 0 0x20), poison := false, req := 0 })] }) }

theorem witness_HandleBinding :
    (∃ s k i o, Walks s 0x20 k ∧ handleUsed k (hndOf k.word.opa) = false ∧ AtHand s k i o ∧ (k.w.kr k.word.kb).toNat % 64 = 0 ∧
      bindB s k o 4096 = true) ∧
    (∃ s k, Walks s 0x20 k ∧ handleUsed k (hndOf k.word.opa) = false ∧ (k.w.kr k.word.kb).toNat % 64 ≠ 0) ∧
    (∃ s k, Walks s 0x21 k ∧ handleUsed k (hndOf k.word.opa) = false ∧ k.w.asked = none) ∧
    (∀ o ∈ [0x20, 0x21], ∃ s k, Walks s o k ∧ handleUsed k (hndOf k.word.opa) = true) := by
  let O := fms 0x20 (tw 1 0 0 0 0) (tst 0 id fun w => { w with k := 32 :: List.replicate 31 0 })
  let Z := fms 0x21 (tw 1 0 0 0 0) (tst 0 id id)
  let U := tst 0 (fun t => { t with walkers := t.walkers.mapIdx fun i w => if i = 3 then { w with uses := some 0 } else w }) id
  have h : ∀ o ∈ [0x20, 0x21], let s := fms o (tw 1 0 0 0 0) U
      let k := tk s 0 (tw 1 0 0 0 0)
      walksB s o k = true ∧ handleUsed k (hndOf k.word.opa) = true := by decide +kernel
  exact ⟨⟨TB, tk TB 0 (tw 1 0 0 0 0), 7, op7 TB, walks_of (by decide +kernel), by decide +kernel, atHand_of (by decide +kernel),
      by decide +kernel, by decide +kernel⟩,
    ⟨O, tk O 0 (tw 1 0 0 0 0), walks_of (by decide +kernel), by decide +kernel, by decide +kernel⟩,
    ⟨Z, tk Z 0 (tw 1 0 0 0 0), walks_of (by decide +kernel), by decide +kernel, by decide +kernel⟩,
    fun o ho => ⟨_, _, walks_of (h o ho).1, (h o ho).2⟩⟩

def okB {α : Type} (e : Except Cause α) : Bool :=
  match e with
  | .ok _ => true
  | .error _ => false

def errIs {α : Type} (e : Except Cause α) (c : Cause) : Bool :=
  match e with
  | .ok _ => false
  | .error x => decide (x = c)

theorem err_of {α : Type} {e : Except Cause α} {c : Cause} (h : errIs e c = true) : e = .error c := by
  unfold errIs at h
  split at h
  · exact absurd h (by simp)
  · simpa using h

def run1 (k : TCtx) : Run := { c0 := hndC0 k k.word.opa, n := 128, c1 := hndC1 k k.word.opa 1 }

/-- LDR, LDW and LPF through a padded I8 handle, LDR through a handle that is not bound, and LPF of a row past the coordinates. -/
theorem witness_LoadEngineWords :
    (∃ s k i o, Walks s 0x23 k ∧ AtHand s k i o ∧ accAt k k.word.opb k.step = some (.row 2047) ∧ coordOk (run1 k).c1 = true ∧
      okB (handleChecks k.t (hndOf k.word.opa) [0, 1, 2, 3, 4, 5, 6] true false true [run1 k]) = true) ∧
    (∃ s k i o h, Walks s 0x22 k ∧ AtHand s k i o ∧ k.t.handles.find (hndOf k.word.opa) = some h ∧
      okB (handleChecks k.t (hndOf k.word.opa) [0, 1, 2, 3] true false true
        (ldwRuns (hndC0 k k.word.opa) (hndC1 k k.word.opa 1) (hdFmt h.desc))) = true) ∧
    (∃ s k, Walks s 0x24 k ∧
      okB (handleChecks k.t (hndOf k.word.opa) [0, 1, 2, 3, 4, 5, 6] true false (coordOk (run1 k).c1) [run1 k]) = true) ∧
    (∃ s k, Walks s 0x23 k ∧ k.w.asked = none ∧
      handleChecks k.t (hndOf k.word.opa) [0, 1, 2, 3, 4, 5, 6] true false
        (coordOk (run1 k).c1 && (accAt k k.word.opb k.step).isSome) [run1 k] = .error { code := 0x08, detail := 3 }) ∧
    (∃ s k, Walks s 0x24 k ∧ k.w.asked = none ∧
      handleChecks k.t (hndOf k.word.opa) [0, 1, 2, 3, 4, 5, 6] true false (coordOk (run1 k).c1) [run1 k] =
        .error { code := 0x05, detail := 2 }) := by
  let L := fun o n => fms o (tw 1 0 0 0 n) (thnd 0 0 0x30 id)
  let R := L 0x23 2047
  let D := L 0x22 0
  let P := L 0x24 0
  let W := fms 0x24 (tw 1 0 0 0 0) (tidle 0 0 0x40 id)
  let Z := fms 0x23 (tw 1 0 0 0 0) (tst 0 id id)
  exact ⟨⟨R, tk R 0 (tw 1 0 0 0 2047), 7, op7 R, walks_of (by decide +kernel), atHand_of (by decide +kernel), by decide +kernel,
      by decide +kernel, by decide +kernel⟩,
    ⟨D, tk D 0 (tw 1 0 0 0 0), 7, op7 D, hnd 0 0x30, walks_of (by decide +kernel), atHand_of (by decide +kernel), by decide +kernel,
      by decide +kernel⟩,
    ⟨P, tk P 0 (tw 1 0 0 0 0), walks_of (by decide +kernel), by decide +kernel⟩,
    ⟨Z, tk Z 0 (tw 1 0 0 0 0), walks_of (by decide +kernel), rfl, rfl⟩,
    ⟨W, tk W 0 (tw 1 0 0 0 0), walks_of (by decide +kernel), rfl, err_of (by decide +kernel)⟩⟩

/-- Handles for every outcome of the checks of R330, with the first and the last row of the box and the row past it. -/
theorem witness_HandleChecks :
    (tile0 T0).handles.find 0 = none ∧ (hnd 7 0x20).desc.length = 8 ∧ hdFmt (hnd 6 0x20).desc = 6 ∧ hdRd (hnd 0 0x40).desc = false ∧
    hdWr (hnd 0 0x20).desc = false ∧ hdFmt (hnd 1 0x20).desc = 1 ∧
    (({ c0 := 0, n := 128, c1 := 0 } : Run).inside (desc 0 0x20) = true ∧ ({ c0 := 0, n := 128, c1 := 3 } : Run).inside (desc 0 0x20) = true ∧
      ({ c0 := 0, n := 128, c1 := 4 } : Run).inside (desc 0 0x20) = false) := by decide +kernel

/-- A weight file of a format, whose scales are 1. -/
def wfile (fmt : Nat) : WFile := { WFile.none with fmt := fmt, sw0 := 0x7F00, sw1 := 0x7F00 }

def xruns (k : TCtx) (fmt : Nat) : List Run := xmmRuns (hndC0 k k.word.opa) (hndC1 k k.word.opa 128) fmt

def xokB (s : State) (k : TCtx) (fmt : Nat) : Bool :=
  match handleChecks k.t (hndOf k.word.opa) [fmt] true false (tileOk (xbTile k) && coordOk (hndC1 k k.word.opa 128)) (xruns k fmt) with
  | .ok x => decide (fmt ≤ 1 → sx16Bad (xbFile k).sw0 = false) &&
      (decide (2 ≤ fmt) || (xmmActs x (op7 s).got fmt (xruns k fmt)).all fun a => !(sx16Bad a.sa))
  | .error _ => false

theorem witness_MatrixWords :
    (∀ e ∈ ([(0x30, 0, 1), (0x31, 1, 2), (0x32, 3, 4), (0x33, 2, 3)] : List (Nat × Nat × Nat)),
      ∃ s k, Walks s e.1 k ∧ AtHand s k 7 (op7 s) ∧ (xbFile k).fmt = e.2.2 ∧ xokB s k e.2.1 = true) ∧
    (∀ e ∈ ([(0x34, 0), (0x35, 1)] : List (Nat × Nat)), ∃ s k, Walks s e.1 k ∧ (xbFile k).fmt = e.2 + 1 ∧
      let src : Int := (fld k.word.opa 3 0 : Int) + k.step
      tileOk src = true ∧ tileOk (xbTile k) = true ∧ src ≠ xbTile k ∧ sx16Bad (xbFile k).sw0 = false ∧
      (∀ a ∈ (List.range 128).map fun m => quantRow k.t e.2 (128 * src.toNat + m), sx16Bad a.sa = false) ∧ k.w.asked = none) := by
  let S := fun (fmt wf : Nat) => thnd 1 fmt 0x30 fun t => { t with wf := [wfile wf, wfile wf] }
  let B := fun (wf : Nat) => tst 1 (fun t => { t with wf := [wfile wf, wfile wf] }) id
  have h : ∀ e ∈ ([(0x30, 0, 1), (0x31, 1, 2), (0x32, 3, 4), (0x33, 2, 3)] : List (Nat × Nat × Nat)),
      let s := fms e.1 (tw 2 0 0 0 15) (S e.2.1 e.2.2)
      let k := tk s 1 (tw 2 0 0 0 15)
      walksB s e.1 k = true ∧ atHandB s k = true ∧ (xbFile k).fmt = e.2.2 ∧ xokB s k e.2.1 = true := by decide +kernel
  have g : ∀ e ∈ ([(0x34, 0), (0x35, 1)] : List (Nat × Nat)),
      let s := fms e.1 (tw 2 0 0 0 15) (B (e.2 + 1))
      let k := tk s 1 (tw 2 0 0 0 15)
      let src : Int := (fld k.word.opa 3 0 : Int) + k.step
      walksB s e.1 k = true ∧ (xbFile k).fmt = e.2 + 1 ∧ tileOk src = true ∧ tileOk (xbTile k) = true ∧ src ≠ xbTile k ∧
      sx16Bad (xbFile k).sw0 = false ∧
      (∀ a ∈ (List.range 128).map fun m => quantRow k.t e.2 (128 * src.toNat + m), sx16Bad a.sa = false) ∧ k.w.asked = none := by
    decide +kernel
  exact ⟨fun e he => ⟨_, _, walks_of (h e he).1, atHand_of (h e he).2.1, (h e he).2.2⟩, fun e he => ⟨_, _, walks_of (g e he).1, (g e he).2⟩⟩

theorem witness_ElementWords :
    (∀ o ∈ [0x40, 0x47, 0x52], ∃ s k a, Walks s o k ∧ k.w.asked = none ∧ accAt k k.word.opa k.step = some a) ∧
    (∀ o ∈ [0x41, 0x42, 0x43, 0x44, 0x45, 0x46, 0x48], ∃ s k a b, Walks s o k ∧ k.w.asked = none ∧
      accAt k k.word.opa k.step = some a ∧ accAt k k.word.opb (if o = 0x48 then 0 else k.step) = some b) := by
  let S := tst 2 id id
  have h : ∀ o ∈ [0x40, 0x47, 0x52], let s := fms o (tw 3 0 0 2047 0) S
      let k := tk s 2 (tw 3 0 0 2047 0)
      walksB s o k = true ∧ k.w.asked = none ∧ accAt k k.word.opa k.step = some (.row 2047) := by decide +kernel
  have g : ∀ o ∈ [0x41, 0x42, 0x43, 0x44, 0x45, 0x46, 0x48], let s := fms o (tw 3 0 0 2047 0xFC1) S
      let k := tk s 2 (tw 3 0 0 2047 0xFC1)
      walksB s o k = true ∧ k.w.asked = none ∧ accAt k k.word.opa k.step = some (.row 2047) ∧
      accAt k k.word.opb (if o = 0x48 then 0 else k.step) = some (.col 15 1) := by decide +kernel
  exact ⟨fun o ho => ⟨_, _, _, walks_of (h o ho).1, (h o ho).2⟩, fun o ho => ⟨_, _, _, _, walks_of (g o ho).1, (g o ho).2⟩⟩

theorem witness_RowWords : ∀ o ∈ [0x49, 0x4A, 0x4B, 0x4C, 0x4D, 0x4E, 0x4F, 0x50, 0x51], ∃ s k a b, Walks s o k ∧ k.w.asked = none ∧
    accAt k k.word.opa k.step = some a ∧ (if o ≠ 0x4B then accAt k k.word.opb k.step = some b else b = a) := by
  let S := tst 2 id id
  have h : ∀ o ∈ [0x49, 0x4A, 0x4B, 0x4C, 0x4D, 0x4E, 0x4F, 0x50, 0x51], let s := fms o (tw 3 0 0 2047 0) S
      let k := tk s 2 (tw 3 0 0 2047 0)
      walksB s o k = true ∧ k.w.asked = none ∧ accAt k k.word.opa k.step = some (.row 2047) ∧
      (if o ≠ 0x4B then accAt k k.word.opb k.step = some (.row 0) else True) := by decide +kernel
  exact fun o ho => ⟨_, _, _, if o ≠ 0x4B then .row 0 else .row 2047, walks_of (h o ho).1, (h o ho).2.1, (h o ho).2.2.1, by
    have := (h o ho).2.2.2
    by_cases c : o = 0x4B <;> simp_all⟩

/-- Whether the store of one row passes, without a page to map again. -/
def rowStoreB (s : State) (k : TCtx) (fmts : List Nat) : Bool :=
  match handleChecks k.t (hndOf k.word.opa) fmts true true (coordOk (run1 k).c1) [run1 k] with
  | .ok x => decide ((((run1 k).range x.desc).toList.flatMap fun r => pageStarts r.1 (pageCount r.1 (r.1 + r.2 - 1))).filter
      (fun va => x.marked.contains (va / 4096)) = []) && decide (s.tiles.find k.tc = some k.t)
  | .error _ => false

theorem witness_StoreEngineWords :
    (∃ s k row, Walks s 0x60 k ∧ k.w.asked = none ∧ accAt k k.word.opb k.step = some row ∧ rowStoreB s k [0, 1, 2, 3, 4, 5, 6] = true) ∧
    (∀ o ∈ [0x61, 0x62], ∃ s k row, Walks s o k ∧ k.w.asked = none ∧ accAt k k.word.opb k.step = some row ∧
      rowStoreB s k [4] = true ∧ k.t.bad = []) := by
  let B := fms 0x60 (tw 4 0 0 0 2047) (tidle 3 0 0x40 id)
  let F := tidle 3 4 0x40 id
  have h : ∀ o ∈ [0x61, 0x62], let s := fms o (tw 4 0 0 0 2047) F
      let k := tk s 3 (tw 4 0 0 0 2047)
      walksB s o k = true ∧ k.w.asked = none ∧ accAt k k.word.opb k.step = some (.row 2047) ∧ rowStoreB s k [4] = true ∧
      k.t.bad = [] := by decide +kernel
  exact ⟨⟨B, tk B 3 (tw 4 0 0 0 2047), .row 2047, walks_of (by decide +kernel), by decide +kernel, by decide +kernel, by decide +kernel⟩,
    fun o ho => ⟨_, _, _, walks_of (h o ho).1, (h o ho).2⟩⟩

/-- A request in flight, performed in sector 64 by nothing yet. -/
def req (id : Nat) (a : Agent) (kind : ReqKind) : Req :=
  { id := id, agent := a, rq := 0, pid := 0, ctx := some { card := 0, gen := 0 }, issue := 0, die := 0, core := 0, kind := kind, sec := 64,
    fresh := 0, op := none, adm := 0, held := false }

theorem witness_EngineControlWords :
    (∃ s k, Walks s 0x70 k ∧ engineDrained s k = true ∧ k.w.asked = none ∧ fld k.word.opa 2 0 = 5 ∧
      max k.w.ch k.w.wct ≤ s.now (coreDie (k.tc + 32))) ∧
    (∃ s k, Walks s 0x70 k ∧ engineDrained s k = false) ∧
    (∃ s k, Walks s 0x63 k ∧ k.w.ans = none ∧ k.w.sent = false ∧ engineDrained s k = true ∧
      max k.w.ch k.w.wct ≤ s.now (coreDie (k.tc + 32)) ∧ (k.w.kr k.word.kd).toNat % 64 = 0 ∧
      (let s0 := putWalker s k { k.w with ch := max k.w.ch k.w.wct }
       translate s0 (k.space s0) (k.w.kr k.word.kd).toNat .read = (.ok 4096, s0))) ∧
    (∀ st ∈ [0, 1], ∃ s k a, Walks s 0x63 k ∧ k.w.ans = some a ∧ a.trap = none ∧ k.w.asked = none ∧ a.status = st) ∧
    (∀ o ∈ [0x71, 0x72], ∃ s k, Walks s o k) := by
  let F := fms 0x70 (tw 4 0 0 5 0) (tst 3 id id)
  let S := fms 0x63 (tw 4 0 0 0 0) (tst 3 id id)
  let R := { F with ms := { F.ms with reqs := [req 5 (.teng 0 3) (.engine [(4096, 1)] false)] } }
  let A := fun n => fms 0x63 (tw 4 0 0 0 0) (tst 3 id fun w => { w with ans := some (LAns.st n) })
  have h : ∀ o ∈ [0x71, 0x72], walksB (fms o (tw 4 0 0 0 0) S) o (tk (fms o (tw 4 0 0 0 0) S) 3 (tw 4 0 0 0 0)) = true := by decide +kernel
  have g : ∀ st ∈ [0, 1], let k := tk (A st) 3 (tw 4 0 0 0 0)
      walksB (A st) 0x63 k = true ∧ k.w.ans = some (LAns.st st) ∧ (LAns.st st).trap = none ∧ k.w.asked = none ∧
      (LAns.st st).status = st := by decide +kernel
  exact ⟨⟨F, tk F 3 (tw 4 0 0 5 0), walks_of (by decide +kernel), by decide +kernel, rfl, by decide +kernel, by decide +kernel⟩,
    ⟨R, tk R 3 (tw 4 0 0 5 0), walks_of (by decide +kernel), by decide +kernel⟩,
    ⟨S, tk S 3 (tw 4 0 0 0 0), walks_of (by decide +kernel), rfl, rfl, by decide +kernel, by decide +kernel, by decide +kernel,
      by decide +kernel⟩,
    fun st hst => ⟨A st, _, _, walks_of (g st hst).1, (g st hst).2⟩, fun o ho => ⟨_, _, walks_of (h o ho)⟩⟩

theorem witness_TokensMove :
    (∃ (s : State) (k : TCtx) (f h : Nat) (rest : List Nat), s.tiles.find k.tc = some k.t ∧ k.t.walkers[k.e]? = some k.w ∧
      k.t.fifo.getD f [] = h :: rest ∧ k.w.pops.find f = none) ∧
    (∃ (s : State) (tc e : Nat) (t : TileCore) (w : Walker), s.tiles.find tc = some t ∧ t.walkers[e]? = some w ∧ w.retiring = true ∧
      w.ecc = none ∧ s.ev.i = tc ∧ s.ev.j = e ∧ w.pushes.Nodup ∧ w.pushes = [0, 1] ∧
      (∀ f ∈ w.pushes, (t.fifo.getD f []).length < 15) ∧ w.st = .run) := by
  let S := tst 1 id id
  let P := { (tst 0 id fun w => { w with retiring := true, pushes := [0, 1] }) with ev := { EvArgs.none with i := 0, j := 0 } }
  exact ⟨⟨S, tk S 1 (tw 2 0 0 0 0), 0, 0, [], by decide +kernel, by decide +kernel, by decide +kernel, by decide +kernel⟩,
    ⟨P, 0, 0, tile0 P, (tk P 0 (tw 1 0 0 0 0)).w, by decide +kernel, by decide +kernel, by decide +kernel, by decide +kernel,
      rfl, rfl, by decide +kernel, by decide +kernel, by decide +kernel, by decide +kernel⟩⟩

theorem witness_MeetingWords :
    (∃ s k, Walks s 0x79 k) ∧ (∃ s k, Walks s 0x7A k ∧ allAt k.t k.w.count (some k.e) = false) ∧
    (∃ s k, Walks s 0x7A k ∧ allAt k.t k.w.count (some k.e) = true) ∧
    (∃ s k, Walks s 0x78 k ∧ k.t.live = none ∧ countBits (ckptMask k.word) 16 ≤ cardF s k.x.card 0 28 24) := by
  let M := tst 4 (fun t => { t with walkers := t.walkers.mapIdx fun i w => if i = 4 then w else { w with st := .wait } }) id
  exact ⟨⟨T0, tk T0 4 (tw 5 0 0 0 0), walks_of (by decide +kernel)⟩, ⟨T0, tk T0 4 (tw 5 0 0 0 0), walks_of (by decide +kernel), by decide +kernel⟩,
    ⟨M, tk M 4 (tw 5 0 0 0 0), walks_of (by decide +kernel), by decide +kernel⟩,
    ⟨T0, tk T0 4 (tw 5 0 0 0 0), walks_of (by decide +kernel), by decide +kernel, by decide +kernel⟩⟩

theorem witness_TileTraps :
    (∃ (s : State) (tc e : Nat) (t : TileCore) (x : Ctx) (w : Walker) (v : DWord) (i : Instr), decodeTile v = .ok i ∧ s.focus = .walker tc e ∧
      s.tiles.find tc = some t ∧ t.card = some x ∧ t.walkers[e]? = some w ∧ tileGo s tc t x w = true ∧
      w.count - minCount t < tileSlip s x.card ∧ checkerBehind t e w = false ∧ tEnc (tOpcode v) (tFieldsOf v) = some 1) ∧
    (∃ (s : State) (tc e : Nat) (t : TileCore) (x : Ctx) (w : Walker), s.tiles.find tc = some t ∧ t.card = some x ∧
      t.walkers[e]? = some w ∧ t.trapped = false ∧ w.asked = none) := by
  let k := tk T0 4 (tw 0 0 0 0 0)
  exact ⟨⟨T0, 0, 4, k.t, k.x, k.w, 0x8000000000000000, .knop (tFieldsOf 0x8000000000000000), rfl, by decide +kernel, by decide +kernel,
      by decide +kernel, by decide +kernel, by decide +kernel, by decide +kernel, by decide +kernel, by decide +kernel⟩,
    ⟨T0, 0, 4, k.t, k.x, k.w, by decide +kernel, by decide +kernel, by decide +kernel, by decide +kernel, by decide +kernel⟩⟩

/-- A walker 4 words ahead of the last, of a program of slip 4. -/
theorem witness_SlipBound : ∃ (s : State) (tc e : Nat) (t : TileCore) (x : Ctx) (w : Walker), s.focus = .walker tc e ∧
    s.tiles.find tc = some t ∧ t.card = some x ∧ t.walkers[e]? = some w ∧ tileGo s tc t x w = true ∧ w.st = .run ∧
    (∃ y ∈ t.walkers, y.walks = true ∧ y.count + bits (relHdr s x.card 1) 7 0 ≤ w.count) := by
  let S := tst 0 (fun t => { t with walkers := t.walkers.mapIdx fun i w => if i = 0 then { w with count := 64 } else w }) id
  exact ⟨S, 0, 0, tile0 S, { card := 0, gen := 0 }, (tk S 0 (tw 0 0 0 0 0)).w, by decide +kernel, by decide +kernel, by decide +kernel,
    by decide +kernel, by decide +kernel, by decide +kernel, (tk S 1 (tw 0 0 0 0 0)).w, by decide +kernel, by decide +kernel, by decide +kernel⟩

/-! ## Witnesses: register writes -/

def regSize (r : Nat) : Nat := ((regInfo r).map fun x => x.size).getD 8

/-- The Governor's write of a whole register. -/
def bw (r v : Nat) : BusWrite := { src := .gov, pa := BitVec.ofNat 44 r, size := regSize r, val := BitVec.ofNat 64 v }
def rp (r v : Nat) : RegPart := { reg := r, size := regSize r, lo := 0, bytes := regSize r, val := BitVec.ofNat 64 v }

theorem one_of {s : State} {r v : Nat} (h : (busReaches s (bw r v) && decide (busParts (bw r v) = [rp r v])) = true) :
    BusOne s (bw r v) (rp r v) := by
  simpa [BusOne] using h

/-- The device out of reset. -/
def UP : State := { State.reset with gov := { Gov.reset with holdReset := false } }
def D : State := State.reset

theorem witness_RegisterWrites :
    (∃ s b q r, BusOne s b q ∧ regInfo q.reg = some r ∧ q.reg = Reg.dtuCtl) ∧ ¬ ownEffect Reg.dtuCtl ∧
    (∃ (s : State) (b : BusWrite), busReaches s b = false) := by
  refine ⟨⟨D, bw Reg.dtuCtl 6, rp Reg.dtuCtl 6, (regInfo Reg.dtuCtl).getD { size := 0, rw := 0, w1c := 0, reset := 0 },
    one_of (by decide +kernel), by decide +kernel, rfl⟩, ?_,
    ⟨D, { bw Reg.dtuCtl 6 with src := .svc 0 }, by decide +kernel⟩⟩
  have h : ∀ c < 64, Reg.dtuCtl ≠ Reg.ctxCmd c ∧ Reg.dtuCtl ≠ Reg.graphCfg c ∧ Reg.dtuCtl ≠ Reg.spPid c ∧ Reg.dtuCtl ≠ Reg.ovlCmd c := by
    decide +kernel
  have g : ∀ d < 2, ¬ (dieBase d + 0x200 ≤ Reg.dtuCtl) ∧ Reg.dtuCtl ≠ Reg.shootCtl d ∧ (∀ c < 4, Reg.dtuCtl ≠ Reg.lqCmd d c) ∧
      ∀ i < 32, Reg.dtuCtl ∉ [Reg.mqCfg d i, Reg.mqSatp d i, Reg.mqShadow d i] := by decide +kernel
  rintro (e | ⟨c, hc, e⟩ | ⟨c, hc, e⟩ | ⟨c, hc, e⟩ | ⟨c, hc, e⟩ | ⟨d, hd, ⟨e, -⟩ | e | ⟨c, hc, e⟩ | ⟨i, hi, e⟩⟩)
  · revert e; decide +kernel
  · exact (h c (by omega)).1 e
  · exact (h c (by omega)).2.1 e
  · exact (h c (by omega)).2.2.1 e
  · exact (h c (by omega)).2.2.2 e
  · exact (g d hd).1 e
  · exact (g d hd).2.1 e
  · exact (g d hd).2.2.1 c hc e
  · exact (g d hd).2.2.2 i hi e

/-- Loading is permitted at reset; the rates at both limits, and one past each; a lease of 1 unit. -/
theorem witness_TimeAndLeaseWrites :
    (∃ s b q, BusOne s b q ∧ q.reg = Reg.dtuLoad ∧ q.bytes = 8 ∧ s.regBit Reg.dtuStatus 4 = true ∧ s.regBit Reg.dtuStatus 5 = false ∧
      s.time.hub < q.val.toNat) ∧
    (∃ s b q, BusOne s b q ∧ q.reg = Reg.dtuLoad ∧ ¬ (s.time.hub < q.val.toNat)) ∧
    (∀ v ∈ [2147484, 2147485, 2 ^ 32 - 2147484, 2 ^ 32 - 2147485], ∃ s b q, BusOne s b q ∧ q.reg = Reg.dtuAdj ∧ bits q.val 31 0 = v) ∧
    (∃ s b q, BusOne s b q ∧ q.reg = Reg.leaseCfg 1 15 ∧ bits q.val 9 0 = 1) := by
  have h : ∀ v ∈ [2147484, 2147485, 2 ^ 32 - 2147484, 2 ^ 32 - 2147485], (busReaches D (bw Reg.dtuAdj v) &&
      decide (busParts (bw Reg.dtuAdj v) = [rp Reg.dtuAdj v])) = true ∧ bits (rp Reg.dtuAdj v).val 31 0 = v := by decide +kernel
  exact ⟨⟨D.setRegF Reg.dtuStatus 4 4 1, bw Reg.dtuLoad 1, rp Reg.dtuLoad 1, one_of (by decide +kernel), rfl, by decide +kernel, by decide +kernel, by decide +kernel, by decide +kernel⟩,
    ⟨D, bw Reg.dtuLoad 0, rp Reg.dtuLoad 0, one_of (by decide +kernel), rfl, by decide +kernel⟩,
    fun v hv => ⟨D, bw Reg.dtuAdj v, rp Reg.dtuAdj v, one_of (h v hv).1, rfl, (h v hv).2⟩,
    ⟨D, bw (Reg.leaseCfg 1 15) 1, rp (Reg.leaseCfg 1 15) 1, one_of (by decide +kernel), rfl, by decide +kernel⟩⟩

def shoot0 : Shoot := { scope := 2, asid := 0, va := 0, waitReqs := [], waitOps := [] }

theorem witness_ShootDowns :
    (∃ s b q, BusOne s b q ∧ q.reg = Reg.shootCtl 1 ∧ s.regBit (Reg.shootStat 1) 0 = true) ∧
    (∃ s b q, BusOne s b q ∧ q.reg = Reg.shootCtl 1 ∧ s.regBit (Reg.shootStat 1) 0 = false) ∧
    (∃ s d h, s.ev.i = d ∧ s.gov.cmd = none ∧ s.ms.shoots.find d = some h ∧ (∀ i ∈ h.waitReqs, findReq s i = none) ∧
      (∀ i ∈ h.waitOps, s.ops.find i = none) ∧ handleBusy s d h = false) ∧
    (∃ s d h i, s.ev.i = d ∧ s.gov.cmd = none ∧ s.ms.shoots.find d = some h ∧ i ∈ h.waitReqs ∧ (findReq s i).isSome) := by
  let B := D.setRegF (Reg.shootStat 1) 0 0 1
  let E := { D with ms := { D.ms with shoots := [(0, shoot0)] } }
  let W := { D with ms := { D.ms with shoots := [(0, { shoot0 with waitReqs := [5] })], reqs := [req 5 (.warp 0) .fill] } }
  exact ⟨⟨B, bw (Reg.shootCtl 1) 1, rp (Reg.shootCtl 1) 1, one_of (by decide +kernel), rfl, by decide +kernel⟩,
    ⟨D, bw (Reg.shootCtl 1) 1, rp (Reg.shootCtl 1) 1, one_of (by decide +kernel), rfl, by decide +kernel⟩,
    ⟨E, 0, shoot0, rfl, rfl, rfl, by decide +kernel, by decide +kernel, by decide +kernel⟩,
    ⟨W, 0, _, 5, rfl, rfl, rfl, by decide +kernel, by decide +kernel⟩⟩

theorem witness_LeatPortCommands : ∀ b ∈ [true, false], ∃ s bus q, BusOne s bus q ∧ q.reg = Reg.lqCmd 1 3 ∧
    s.regBit (Reg.lqStat 1 3) 31 = b := by
  have h : ∀ b ∈ [true, false], let s := if b then D.setRegF (Reg.lqStat 1 3) 31 31 1 else D
      (busReaches s (bw (Reg.lqCmd 1 3) 1) && decide (busParts (bw (Reg.lqCmd 1 3) 1) = [rp (Reg.lqCmd 1 3) 1])) = true ∧
      s.regBit (Reg.lqStat 1 3) 31 = b := by decide +kernel
  exact fun b hb => ⟨_, _, _, one_of (h b hb).1, rfl, (h b hb).2⟩

def thr (st : ThState) : Thread := { Thread.empty with st := st }

/-- A space of ASID 0 for queue 31 of M1, whose PID 0 covers it. -/
def mqS : State := D.setReg (Reg.mqSatp 1 31) 0x9000000000000000

theorem witness_MappedQueueCommands :
    (∃ s b q, BusOne s b q ∧ q.reg = Reg.mqCfg 1 31 ∧ bit (mergeReg s q 0x800F0FFFFFFFFFC0) 63 = true ∧ (thread s 1 31).st ≠ .off) ∧
    (∀ ok ∈ [true, false], ∃ s b q, BusOne s b q ∧ q.reg = Reg.mqCfg 1 31 ∧
      (let v := mergeReg s q 0x800F0FFFFFFFFFC0
       let s1 := s.setReg (Reg.mqCfg 1 31) v
       bit v 63 = true ∧ (thread s 1 31).st = .off ∧ (thread s 1 31).stop = false ∧ (thread s 1 31).kept = false ∧
       (satpOk (s.reg (Reg.mqSatp 1 31)) && dramOk s1 (shadowPa s1 1 31) && dramOk s1 (shadowPa s1 1 31 + 2047) &&
         pidHasDie s1 (bits v 51 48) 1) = ok)) ∧
    (∃ s b q, BusOne s b q ∧ q.reg = Reg.mqCfg 1 31 ∧ bit (mergeReg s q 0x800F0FFFFFFFFFC0) 63 = false ∧ (thread s 1 31).st ≠ .adopted) ∧
    (∀ st ∈ [ThState.off, .halted], ∃ s b q, BusOne s b q ∧ q.reg = Reg.mqCtl 1 31 ∧ (thread s 1 31).st = st) ∧
    (∃ s b q, BusOne s b q ∧ b.src = .gov ∧ q.reg = Reg.qpAdopt 1 ∧ (∀ w ∈ s.lq.waiters, ∀ th, w.q.who ≠ .qp 0 th)) ∧
    (∀ a ∈ [true, false], ∃ s b q, BusOne s b q ∧ b.src = .gov ∧ q.reg = Reg.qpAdopt 1 ∧ s.regBit (Reg.qpStatus 1) 1 = a) := by
  let H := fun st => setThread D 1 31 (thr st)
  let P := fun (ok : Bool) => if ok then (mqS.setReg Reg.govPidmap 3).setReg Reg.ddxPidmap 3 else D.setReg (Reg.mqSatp 1 31) 0
  have p : ∀ ok ∈ [true, false], let s := P ok
      let v := mergeReg s (rp (Reg.mqCfg 1 31) (2 ^ 63)) 0x800F0FFFFFFFFFC0
      let s1 := s.setReg (Reg.mqCfg 1 31) v
      (busReaches s (bw (Reg.mqCfg 1 31) (2 ^ 63)) && decide (busParts (bw (Reg.mqCfg 1 31) (2 ^ 63)) = [rp (Reg.mqCfg 1 31) (2 ^ 63)])) = true ∧
      bit v 63 = true ∧ (thread s 1 31).st = .off ∧ (thread s 1 31).stop = false ∧ (thread s 1 31).kept = false ∧
      (satpOk (s.reg (Reg.mqSatp 1 31)) && dramOk s1 (shadowPa s1 1 31) && dramOk s1 (shadowPa s1 1 31 + 2047) &&
         pidHasDie s1 (bits v 51 48) 1) = ok := by decide +kernel
  have h : ∀ st ∈ [ThState.off, .halted], (busReaches (H st) (bw (Reg.mqCtl 1 31) 1) &&
      decide (busParts (bw (Reg.mqCtl 1 31) 1) = [rp (Reg.mqCtl 1 31) 1])) = true ∧ (thread (H st) 1 31).st = st := by decide +kernel
  have a : ∀ a ∈ [true, false], let s := if a then D.setRegF (Reg.qpStatus 1) 1 1 1 else D
      (busReaches s (bw (Reg.qpAdopt 1) 0) && decide (busParts (bw (Reg.qpAdopt 1) 0) = [rp (Reg.qpAdopt 1) 0])) = true ∧
      s.regBit (Reg.qpStatus 1) 1 = a := by decide +kernel
  exact ⟨⟨H .halted, bw (Reg.mqCfg 1 31) (2 ^ 63), rp (Reg.mqCfg 1 31) (2 ^ 63), one_of (by decide +kernel), rfl, by decide +kernel, by decide +kernel⟩,
    fun ok ho => ⟨P ok, _, _, one_of (p ok ho).1, rfl, (p ok ho).2⟩,
    ⟨D, bw (Reg.mqCfg 1 31) 0, rp (Reg.mqCfg 1 31) 0, one_of (by decide +kernel), rfl, by decide +kernel, by decide +kernel⟩,
    fun st hst => ⟨H st, _, _, one_of (h st hst).1, rfl, (h st hst).2⟩,
    ⟨D, bw (Reg.qpAdopt 1) (2 ^ 62), rp (Reg.qpAdopt 1) (2 ^ 62), one_of (by decide +kernel), rfl, rfl, fun _ h => (List.not_mem_nil h).elim⟩,
    fun x hx => ⟨_, bw (Reg.qpAdopt 1) 0, rp (Reg.qpAdopt 1) 0, one_of (a x hx).1, rfl, rfl, (a x hx).2⟩⟩

/-- Whether a write of register r is one of it alone. -/
def oneB (s : State) (r v : Nat) : Bool := busReaches s (bw r v) && decide (busParts (bw r v) = [rp r v])

theorem bone {s : State} {r v : Nat} (h : oneB s r v = true) : BusOne s (bw r v) (rp r v) := one_of h

/-- Graph 63 of one node, a SIGNAL INTR. -/
def gS (en stat : Nat) : State :=
  (((((D.setReg Reg.graphMem 0x1305).setReg (Reg.graphSatp 63) 0x9000000000000000).setReg Reg.govPidmap 0).setReg (Reg.graphCfg 63) (BitVec.ofNat 64 (2 ^ 63 * en + 65536))).setReg
    (Reg.graphStat 63) (BitVec.ofNat 64 stat))

/-- Job card 1023: a periodic vision card whose save area is the first 64 KiB of DRAM. -/
def pcard : State :=
  let c := Reg.card 1023
  [(c, 0x10000), (c + 8, 1000000), (c + 16, 5), (c + 24, 1), (c + 32, 0x9000000000000000), (c + 56, 1)].foldl
    (fun (s : State) e => s.setReg e.1 (BitVec.ofNat 64 e.2)) (D.setReg Reg.govPidmap 0)

def cst (n : Nat) (s : State) : State := s.setReg (Reg.card 1023 + 112) (BitVec.ofNat 64 n)

theorem witness_GraphAndCardCommands :
    (∀ st ∈ [1, 2], ∃ s b q, BusOne s b q ∧ q.reg = Reg.graphCfg 63 ∧ s.regF (Reg.graphStat 63) 1 0 = st) ∧
    (∀ ok ∈ [true, false], ∃ s b q, BusOne s b q ∧ q.reg = Reg.graphCfg 63 ∧
      (let v := mergeReg s q 0x8000000FFFFFFFFF
       s.regF (Reg.graphStat 63) 1 0 ≠ 1 ∧ bit v 63 = true ∧ graphValid (s.setReg (Reg.graphCfg 63) v) 63 = ok)) ∧
    (∀ e ∈ [(false, 0), (true, 1), (true, 0)], ∃ s b q, BusOne s b q ∧ q.reg = Reg.graphTrig 63 ∧
      s.regBit (Reg.graphCfg 63) 63 = e.1 ∧ s.regF (Reg.graphStat 63) 1 0 = e.2 ∧ bits q.val 63 55 = 0) ∧
    (∀ e ∈ [(11, true), (12, true), (11, false)], ∃ s b q, BusOne s b q ∧ q.reg = Reg.card 1023 + 8 * e.1 ∧ cardFree s 1023 = e.2) ∧
    (∀ ok ∈ [true, false], ∃ s b q, BusOne s b q ∧ q.reg = Reg.ddxCmd ∧ bits q.val 9 0 = 1023 ∧
      s.gov.holdPids.contains (cardPid s 1023) = false ∧
      (cardFree s 1023 && !cardIsLaunch s 1023 && cardValid s 1023 && decide (s.time.hub < nextRel s 1023)) = ok) ∧
    (∃ s b q, BusOne s b q ∧ q.reg = Reg.ddxCmd ∧ bits q.val 9 0 = 1023 ∧ cardFree s 1023 = false ∧ cardState s 1023 ≠ 4) ∧
    (∃ s b q, BusOne s b q ∧ q.reg = Reg.ddxCmd ∧ bits q.val 9 0 = 1023 ∧ cardState s 1023 = 4 ∧ tileOf s 1023 = none) := by
  have h1 : ∀ st ∈ [1, 2], oneB (gS 0 st) (Reg.graphCfg 63) 0 = true ∧ (gS 0 st).regF (Reg.graphStat 63) 1 0 = st := by decide +kernel
  have h2 : ∀ ok ∈ [true, false], let s := gS 0 0
      let w := if ok then 2 ^ 63 + 65536 else 2 ^ 63
      let v := mergeReg s (rp (Reg.graphCfg 63) w) 0x8000000FFFFFFFFF
      oneB s (Reg.graphCfg 63) w = true ∧ s.regF (Reg.graphStat 63) 1 0 ≠ 1 ∧ bit v 63 = true ∧
      graphValid (s.setReg (Reg.graphCfg 63) v) 63 = ok := by decide +kernel
  have h3 : ∀ e ∈ [(false, 0), (true, 1), (true, 0)], let s := gS (if e.1 then 1 else 0) e.2
      oneB s (Reg.graphTrig 63) 0 = true ∧ s.regBit (Reg.graphCfg 63) 63 = e.1 ∧ s.regF (Reg.graphStat 63) 1 0 = e.2 ∧
      bits (rp (Reg.graphTrig 63) 0).val 63 55 = 0 := by decide +kernel
  have h4 : ∀ e ∈ [(11, true), (12, true), (11, false)], let s := cst (if e.2 then 0 else 2) D
      oneB s (Reg.card 1023 + 8 * e.1) 0 = true ∧ cardFree s 1023 = e.2 := by decide +kernel
  have h5 : ∀ ok ∈ [true, false], let s := if ok then pcard else D
      oneB s Reg.ddxCmd 1023 = true ∧ bits (rp Reg.ddxCmd 1023).val 9 0 = 1023 ∧ s.gov.holdPids.contains (cardPid s 1023) = false ∧
      (cardFree s 1023 && !cardIsLaunch s 1023 && cardValid s 1023 && decide (s.time.hub < nextRel s 1023)) = ok := by decide +kernel
  exact ⟨fun x h => ⟨_, _, _, bone (h1 x h).1, rfl, (h1 x h).2⟩, fun x h => ⟨_, _, _, bone (h2 x h).1, rfl, (h2 x h).2⟩,
    fun x h => ⟨_, _, _, bone (h3 x h).1, rfl, (h3 x h).2⟩, fun x h => ⟨_, _, _, bone (h4 x h).1, rfl, (h4 x h).2⟩,
    fun x h => ⟨_, _, _, bone (h5 x h).1, rfl, (h5 x h).2⟩,
    ⟨cst 2 D, bw Reg.ddxCmd 1023, rp Reg.ddxCmd 1023, bone (by decide +kernel), rfl, by decide +kernel, by decide +kernel, by decide +kernel⟩,
    ⟨cst 4 D, bw Reg.ddxCmd 1023, rp Reg.ddxCmd 1023, bone (by decide +kernel), rfl, by decide +kernel, by decide +kernel, by decide +kernel⟩⟩

theorem witness_SluiceAndOverlayCommands :
    (∃ s b q, BusOne s b q ∧ q.reg = Reg.sluCfg 15 72 ∧ bits q.val 25 16 = 1001 ∧ (∀ x ∈ s.ms.reqs, Req.atSluice 15 72 x = false) ∧
      s.regBit (Reg.sluCfg 15 72) 31 = false ∧ bit q.val 31 = true) ∧
    (∀ e ∈ [(0, true), (1, false)], ∃ s b q, BusOne s b q ∧ q.reg = Reg.ovlCmd 55 ∧ bit q.val 63 = true ∧
      s.regBit (Reg.ovlCmdStat 55) 31 = false ∧ decide (bits q.val 27 0 = 0) = e.2) := by
  let v := 2 ^ 31 + 65536 * 1001
  have h : ∀ e ∈ [(0, true), (1, false)], oneB D (Reg.ovlCmd 55) (2 ^ 63 + e.1) = true ∧
      bit (rp (Reg.ovlCmd 55) (2 ^ 63 + e.1)).val 63 = true ∧ D.regBit (Reg.ovlCmdStat 55) 31 = false ∧
      decide (bits (rp (Reg.ovlCmd 55) (2 ^ 63 + e.1)).val 27 0 = 0) = e.2 := by decide +kernel
  exact ⟨⟨D, bw (Reg.sluCfg 15 72) v, rp (Reg.sluCfg 15 72) v, bone (by decide +kernel), rfl, by decide +kernel, by decide +kernel,
      by decide +kernel, by decide +kernel⟩,
    fun e he => ⟨_, _, _, bone (h e he).1, rfl, (h e he).2.1, (h e he).2.2.1, (h e he).2.2.2⟩⟩

/-- Warp 0 of card 0, trapped. -/
def trapped0 : State := vst fun w => { w with st := .trapped }

theorem witness_ContextCommands :
    (∀ st ∈ [WState.trapped, .ready], ∃ s b q, BusOne s b q ∧ q.reg = Reg.ctxCmd 3 ∧ s.regBit (Reg.ctxStat 3) 31 = false ∧
      bits (s.reg (Reg.ctxId 3)) 12 10 = 0 ∧ cardGen s (bits (s.reg (Reg.ctxId 3)) 9 0) = bits (s.reg (Reg.ctxId 3)) 31 16 ∧
      (findWarp s 0 0 (s.reg (Reg.ctxTarget 3)).toNat).map (fun e => (e.2.st, decide (e.2.liveMask ≠ 0))) = some (st, true)) ∧
    (∃ s b q, BusOne s b q ∧ q.reg = Reg.ctxCmd 3 ∧ s.regBit (Reg.ctxStat 3) 31 = false ∧ bits (s.reg (Reg.ctxId 3)) 12 10 = 0 ∧
      cardGen s (bits (s.reg (Reg.ctxId 3)) 9 0) = bits (s.reg (Reg.ctxId 3)) 31 16 ∧
      findWarp s 0 0 (s.reg (Reg.ctxTarget 3)).toNat = none) := by
  let S := fun st => (vst fun w => { w with st := st })
  let T := fun st => (S st).setReg (Reg.ctxTarget 3) (BitVec.ofNat 64 (warpTarget (S st) (warp0 (S st))))
  have h : ∀ st ∈ [WState.trapped, .ready], let s := T st
      oneB s (Reg.ctxCmd 3) 1 = true ∧ s.regBit (Reg.ctxStat 3) 31 = false ∧ bits (s.reg (Reg.ctxId 3)) 12 10 = 0 ∧
      cardGen s (bits (s.reg (Reg.ctxId 3)) 9 0) = bits (s.reg (Reg.ctxId 3)) 31 16 ∧
      (findWarp s 0 0 (s.reg (Reg.ctxTarget 3)).toNat).map (fun e => (e.2.st, decide (e.2.liveMask ≠ 0))) = some (st, true) := by
    decide +kernel
  exact ⟨fun st hst => ⟨T st, _, _, bone (h st hst).1, rfl, (h st hst).2⟩,
    ⟨D, bw (Reg.ctxCmd 3) 1, rp (Reg.ctxCmd 3) 1, bone (by decide +kernel), rfl, by decide +kernel, by decide +kernel, by decide +kernel,
      by decide +kernel⟩⟩

/-- The path engine of M0 with card 0. -/
def pce0 (st : PceState) : Pce :=
  { st := st, stop := false, card := some { card := 0, gen := 0 }, idx := 0, cmd := none, surf := [], pos := 0, cur := (0, 0),
    startPt := (0, 0), open_ := false, segs := [], move := 0, priv := [], gathered := false, spawns := [], ch := 0, back := .command,
    ecc := none }

theorem witness_PathSkip : ∀ bk ∈ [PceBack.header, .command], ∃ s b q d x, BusOne s b q ∧ q.reg = Reg.ctxCmd 3 ∧
    s.regBit (Reg.ctxStat 3) 31 = false ∧ bits (s.reg (Reg.ctxId 3)) 12 10 = 2 ∧
    cardGen s (bits (s.reg (Reg.ctxId 3)) 9 0) = bits (s.reg (Reg.ctxId 3)) 31 16 ∧
    findPce s (bits (s.reg (Reg.ctxId 3)) 9 0) = some (d, x) ∧ x.st = .trapped ∧ x.back = bk := by
  let S := fun bk => ({ D with pces := [(0, { pce0 .trapped with back := bk })] } : State).setReg (Reg.ctxId 3) 2048
  have h : ∀ bk ∈ [PceBack.header, .command], let s := S bk
      oneB s (Reg.ctxCmd 3) 4 = true ∧ s.regBit (Reg.ctxStat 3) 31 = false ∧ bits (s.reg (Reg.ctxId 3)) 12 10 = 2 ∧
      cardGen s (bits (s.reg (Reg.ctxId 3)) 9 0) = bits (s.reg (Reg.ctxId 3)) 31 16 ∧
      findPce s (bits (s.reg (Reg.ctxId 3)) 9 0) = some (0, { pce0 .trapped with back := bk }) := by decide +kernel
  exact fun bk hb => ⟨S bk, _, _, 0, { pce0 .trapped with back := bk }, bone (h bk hb).1, rfl, (h bk hb).2.1, (h bk hb).2.2.1,
    (h bk hb).2.2.2.1, (h bk hb).2.2.2.2, rfl, rfl⟩

def arg (n : Nat) : State := D.setReg Reg.govArg0 (BitVec.ofNat 64 n)

theorem witness_GovernorCommands :
    (∀ y ∈ [true, false], ∃ s b q, BusOne s b q ∧ q.reg = Reg.govCmd ∧ s.regBit Reg.govStat 31 = y ∧ s.gov.warm = false) ∧
    (∃ s b q, BusOne s b q ∧ q.reg = Reg.govCmd ∧ s.regBit Reg.govStat 31 = false ∧ s.gov.warm = false ∧ s.gov.minimal = false ∧
      (s.reg Reg.govArg0).toNat = 0x3F ∧ pidsBusy s [15] = none) ∧
    (∃ s b q, BusOne s b q ∧ q.reg = Reg.govCmd ∧ s.regBit Reg.govStat 31 = false ∧ s.gov.warm = false ∧ s.gov.minimal = false ∧
      (s.reg Reg.govArg0).toNat = 0x30 ∧ pidsBusy s [0] ≠ none) ∧
    (∀ a ∈ [256, 0x40, 0xEF, 4, 16, 2, 15, 1, 0], ∃ s b q, BusOne s b q ∧ q.reg = Reg.govCmd ∧ s.regBit Reg.govStat 31 = false ∧
      s.gov.warm = false ∧ (s.reg Reg.govArg0).toNat = a) ∧
    (∃ s b q, BusOne s b q ∧ q.reg = Reg.govCmd ∧ s.regBit Reg.govStat 31 = false ∧ s.gov.warm = false ∧ s.gov.minimal = false ∧
      (s.reg Reg.govArg0).toNat = 3 ∧ mergeOk s 3 = true ∧ pidsBusy s (maskPids s 3) = none ∧ leatHeld s (rehomed s (.merge 3)) = false ∧
      s.ms.dir = [] ∧ s.ms.hc = []) ∧
    (∃ s b q, BusOne s b q ∧ q.reg = Reg.govCmd ∧ s.regBit Reg.govStat 31 = false ∧ s.gov.warm = false ∧ s.gov.minimal = false ∧
      (s.reg Reg.govArg0).toNat = 3 ∧ splitOk s 3 = true ∧ pidsBusy s (maskPids s 3) = none ∧ leatHeld s (rehomed s (.split 3)) = false ∧
      s.ms.dir = [] ∧ s.ms.hc = []) ∧
    (∃ s b q, BusOne s b q ∧ q.reg = Reg.govCmd ∧ s.regBit Reg.govStat 31 = false ∧ s.gov.warm = false ∧
      (s.reg Reg.govArg0).toNat = 15 ∧ tooSoon s 15 = true) ∧
    (∃ s b q, BusOne s b q ∧ q.reg = Reg.govCmd ∧ s.regBit Reg.govStat 31 = false ∧ s.gov.warm = false ∧ s.gov.holdReset = false) ∧
    (∃ s b q, BusOne s b q ∧ q.reg = Reg.govSnapT ∧ mergeReg s q (2 ^ 64 - 1) = 0) := by
  have h1 : ∀ y ∈ [true, false], let s := if y then D.setRegF Reg.govStat 31 31 1 else D
      oneB s Reg.govCmd 1 = true ∧ s.regBit Reg.govStat 31 = y ∧ s.gov.warm = false := by decide +kernel
  have h2 : ∀ a ∈ [256, 0x40, 0xEF, 4, 16, 2, 15, 1, 0], let s := arg a
      oneB s Reg.govCmd 1 = true ∧ s.regBit Reg.govStat 31 = false ∧ s.gov.warm = false ∧ (s.reg Reg.govArg0).toNat = a := by decide +kernel
  let B := setCardState (setCardSt (arg 0x30) 0 CardSt.none) 0 1
  let M := (arg 3).setReg Reg.govPart 0xE0
  let R := { arg 15 with gov := { Gov.reset with pidRestart := [(15, 0)] } }
  exact ⟨fun x h => ⟨_, _, _, bone (h1 x h).1, rfl, (h1 x h).2⟩,
    ⟨arg 0x3F, bw Reg.govCmd 1, rp Reg.govCmd 1, bone (by decide +kernel), rfl, by decide +kernel, rfl, rfl, by decide +kernel, by decide +kernel⟩,
    ⟨B, bw Reg.govCmd 1, rp Reg.govCmd 1, bone (by decide +kernel), rfl, by decide +kernel, rfl, rfl, by decide +kernel, by decide +kernel⟩,
    fun x h => ⟨_, _, _, bone (h2 x h).1, rfl, (h2 x h).2⟩,
    ⟨arg 3, bw Reg.govCmd 2, rp Reg.govCmd 2, bone (by decide +kernel), rfl, by decide +kernel, rfl, rfl, by decide +kernel,
      by decide +kernel, by decide +kernel, by decide +kernel, rfl, rfl⟩,
    ⟨M, bw Reg.govCmd 3, rp Reg.govCmd 3, bone (by decide +kernel), rfl, by decide +kernel, rfl, rfl, by decide +kernel,
      by decide +kernel, by decide +kernel, by decide +kernel, rfl, rfl⟩,
    ⟨R, bw Reg.govCmd 4, rp Reg.govCmd 4, bone (by decide +kernel), rfl, by decide +kernel, rfl, by decide +kernel, by decide +kernel⟩,
    ⟨UP, bw Reg.govCmd 7, rp Reg.govCmd 7, bone (by decide +kernel), rfl, by decide +kernel, rfl, rfl⟩,
    ⟨D, bw Reg.govSnapT 0, rp Reg.govSnapT 0, bone (by decide +kernel), rfl, by decide +kernel⟩⟩

/-! ## Witnesses: packets and path commands -/

def rec64 (w0 w1 w2 w3 w4 : Nat) : Rec64 :=
  { w0 := BitVec.ofNat 64 w0, w1 := BitVec.ofNat 64 w1, w2 := BitVec.ofNat 64 w2, w3 := BitVec.ofNat 64 w3, w4 := BitVec.ofNat 64 w4,
    w5 := 0, w6 := 0, w7 := 0 }

/-- Thread 0 of M0's queue processor at a packet in its shadow, with virtual page 0 mapped. -/
def qst (p : Rec64) (f : Thread → Thread) : State :=
  let s := placePacket State.reset p
  let s1 := setThread s 0 0 (f (thread s 0 0))
  { s1 with focus := .qp 0 0, ms := { s1.ms with tlb := [page0 0 100] } }

/-- The state on which the packet acts, its read made. -/
def qu (s : State) : State := (qpReads (qpOwesNot s 0 0).2 0 0 [(thread s 0 0).idx]).2

def perfB (s : State) : Bool :=
  decide (s.focus = .qp 0 0 ∧ qpRuns s 0 0 = true ∧ (thread s 0 0).st = .exec) && (qpOwesNot s 0 0).1 &&
    (qpReads (qpOwesNot s 0 0).2 0 0 [(thread s 0 0).idx]).1

theorem perf_of {s : State} (h : perfB s = true) : Performs s 0 0 (qu s) := by
  simp only [perfB, Bool.and_eq_true, decide_eq_true_eq] at h
  exact ⟨h.1.1.1, h.1.1.2.1, h.1.1.2.2, _, Prod.ext h.1.2 rfl, Prod.ext h.2 rfl⟩

/-- The state in which an effect of thread 0 of M0 may go out, and whether it may. -/
def sendsV (u : State) : State :=
  if (thread u 0 0).issued then u
  else qpStage (setThread u 0 0 { thread u 0 0 with issued := true }) 0 0 2 (thread u 0 0).idx
def sendsB (u : State) : Bool := decide ((thread (sendsV u) 0 0).owes = none) && qpReleased (sendsV u) 0

theorem sends_of {u : State} (h : sendsB u = true) : Sends u (sendsV u) 0 0 := by
  simp only [sendsB, Bool.and_eq_true, decide_eq_true_eq] at h
  exact ⟨rfl, h⟩

/-- Whether a translation gives an address and changes nothing, and whether it traps. -/
def trIs (x : Tr × State) (pa : Nat) (s : State) : Bool :=
  match x with
  | (.ok p, u) => decide (p = pa ∧ u = s)
  | _ => false
def trTraps (x : Tr × State) : Bool :=
  match x with
  | (.trap _ _, _) => true
  | _ => false

theorem witness_PacketOutcomes :
    (∃ s, (thread s 0 0).armLeft = 0 ∧ (thread s 0 0).issued = true) ∧ (∃ s, (thread s 1 63).armLeft ≠ 0 ∧ (thread s 1 63).issued = false) :=
  ⟨⟨setThread D 0 0 { Thread.empty with issued := true }, by decide +kernel, by decide +kernel⟩,
    ⟨setThread D 1 63 { Thread.empty with armLeft := 1 }, by decide +kernel, by decide +kernel⟩⟩

/-- What a LAUNCH prepares: its release, after which card c is free or not, and the effect may go out; or an error. -/
def prepIs (u : State) (p : Rec64) (free : Bool) : Bool :=
  match launchPrep u p 0 100 (.queue (thDie 0 0) 0 (thread u 0 0).pktSeq 0) with
  | (.ok r, v) =>
    let w := setThread v 0 0 { thread v 0 0 with prep := some r }
    decide (acceptedAs w 0 0 = none ∧ cardFree w (lCard p) = free) && sendsB w
  | _ => false
def prepErr (u : State) (p : Rec64) : Option Nat :=
  match launchPrep u p 0 100 (.queue (thDie 0 0) 0 (thread u 0 0).pktSeq 0) with
  | (.err n, _) => some n
  | _ => none

/-- A LAUNCH of card 0 with its header at virtual address 0, of a grid of one block of one thread. -/
def launch0 : Rec64 := rec64 0x401 0 0 0x100010001 0

/-- A launch card 0, and its header in page 0. -/
def LS (f : Thread → Thread) (st : Nat) (h : List Nat) : State :=
  let c := Reg.card 0
  let s := qst launch0 f
  let s1 := [(c, 0x10004), (c + 24, 1), (c + 32, 0x9000000000000000), (c + 56, 1)].foldl
    (fun (s : State) e => s.setReg e.1 (BitVec.ofNat 64 e.2)) (s.setReg Reg.govPidmap 0)
  setCardState (s1.setMem (s1.ms.mem.writeN 0x1000 (wordsBytes (h.map fun n => BitVec.ofNat 64 n)))) 0 st

def hdr1 : List Nat := [0x14B484452, 0, 1 + 2 ^ 12 + 2 ^ 24 + 2 ^ 36 + 2 ^ 44 + 2 ^ 52, 0, 0, 0, 0, 0]

theorem witness_PacketWords_launch :
    (∀ y ∈ [true, false], ∃ s u p, Performs s 0 0 u ∧ nopFields p = y) ∧
    (∃ s u p, Performs s 0 0 u ∧ (thread u 0 0).blk = none ∧ (thread u 0 0).prep = none ∧ launchFields p = false) ∧
    (∃ s u p, Performs s 0 0 u ∧ (thread u 0 0).blk = none ∧ (thread u 0 0).prep = none ∧ launchFields p = true ∧
      launchCardOk u p (qPid u 0 0) = false) ∧
    (∃ s u p n, Performs s 0 0 u ∧ (thread u 0 0).blk = none ∧ (thread u 0 0).prep = none ∧ launchFields p = true ∧
      launchCardOk u p (qPid u 0 0) = true ∧ prepErr u p = some n) ∧
    (∀ y ∈ [true, false], ∃ s u p, Performs s 0 0 u ∧ (thread u 0 0).blk = none ∧ (thread u 0 0).prep = none ∧ launchFields p = true ∧
      launchCardOk u p (qPid u 0 0) = true ∧ prepIs u p y = true) ∧
    (∀ e ∈ [(0, true), (0, false), (3, true)], ∃ (s u : State) (p : Rec64) (a : LAns), Performs s 0 0 u ∧ (thread u 0 0).blk = some .ask ∧
      (thread u 0 0).ans = some a ∧ a.status = e.1 ∧ bit p.w0 8 = e.2 ∧ acceptedAs u 0 0 = some (0, 7)) ∧
    (∃ s u, Performs s 0 0 u ∧ (thread u 0 0).blk = some (.work 0 0)) := by
  let N := qst (rec64 0 0 0 0 0) id
  let A := fun n => let s := qst (rec64 0x501 0 0 0 0) fun t => { t with blk := some .ask, ans := some (LAns.st n) }
    s.withDdx { s.ddx with ids := [(0, 0, 0, 0, 7)] }
  have h : ∀ n ∈ [0, 3], perfB (A n) = true ∧ (thread (qu (A n)) 0 0).blk = some .ask ∧
      (thread (qu (A n)) 0 0).ans = some (LAns.st n) ∧ (LAns.st n).status = n ∧ acceptedAs (qu (A n)) 0 0 = some (0, 7) := by decide +kernel
  have n : perfB N = true ∧ (thread (qu N) 0 0).blk = none ∧ (thread (qu N) 0 0).prep = none := by decide +kernel
  have y : ∀ y ∈ [true, false], let s := LS id (if y then 0 else 3) hdr1
      perfB s = true ∧ (thread (qu s) 0 0).blk = none ∧ (thread (qu s) 0 0).prep = none ∧ launchFields launch0 = true ∧
        launchCardOk (qu s) launch0 (qPid (qu s) 0 0) = true ∧ prepIs (qu s) launch0 y = true := by decide +kernel
  refine ⟨fun y hy => ⟨N, _, if y then rec64 0 0 0 0 0 else rec64 256 0 0 0 0, perf_of n.1, ?_⟩,
    ⟨N, _, rec64 (2 ^ 31) 0 0 0 0, perf_of n.1, n.2.1, n.2.2, by decide +kernel⟩,
    ⟨N, _, launch0, perf_of n.1, n.2.1, n.2.2, by decide +kernel, by decide +kernel⟩,
    ⟨LS id 0 [], _, launch0, 2, perf_of (by decide +kernel), by decide +kernel, by decide +kernel, by decide +kernel, by decide +kernel, by decide +kernel⟩,
    fun b hb => ⟨_, _, launch0, perf_of (y b hb).1, (y b hb).2⟩,
    fun e he => ⟨A e.1, qu (A e.1), rec64 (if e.2 then 0x501 else 0x401) 0 0 0 0, LAns.st e.1, ?_⟩,
    ⟨qst launch0 fun t => { t with blk := some (.work 0 0) }, _, perf_of (by decide +kernel), by decide +kernel⟩⟩
  · revert y; decide
  · have k : e.1 ∈ [0, 3] := by revert e; decide
    exact ⟨perf_of (h _ k).1, (h _ k).2.1, (h _ k).2.2.1, (h _ k).2.2.2.1, by revert e; decide, (h _ k).2.2.2.2⟩

/-- Whether the test of a WAIT reads its word, and how it ends. -/
def testIs (u : State) (p : Rec64) (y : Bool) : Bool :=
  match translate u (qSpace u 0 0) p.w1.toNat .read with
  | (.ok pa, v) =>
    (match homeRead v 71 (qPid v 0 0) (pa / 64) with
     | (true, w) => decide (pa = 0x1008 ∧ testWord p (mem64 w pa) = y)
     | _ => false)
  | _ => false

/-- A test that holds and one that does not, without and with a TIMEOUT that is reached; a fault; a time alone. -/
theorem witness_PacketWords_wait :
    (∃ s u p, Performs s 0 0 u ∧ waitFields p = false) ∧
    (∃ s u p, Performs s 0 0 u ∧ waitFields p = true ∧ p.w1 ≠ 0 ∧ trTraps (translate u (qSpace u 0 0) p.w1.toNat .read) = true) ∧
    (∀ e ∈ [(2, 0), (0x102, 0), (0x102, 1), (0x902, 1)], ∃ s u p, Performs s 0 0 u ∧ waitFields p = true ∧ p.w1 ≠ 0 ∧
      p.w4.toNat = e.2 ∧ p.w4.toNat ≤ (qpBlock u 0 0 (.cond 0 0 false)).now 0 ∧ bit p.w0 11 = decide (e.1 = 0x902) ∧
      testIs u p (decide (e.1 = 2)) = true) ∧
    (∀ n ∈ [1, 2], ∃ s u p, Performs s 0 0 u ∧ waitFields p = true ∧ p.w1 = 0 ∧ p.w4.toNat = n ∧ u.now 0 = 1) := by
  let W := qst (rec64 2 8 0 0 0) id
  let T := { W with time := { W.time with m0 := 1 } }
  have w : perfB W = true ∧ perfB T = true := by decide +kernel
  have h : ∀ e ∈ [(2, 0), (0x102, 0), (0x102, 1), (0x902, 1)], let p := rec64 e.1 8 0 0 e.2
      waitFields p = true ∧ p.w1 ≠ 0 ∧ p.w4.toNat = e.2 ∧ p.w4.toNat ≤ (qpBlock (qu T) 0 0 (.cond 0 0 false)).now 0 ∧
      bit p.w0 11 = decide (e.1 = 0x902) ∧ testIs (qu T) p (decide (e.1 = 2)) = true := by decide +kernel
  have t : ∀ n ∈ [1, 2], waitFields (rec64 2 0 0 0 n) = true ∧ (rec64 2 0 0 0 n).w1 = 0 ∧ (rec64 2 0 0 0 n).w4.toNat = n ∧
      (qu T).now 0 = 1 := by decide +kernel
  exact ⟨⟨W, _, rec64 (2 ^ 31) 0 0 0 0, perf_of w.1, by decide +kernel⟩,
    ⟨W, _, rec64 2 0x5000 0 0 0, perf_of w.1, by decide +kernel, by decide +kernel, by decide +kernel⟩,
    fun e he => ⟨T, _, _, perf_of w.2, h e he⟩, fun n hn => ⟨T, _, _, perf_of w.2, t n hn⟩⟩

/-- The packets of a PRED's arms, read at the shadow. -/
def armsAt (u : State) (n : Nat) : Bool × State := qpReads u 0 0 (List.range n)
def armsOk (v : State) (n : Nat) : Bool := ((List.range (n - 1)).map fun k => shadowPkt v 0 0 (k + 1)).all armFields

/-- Arms still to be gathered, a bad packet in one, and both outcomes of the test. -/
theorem witness_PacketWords_pred :
    (∃ s u p, Performs s 0 0 u ∧ (thread u 0 0).idx = 0 ∧ predFields p = false) ∧
    (∃ s u p, Performs s 0 0 u ∧ (thread u 0 0).idx = 0 ∧ predFields p = true ∧
      (thread u 0 0).have_ < 1 + bits p.w0 23 16 + bits p.w0 31 24) ∧
    (∃ s u p, Performs s 0 0 u ∧ (thread u 0 0).idx = 0 ∧ predFields p = true ∧ (thread u 0 0).have_ = 3 ∧
      1 + bits p.w0 23 16 + bits p.w0 31 24 = 3 ∧ (armsAt u 3).1 = true ∧ armsOk (armsAt u 3).2 3 = false) ∧
    (∀ y ∈ [true, false], ∃ s u p, Performs s 0 0 u ∧ (thread u 0 0).idx = 0 ∧ predFields p = true ∧ (thread u 0 0).have_ = 3 ∧
      1 + bits p.w0 23 16 + bits p.w0 31 24 = 3 ∧ (armsAt u 3).1 = true ∧ armsOk (armsAt u 3).2 3 = true ∧
      testIs (((List.range 2).map fun k => shadowPkt (armsAt u 3).2 0 0 (k + 1)).foldl (fun a q => prefetch a 0 q) (armsAt u 3).2) p y = true) := by
  let P := fun n => qst (rec64 0x01010003 8 0 0 0) fun t => { t with have_ := n }
  let B := (P 3).setMem ((P 3).ms.mem.writeN 192 [0, 0, 0, 128])
  have b : perfB B = true ∧ (thread (qu B) 0 0).idx = 0 ∧ (thread (qu B) 0 0).have_ = 3 ∧ (armsAt (qu B) 3).1 = true ∧
      armsOk (armsAt (qu B) 3).2 3 = false := by decide +kernel
  have y : ∀ y ∈ [true, false], let p := rec64 (if y then 0x01010003 else 0x01010103) 8 0 0 0
      perfB (P 3) = true ∧ (thread (qu (P 3)) 0 0).idx = 0 ∧ predFields p = true ∧ (thread (qu (P 3)) 0 0).have_ = 3 ∧
      1 + bits p.w0 23 16 + bits p.w0 31 24 = 3 ∧ (armsAt (qu (P 3)) 3).1 = true ∧ armsOk (armsAt (qu (P 3)) 3).2 3 = true ∧
      testIs (((List.range 2).map fun k => shadowPkt (armsAt (qu (P 3)) 3).2 0 0 (k + 1)).foldl (fun a q => prefetch a 0 q)
        (armsAt (qu (P 3)) 3).2) p y = true := by decide +kernel
  exact ⟨⟨P 1, _, rec64 0x800 0 0 0 0, perf_of (by decide +kernel), by decide +kernel, by decide +kernel⟩,
    ⟨P 1, _, rec64 0x01010003 8 0 0 0, perf_of (by decide +kernel), by decide +kernel, by decide +kernel, by decide +kernel⟩,
    ⟨B, _, rec64 0x01010003 8 0 0 0, perf_of b.1, b.2.1, by decide +kernel, b.2.2.1, by decide +kernel, b.2.2.2⟩,
    fun b hb => ⟨P 3, _, _, perf_of (y b hb).1, (y b hb).2⟩⟩

/-- How a TRIGGER whose effect may go out triggers its graph. -/
def trigIs (u : State) (p : Rec64) (n : Nat) : Bool :=
  match translate u (qSpace u 0 0) p.w1.toNat .read with
  | (.ok pa, s1) =>
    let v := sendsV s1
    let g := bits p.w0 21 16
    let x := readPatches v g (tNp p) pa
    sendsB s1 && decide (acceptedAs v 0 0 = none) && x.1 && decide ((triggerGraph x.2 g (tNp p) pa).1 = n)
  | _ => false

/-- Graph 63 idle, running and disabled, with and without ASYNC; a run that has ended. -/
theorem witness_PacketWords_trigger :
    (∃ s u p, Performs s 0 0 u ∧ (thread u 0 0).blk = none ∧ trigFields p = false) ∧
    (∃ s u p, Performs s 0 0 u ∧ (thread u 0 0).blk = none ∧ trigFields p = true ∧
      trTraps (translate u (qSpace u 0 0) p.w1.toNat .read) = true) ∧
    (∀ n ∈ [0, 1, 2], ∀ y ∈ [true, false], ∃ s u p, Performs s 0 0 u ∧ (thread u 0 0).blk = none ∧ trigFields p = true ∧
      bit p.w0 8 = y ∧ trigIs u p n = true) ∧
    (∃ s u g r, Performs s 0 0 u ∧ (thread u 0 0).blk = some (.graphRun g r)) := by
  let p := fun (y : Bool) => rec64 (0x3F0004 + if y then 256 else 0) 0 0 0 0
  let S := fun n => ((qst (p false) id).setReg (Reg.graphCfg 63) (BitVec.ofNat 64 ((if n = 1 then 0 else 2 ^ 63) + 65536))).setReg
    (Reg.graphStat 63) (if n = 2 then 1 else 0)
  have h : ∀ n ∈ [0, 1, 2], perfB (S n) = true ∧ (thread (qu (S n)) 0 0).blk = none ∧
      ∀ y ∈ [true, false], trigFields (p y) = true ∧ bit (p y).w0 8 = y ∧ trigIs (qu (S n)) (p y) n = true := by decide +kernel
  exact ⟨⟨S 0, _, rec64 (2 ^ 31) 0 0 0 0, perf_of (h 0 (by simp)).1, (h 0 (by simp)).2.1, by decide +kernel⟩,
    ⟨S 0, _, rec64 0x3F0004 0x5000 0 0 0, perf_of (h 0 (by simp)).1, (h 0 (by simp)).2.1, by decide +kernel, by decide +kernel⟩,
    fun n hn y hy => ⟨S n, _, p y, perf_of (h n hn).1, (h n hn).2.1, (h n hn).2.2 y hy⟩,
    ⟨qst (p false) fun t => { t with blk := some (.graphRun 63 0) }, _, 63, 0, perf_of (by decide +kernel), by decide +kernel⟩⟩

/-- Whether a SIGNAL's effect may go out, and its write be performed at its home on a sector that is poisoned or not. -/
def storeIs (u : State) (p : Rec64) (bad : Bool) : Bool :=
  let v := sendsV u
  match translate v (qSpace v 0 0) p.w1.toNat .write with
  | (.ok pa, s1) =>
    (match writeSector s1 (qSpace v 0 0).requester (qSpace v 0 0).pid (pa / 64) false with
     | (true, s2) => sendsB u && decide (poisoned s2 (pa / 64) = bad)
     | _ => false)
  | _ => false

theorem witness_SignalWords :
    (∀ e ∈ [(0, false), (0, true), (1, false), (1, true)], ∃ s u p, Performs s 0 0 u ∧ signalFields p = true ∧ sKind p = e.1 ∧
      storeIs u p e.2 = true) ∧
    (∀ k ∈ [2, 3], ∃ s u p, Performs s 0 0 u ∧ signalFields p = true ∧ sKind p = k ∧ sendsB u = true ∧ (thread s 0 0).blk = none) ∧
    (∀ n ∈ [0, 1], ∃ s u a, Performs s 0 0 u ∧ (thread s 0 0).blk = some .leat ∧ (thread s 0 0).ans = some a ∧ a.status = n ∧ a.trap = none) ∧
    (∃ s u p, Performs s 0 0 u ∧ signalFields p = false ∧ (thread s 0 0).blk = none) := by
  let p := fun k => rec64 (0x1005 + 256 * k) (if k = 3 then 0 else if k = 2 then 0x1000 else 8) 0 0 0
  let S := fun k => qst (p k) id
  let P := fun (e : Nat × Bool) => let s := S e.1
    if e.2 then { s with ms := { s.ms with poison := [64] } } else s
  let A := fun n => qst (p 2) fun t => { t with blk := some .leat, ans := some (LAns.st n) }
  have h : ∀ e ∈ [(0, false), (0, true), (1, false), (1, true)], perfB (P e) = true ∧ signalFields (p e.1) = true ∧ sKind (p e.1) = e.1 ∧
      storeIs (qu (P e)) (p e.1) e.2 = true := by decide +kernel
  have g : ∀ k ∈ [2, 3], perfB (S k) = true ∧ signalFields (p k) = true ∧ sKind (p k) = k ∧ sendsB (qu (S k)) = true ∧
      (thread (S k) 0 0).blk = none := by decide +kernel
  have a : ∀ n ∈ [0, 1], perfB (A n) = true ∧ (thread (A n) 0 0).blk = some .leat ∧ (thread (A n) 0 0).ans = some (LAns.st n) ∧
      (LAns.st n).status = n ∧ (LAns.st n).trap = none := by decide +kernel
  exact ⟨fun e he => ⟨P e, _, p e.1, perf_of (h e he).1, (h e he).2⟩, fun k hk => ⟨S k, _, p k, perf_of (g k hk).1, (g k hk).2⟩,
    fun n hn => ⟨A n, _, _, perf_of (a n hn).1, (a n hn).2⟩,
    ⟨S 0, _, rec64 (2 ^ 31) 0 0 0 0, perf_of (by decide +kernel), by decide +kernel, by decide +kernel⟩⟩

/-- The path coverage engine of M0 at work for card 0, with virtual page 0 mapped. -/
def pst (p : Pce) : State :=
  let s := setCardState D 0 stRunning
  { s with focus := .pce 0, pces := [(0, p)], ms := { s.ms with tlb := [page0 0 140] } }

/-- A surface of 2 by 2 cells at virtual address 64, its output at 256. -/
def surf0 (flags : Nat) : List DWord := [64, 16, 0, 0x20002, 256, 8, BitVec.ofNat 64 flags, 0]

def drawB (s : State) (p : Pce) : Bool := decide (s.focus = .pce 0) && decide (s.pces.find 0 = some p) && pceGo s p

theorem draws_of {s : State} {p : Pce} (h : drawB s p = true) : Draws s 0 p := by
  simp only [drawB, Bool.and_eq_true, decide_eq_true_eq] at h
  exact ⟨h.1.1, h.1.2, h.2⟩

def beginsB (s : State) (p : Pce) (r : Rec64) (op : Nat) : Bool :=
  let s0 := s.setPce 0 { p with cmd := some r, surf := [] }
  match readChecked s0 (pceSpace s 0 (pceCard p)) r.w1.toNat 8 with
  | (.ok f, s1) => surfOk f (decide (op = 3)) && (match cmdPages s1 (pceSpace s 0 (pceCard p)) r f with | (o, _) => o.isNone)
  | _ => false

def allIs (x : (Except (Nat × Nat × Nat) (List Nat)) × State) (n : Nat) (s : State) : Bool :=
  match x with
  | (.ok l, u) => decide (l.length = n ∧ u = s)
  | _ => false

/-- Whether the homes let the cells of a PRSV's row be read and, with CLR, be cleared. -/
def cellsB (s : State) (p : Pce) : Bool :=
  let pas := (List.range 2).map fun i => 0x1000 + cellVa p.surf i p.pos
  let x := cellSectors s 0 (pceSpace s 0 (pceCard p)).pid (pas.map fun pa => pa / 64)
  x.1 && (!(sfClr p.surf) || (rewriteSectors x.2 69 (pceSpace s 0 (pceCard p)).pid
    (pas.foldl (fun (a : List Nat) x => insertNat (x / 64) a) [])).1)

theorem witness_PathCommands :
    (∃ (s : State) (p : Pce) (r : Rec64), Draws s 0 p ∧ p.st = .command ∧ cmdOk r = false) ∧
    (∀ op ∈ [1, 2, 3], ∃ (s : State) (p : Pce) (r : Rec64), Draws s 0 p ∧ p.st = .command ∧ cmdOk r = true ∧ cOp r = op ∧
      cSpawn r = false ∧ beginsB s p r op = true) ∧
    (∃ (s : State) (p : Pce), Draws s 0 p ∧ p.st = .running ∧
      allIs (translateAll s (pceSpace s 0 (pceCard p)) .write [cellVa p.surf (p.pos % sfW p.surf) (p.pos / sfW p.surf)]) 1 s = true) ∧
    (∃ (s : State) (p : Pce) (r : Rec64), Draws s 0 p ∧ p.st = .running ∧ p.cmd = some r ∧ p.open_ = false ∧ cNrec r ≤ p.pos) ∧
    (∃ (s : State) (p : Pce) (r : Rec64) (g : List (Int × Int)) (segs : List (List (Int × Int))), Draws s 0 p ∧ p.st = .running ∧
      p.cmd = some r ∧ p.open_ = true ∧ p.segs = g :: segs ∧ cSpawn r = false ∧
      (let l := (polyPieces p.cur (flatten p.cur p.startPt g)).filterMap (clip (sfX0 p.surf) (sfY0 p.surf) (sfW p.surf) (sfH p.surf))
       l.length = 1 ∧ allIs (translateAll s (pceSpace s 0 (pceCard p)) .write (l.map fun e => cellVa p.surf e.1 e.2.1)) 1 s = true)) ∧
    (∀ y ∈ [false, true], ∃ (s : State) (p : Pce), Draws s 0 p ∧ p.st = .running ∧ sfClr p.surf = y ∧
      allIs (translateAll s (pceSpace s 0 (pceCard p)) (cellAcc 3 p.surf) ((List.range 2).map fun i => cellVa p.surf i p.pos)) 2 s = true ∧
      allIs (translateAll s (pceSpace s 0 (pceCard p)) .write ((List.range 2).map fun i => outVa p.surf i p.pos)) 2 s = true ∧
      cellsB s p = true ∧ sfW p.surf = 2) := by
  let C := pce0 .command
  let S : State := (pst C).setMem (Mem.writeN [] 0x1000 (wordsBytes (surf0 0)))
  let r := fun n => rec64 n 0 0 (if n = 2 then 1 else 0) 0
  have h : ∀ op ∈ [1, 2, 3], drawB S C = true ∧ cmdOk (r op) = true ∧ cOp (r op) = op ∧ cSpawn (r op) = false ∧
      beginsB S C (r op) op = true := by decide +kernel
  let R := { pce0 .running with surf := surf0 0 }
  let Q := fun (y : Bool) => { R with surf := surf0 (if y then 8 else 0) }
  have q : ∀ y ∈ [false, true], drawB (pst (Q y)) (Q y) = true ∧ sfClr (Q y).surf = y ∧
      allIs (translateAll (pst (Q y)) (pceSpace (pst (Q y)) 0 (pceCard (Q y))) (cellAcc 3 (Q y).surf)
        ((List.range 2).map fun i => cellVa (Q y).surf i (Q y).pos)) 2 (pst (Q y)) = true ∧
      allIs (translateAll (pst (Q y)) (pceSpace (pst (Q y)) 0 (pceCard (Q y))) .write
        ((List.range 2).map fun i => outVa (Q y).surf i (Q y).pos)) 2 (pst (Q y)) = true ∧
      cellsB (pst (Q y)) (Q y) = true ∧ sfW (Q y).surf = 2 := by decide +kernel
  let F := { R with cmd := some (r 2), pos := 1 }
  let G := { F with open_ := true, segs := [[(0, 256)]] }
  exact ⟨⟨S, C, rec64 0 0 0 0 0, draws_of (by decide +kernel), rfl, by decide +kernel⟩,
    fun op ho => ⟨S, C, r op, draws_of (h op ho).1, rfl, (h op ho).2⟩,
    ⟨pst R, R, draws_of (by decide +kernel), rfl, by decide +kernel⟩,
    ⟨pst F, F, r 2, draws_of (by decide +kernel), rfl, rfl, rfl, by decide +kernel⟩,
    ⟨pst G, G, r 2, [(0, 256)], [], draws_of (by decide +kernel), rfl, rfl, rfl, rfl, by decide +kernel, by decide +kernel, by decide +kernel⟩,
    fun y hy => ⟨pst (Q y), Q y, draws_of (q y hy).1, rfl, (q y hy).2⟩⟩

/-! ## Witnesses: events of the Governor and the package -/

/-- An event of numbers i and j in a state. -/
def ev (s : State) (i j : Nat) : State := { s with ev := { EvArgs.none with i := i, j := j } }

/-- A header of an empty image of a TYPE. -/
def imgHdr (ty : Nat) : List Byte :=
  leBytes 4 0x46494D47 ++ leBytes 4 ty ++ leBytes 24 0 ++ leBytes 4 (2 ^ 32 - 1) ++ leBytes 92 0

def goodStart : StartIn :=
  { romOk := true, dramOk := [true, true, true, true], selfOk := [true, true, true, true],
    images := [1, 2, 3].map fun ty => (ty, 0, imgHdr ty, []) }

/-- A start that succeeds, where the key of slot 0 signs the images: this is no property of the spec's. -/
theorem witness_DeviceStarts_up (h : ∀ m g, Config.signatureValid 0 m g = true) (r : Config.slotRevoked 0 = false)
    (n : ∀ ty, Config.slotMinSvn 0 ty ≤ 2 ^ 32 - 1) :
    ∃ (u v : State) (x : StartIn) (l : List StartIn), u.starts = x :: l ∧ runSteps (beginStart u) x = .up v := by
  have a : ∀ ty ∈ [1, 2, 3], imageAccepted ty (imgHdr ty) [] = true := by
    intro ty ht
    have f : ∀ ty ∈ [1, 2, 3], hdrF (imgHdr ty) 0x24 4 = 0 ∧ imageFields ty (imgHdr ty) [] = true ∧
        hdrF (imgHdr ty) 0x20 4 = 2 ^ 32 - 1 := by decide +kernel
    obtain ⟨f1, f2, f3⟩ := f ty ht
    simp only [imageAccepted, f1, f2, f3, r, h]
    simpa using n ty
  have p : ∀ ty ∈ [1, 2, 3], pickImage goodStart ty none = some (imgHdr ty, []) := by
    intro ty ht
    have := a 1 (by simp); have := a 2 (by simp); have := a 3 (by simp)
    simp only [List.mem_cons, List.not_mem_nil, or_false] at ht
    rcases ht with rfl | rfl | rfl <;> simp_all [pickImage, goodStart, imageFits]
  have o : goodStart.romOk = true ∧ ((List.range 4).all fun q => goodStart.dramOk.getD q false) = true ∧
      ((List.range 4).all fun q => goodStart.selfOk.getD q false) = true := by decide +kernel
  have q : ∀ s, s.gov.minimal = false → runSteps s goodStart = finishNormal (placeGov s (imgHdr 1, [])) goodStart := by
    intro s hs
    have : (placeGov s (imgHdr 1, [])).gov.minimal = false := hs
    unfold runSteps
    rw [o.1, o.2.1, o.2.2, p 1 (by simp)]
    simp only [this, Bool.not_true, Bool.false_eq_true, if_false]
  have f : ∀ s, finishNormal s goodStart =
      .up (releaseAll (placeImage (placeQp s (imgHdr 2, [])) (imgHdr 3, [])) (imgHdr 3, [])) := by
    intro s
    simp only [finishNormal, p 2 (by simp), p 3 (by simp)]
  let u : State := { D with starts := [goodStart] }
  exact ⟨u, _, goodStart, [], rfl, (q _ (by decide +kernel)).trans (f _)⟩

theorem witness_DeviceStarts :
    (∃ (s : State) (τ : Nat), s.gov.released = some τ ∧ s.regF Reg.govMode 1 0 = 0 ∧ τ + 60000000000 ≤ s.now 3) ∧
    (∃ (s : State) (τ : Nat), s.gov.released = some τ ∧ s.now 3 < τ + 60000000000) ∧
    (∃ (s : State) (τ : Nat), s.gov.lastMismatch = some τ ∧ s.now 3 ≤ τ + 10000000) ∧
    (∀ t ∈ [125, 124], ∃ s : State, s.ev.i = 1 ∧ s.regF (Reg.opStat 1) 15 8 = t) ∧ (∃ u : State, u.starts = []) := by
  let G := { UP with gov := { UP.gov with released := some 0, lastMismatch := some 0 } }
  have h : ∀ t ∈ [125, 124], let s := ev (D.setRegF (Reg.opStat 1) 15 8 t) 1 0
      s.ev.i = 1 ∧ s.regF (Reg.opStat 1) 15 8 = t := by decide +kernel
  exact ⟨⟨{ G with time := { G.time with hub := 60000000000 } }, 0, rfl, by decide +kernel, by decide +kernel⟩, ⟨G, 0, rfl, by decide +kernel⟩,
    ⟨G, 0, rfl, by decide +kernel⟩, fun t ht => ⟨_, h t ht⟩, ⟨D, rfl⟩⟩

def at3 (s : State) (n : Nat) : State := { s with time := { s.time with hub := n } }

theorem witness_GovernorSupervision :
    (∃ s, Judges s ∧ s.gov.todo = [] ∧ s.gov.lastLatch = none) ∧ (∃ s, Judges s ∧ s.gov.lastLatch = some (s.now 3)) ∧
    (∃ s v τ, s.ev.i = 1 ∧ Judges s ∧ qpUp s 1 = true ∧ s.gov.qpRestart.find 1 = none ∧ s.gov.hb.find 1 = some (v, τ) ∧
      τ + 20000 ≤ s.now 3 ∧ v = (s.reg (Reg.qpHb 1)).toNat) ∧
    (∃ s v τ, s.ev.i = 1 ∧ Judges s ∧ qpUp s 1 = true ∧ s.gov.qpRestart.find 1 = none ∧ s.gov.hb.find 1 = some (v, τ) ∧
      τ + 20000 ≤ s.now 3 ∧ v ≠ (s.reg (Reg.qpHb 1)).toNat) ∧
    (∃ s, s.ev.i = 1 ∧ Judges s ∧ qpUp s 1 = true ∧ ctlUp s 1 = true ∧ s.gov.qpRestart.find 1 = none ∧ s.gov.hb.find 1 = none) ∧
    (∃ s, Judges s ∧ qpUp s s.ev.i = false ∧ ctlUp s s.ev.i = false) ∧
    (∃ s, s.ev.i = 2 ∧ Judges s ∧ 2 ∈ s.gov.skew) ∧
    (∀ v ∈ [0, 1], ∃ s τ, s.ev.i = 3 ∧ Judges s ∧ s.regF Reg.govHbcfg 19 0 ≠ 0 ∧ s.gov.hb.find 103 = some (v, τ) ∧
      τ + 1000 * s.regF Reg.govHbcfg 19 0 ≤ s.now 3 ∧ (s.reg (Reg.govHb 3)).toNat = 0) ∧
    (∃ s c x, s.ev.i = 0 ∧ Judges s ∧ s.ddx.reports[0]? = some (0x13, c, x) ∧
      s.regF Reg.govPol (2 * cardPid s c + 1) (2 * cardPid s c) = 1 ∧ tooSoon s (cardPid s c) = false) ∧
    (∃ s c x, s.ev.i = 0 ∧ Judges s ∧ s.ddx.reports[0]? = some (0x13, c, x) ∧
      s.regF Reg.govPol (2 * cardPid s c + 1) (2 * cardPid s c) ≠ 1) ∧
    (∃ s, s.ev.i = 0 ∧ Judges s ∧ s.ddx.reports[0]? = some (256, 0, 1)) ∧
    (∃ s : State, (∀ τ, s.gov.lastMismatch = some τ → τ + 10000000 < s.now 3) ∧ s.regBit Reg.govStat 31 = false) := by
  let g := fun (f : Gov → Gov) (i : Nat) => ev { at3 UP 2000000 with gov := f UP.gov } i 0
  let H := fun v => (g (fun x => { x with hb := [(103, (v, 0))] }) 3).setReg Reg.govHbcfg 1
  have h : ∀ v ∈ [0, 1], (H v).regF Reg.govHbcfg 19 0 = 1 ∧ 1000 ≤ (H v).now 3 ∧ ((H v).reg (Reg.govHb 3)).toNat = 0 := by decide +kernel
  let R := { g id 0 with ddx := { Dispatch.reset with reports := [(0x13, 0, 0)] } }
  exact ⟨⟨UP, ⟨rfl, rfl⟩, rfl, rfl⟩, ⟨g (fun x => { x with lastLatch := some 2000000 }) 0, ⟨rfl, rfl⟩, rfl⟩,
    ⟨g (fun x => { x with hb := [(1, (0, 0))] }) 1, 0, 0, rfl, ⟨rfl, rfl⟩, rfl, rfl, rfl, by decide +kernel, by decide +kernel⟩,
    ⟨g (fun x => { x with hb := [(1, (1, 0))] }) 1, 1, 0, rfl, ⟨rfl, rfl⟩, rfl, rfl, rfl, by decide +kernel, by decide +kernel⟩,
    ⟨g id 1, rfl, ⟨rfl, rfl⟩, rfl, rfl, rfl, rfl⟩, ⟨g (fun x => { x with minimal := true }) 1, ⟨rfl, rfl⟩, by decide +kernel, by decide +kernel⟩, ⟨g (fun x => { x with skew := [2] }) 2, rfl, ⟨rfl, rfl⟩, by decide +kernel⟩,
    fun v hv => ⟨H v, 0, rfl, ⟨rfl, rfl⟩, by rw [(h v hv).1]; decide, rfl,
      by rw [(h v hv).1]; exact (h v hv).2.1, (h v hv).2.2⟩,
    ⟨R.setReg Reg.govPol 1, 0, 0, rfl, ⟨rfl, rfl⟩, rfl, by decide +kernel, by decide +kernel⟩,
    ⟨R.setReg Reg.govPol 0, 0, 0, rfl, ⟨rfl, rfl⟩, rfl, by decide +kernel⟩,
    ⟨{ R with ddx := { R.ddx with reports := [(256, 0, 1)] } }, rfl, ⟨rfl, rfl⟩, rfl⟩,
    ⟨D, (fun _ h => by cases h), by decide +kernel⟩⟩

theorem witness_GovernorEnds :
    (∀ e ∈ [none, some (imgHdr 2, [0])], ∃ s : State, s.ev.i = 1 ∧ s.gov.qpRestart.find 1 = some false ∧
      s.gov.cmd = some (.restartCtl 1) ∧
      (∀ i, i < 32 → s.regBit (Reg.mqCfg 1 i) 63 = false ∧ s.th.find (thKey 1 i) = none) ∧ s.gov.qpImage = e) ∧
    (∃ s : State, s.ev.i = 1 ∧ s.gov.qpRestart.find 1 = none) ∧
    (∃ s : State, s.gov.cmd = some (.merge 3) ∧ s.gov.emptying = true ∧ s.gov.warm = false ∧ s.gov.holdSlices ≠ [] ∧
      stillOwned (emptySlices s) = false ∧ (∀ d ∈ [0, 1, 3], rehomeTime (emptySlices s) ≤ (emptySlices s).now d) ∧
      ∀ d ∈ maskDies 3, (emptySlices s).regBit (Reg.shootStat d) 0 = false) ∧
    (∀ l ∈ [[], [0, 1, 3]], ∃ (s : State) (τ : Nat), s.ev.i = 2 ∧ snapDue s = some τ ∧ τ ≤ s.now 2 ∧ 2 ∉ s.gov.snapDies ∧
      s.gov.snapDies = l ∧ s.gov.todo = []) := by
  let Q := fun e => { ev D 1 0 with gov := { UP.gov with qpRestart := [(1, false)], cmd := some (.restartCtl 1), qpImage := e } }
  have q : ∀ i, i < 32 → D.regBit (Reg.mqCfg 1 i) 63 = false := by decide +kernel
  let T : Times := { Times.reset with hub := 8, m0 := 8, m1 := 8, host := 8 }
  let M := { D with time := T, gov := { UP.gov with cmd := some (.merge 3), emptying := true, holdSlices := List.range 16 } }
  let S := fun l => { ev D 2 0 with gov := { UP.gov with snapArmed := some 0, snapDies := l } }
  have h : ∀ l ∈ [[], [0, 1, 3]], (S l).ev.i = 2 ∧ snapDue (S l) = some 0 ∧ 0 ≤ (S l).now 2 ∧ 2 ∉ (S l).gov.snapDies ∧
      (S l).gov.snapDies = l ∧ (S l).gov.todo = [] := by decide +kernel
  exact ⟨fun e _ => ⟨Q e, rfl, rfl, rfl, fun i hi => ⟨q i hi, rfl⟩, rfl⟩, ⟨ev D 1 0, rfl, rfl⟩,
    ⟨M, rfl, rfl, rfl, by decide, by decide +kernel, by decide +kernel, by decide +kernel⟩, fun l hl => ⟨S l, 0, h l hl⟩⟩

/-- Copies 3 ns and 4 ns behind the hub; a pulse 5 ns before a whole second; the extremes of the temperature field. -/
theorem witness_PackageAndTimeEvents :
    (∀ n ∈ [3, 4], ∃ s : State, s.ev.i = 2 ∧ 2 ∉ s.dieOff ∧ s.regBit Reg.dtuStatus 5 = false ∧ s.time.hub = s.now 2 + n) ∧
    (∃ s : State, s.ev.i = 2 ∧ 2 ∉ s.dieOff ∧ s.regBit Reg.dtuStatus 5 = true) ∧
    (∀ y ∈ [true, false], ∃ s : State, s.regBit Reg.dtuCtl 1 = y) ∧
    (∃ s : State, s.ev.flag = true ∧ s.regBit Reg.dtuCtl 2 = true ∧ s.time.ppsOut = false ∧ s.time.hub + 5 = 1000000000) ∧
    (∃ s : State, s.ev.flag = false ∧ s.time.ppsOut = true ∧ s.time.ppsAt + 100000 = s.time.hub) ∧
    (∃ s : State, s.ev.i = 1 ∧ s.ev.j = 255) := by
  have h : ∀ n ∈ [3, 4], let s := ev (at3 D n) 2 0
      s.ev.i = 2 ∧ 2 ∉ s.dieOff ∧ s.regBit Reg.dtuStatus 5 = false ∧ s.time.hub = s.now 2 + n := by decide +kernel
  have g : ∀ y ∈ [true, false], (if y then D.setRegF Reg.dtuCtl 1 1 1 else D).regBit Reg.dtuCtl 1 = y := by decide +kernel
  let P := { (at3 D 999999995).setRegF Reg.dtuCtl 2 2 1 with ev := { EvArgs.none with flag := true } }
  exact ⟨fun n hn => ⟨_, h n hn⟩, ⟨(ev D 2 0).setRegF Reg.dtuStatus 5 5 1, rfl, by decide +kernel, by decide +kernel⟩,
    fun y hy => ⟨_, g y hy⟩, ⟨P, rfl, by decide +kernel, rfl, rfl⟩,
    ⟨{ D with time := { D.time with hub := 100000, ppsOut := true } }, rfl, rfl, rfl⟩, ⟨ev D 1 255, rfl, rfl⟩⟩

/-! ## Witnesses: events at a line's home, completions, waits -/

/-- Request 5 of warp 0, for sector 64, the only one; the event names it. -/
def hst (q : Req) : State :=
  let s := ev D 5 0
  { s with ms := { s.ms with reqs := [q] }, ops := [(7, pend (.load false 4 false false false))] }

def homeB (s : State) (q : Req) : Bool := decide (findReq s s.ev.i = some q) && sliceOpen s q

theorem home_of {s : State} {q : Req} (h : homeB s q = true) (w : ∀ tc e, q.agent ≠ .teng tc e) : AtHome s q := by
  simp only [homeB, Bool.and_eq_true, decide_eq_true_eq] at h
  exact ⟨h.1, h.2, fun tc e x => absurd x (w tc e)⟩

theorem witness_HomeWrites :
    (∃ s q bs, AtHome s q ∧ q.kind = .store bs ∧ writeReady s q = true ∧
      (admitReq s q (writeNeed s q.sec q.pid (coversSec q.sec bs))).1 = true) ∧
    (∃ s q bs, findReq s s.ev.i = some q ∧ q.kind = .store bs ∧ writeReady s q = false) ∧
    (∃ s q bs, findReq s s.ev.i = some q ∧ q.kind = .store bs ∧ sliceOpen s q = false) ∧
    (∀ p ∈ [[], [64]], ∃ s q v, AtHome s q ∧ q.kind = .red .fadd false 4 4096 v ∧ writeReady s q = true ∧
      (admitReq s q (writeNeed s q.sec q.pid false)).1 = true ∧ s.ms.poison = p) ∧
    (∀ y ∈ [true, false], ∃ s q bs i o, AtHome s q ∧ q.kind = .engine bs y ∧ q.op = some i ∧ s.ops.find i = some o ∧ engineReady s q = true ∧
      Owner.engine q.id ∈ (dirEnt s (q.sec / 8)).owners ∧ (admitReq s q (writeNeed s q.sec q.pid (coversSec q.sec bs))).1 = true) ∧
    (∃ s q bs bad, findReq s s.ev.i = some q ∧ q.kind = .engine bs bad ∧ ownsLine s q = true ∧ engineReady s q = false) ∧
    (∃ s q bs bad, findReq s s.ev.i = some q ∧ q.kind = .engine bs bad ∧ ownsLine s q = false ∧ engineMay s (q.sec / 8) q.agent = false) := by
  let W := req 5 (.warp 0) (.store [(4096, 1)])
  let R := req 5 (.warp 0) (.red .fadd false 4 4096 0)
  let own := fun (s : State) (o : Owner) => ({ s with ms := { s.ms with dir := [(8, { hor := 0, holders := [], svc := [], owners := [o], excl := [] })] } } : State)
  let L := own (hst W) (.l1 1 0)
  let E := fun y => { req 5 (.warp 0) (.engine [(4096, 1)] y) with op := some 7 }
  let H : State := { hst W with gov := { (hst W).gov with holdSlices := List.range 32 } }
  let O : State := { hst (E true) with ms := { (hst (E true)).ms with reqs := [req 4 (.warp 0) (.engine [] false), E true] } }
  let P := fun p => ({ hst R with ms := { (hst R).ms with poison := p } } : State)
  have r : ∀ p ∈ [[], [64]], homeB (P p) R = true ∧ writeReady (P p) R = true ∧
      (admitReq (P p) R (writeNeed (P p) R.sec R.pid false)).1 = true := by decide +kernel
  have h : ∀ y ∈ [true, false], let s := own (hst (E y)) (.engine 5)
      homeB s (E y) = true ∧ engineReady s (E y) = true ∧ Owner.engine 5 ∈ (dirEnt s ((E y).sec / 8)).owners ∧
      (admitReq s (E y) (writeNeed s (E y).sec (E y).pid (coversSec (E y).sec [(4096, 1)]))).1 = true := by decide +kernel
  exact ⟨⟨hst W, W, _, home_of (by decide +kernel) (by simp [W, req]), rfl, by decide +kernel, by decide +kernel⟩,
    ⟨L, W, _, by decide +kernel, rfl, by decide +kernel⟩, ⟨H, W, _, by decide +kernel, rfl, by decide +kernel⟩,
    fun p hp => ⟨P p, R, 0, home_of (r p hp).1 (by simp [R, req]), rfl, (r p hp).2.1, (r p hp).2.2, rfl⟩,
    fun y hy => ⟨_, E y, _, 7, _, home_of (h y hy).1 (by simp [E, req]), rfl, rfl, rfl, (h y hy).2.1, (h y hy).2.2.1, (h y hy).2.2.2⟩,
    ⟨own O (.engine 5), E true, _, _, by decide +kernel, rfl, by decide +kernel, by decide +kernel⟩,
    ⟨own (hst (E true)) (.l1 1 0), E true, _, _, by decide +kernel, rfl, by decide +kernel, by decide +kernel⟩⟩

theorem witness_HomeReads :
    (∀ k ∈ [ReqKind.fill, .homeForRdc], ∃ s q i o e, findReq s s.ev.i = some q ∧ sliceOpen s q = true ∧ q.kind = k ∧ fillReady s q = true ∧
      q.op = some i ∧ s.ops.find i = some o ∧ s.ms.dir.find (q.sec / 8) = some e ∧ l1Owner s (q.sec / 8) = none ∧
      (admitReq s q (readNeed s q.sec)).1 = true ∧ o.got.find q.sec = none ∧ (l1Of s q.core).find (q.sec / 8) = none) ∧
    (∃ s q, findReq s s.ev.i = some q ∧ q.kind = .fill ∧ fillReady s q = false) ∧
    (∃ s q, findReq s s.ev.i = some q ∧ q.kind = .fill ∧ q.late s = true) ∧
    (∃ s q i o x τ, findReq s s.ev.i = some q ∧ q.kind = .rdcFill ∧ q.late s = false ∧ fillInOrder s q = true ∧ q.op = some i ∧
      s.ops.find i = some o ∧ o.got.find q.sec = none ∧ leaseHit (rdcOf s q.die) q.sec (s.now q.die) q.fresh = some (x, τ)) ∧
    (∃ s q, findReq s s.ev.i = some q ∧ q.kind = .rdcFill ∧ q.late s = false ∧ fillInOrder s q = true ∧
      leaseHit (rdcOf s q.die) q.sec (s.now q.die) q.fresh = none ∧
      (∀ r ∈ s.ms.reqs, ¬ (r.kind = .homeForRdc ∧ r.die = q.die ∧ r.sec = q.sec ∧ q.fresh ≤ r.issue))) ∧
    (∀ k ∈ [ReqKind.fill, .store []], ∃ s q i o, findReq s s.ev.i = some q ∧ q.issue + q.extra + 100000 ≤ s.now q.die ∧ q.kind = k ∧ q.op = some i ∧
      s.ops.find i = some o ∧ o.got.find q.sec = none) ∧
    (∃ s q, findReq s s.ev.i = some q ∧ s.now q.die < q.issue + q.extra + 100000) := by
  let e0 : DirEnt := { hor := 0, holders := [], svc := [], owners := [], excl := [] }
  let Q := fun k => { req 5 (.warp 0) k with op := some 7 }
  let F := fun (k : ReqKind) (e : DirEnt) => ({ hst (Q k) with ms := { (hst (Q k)).ms with dir := [(8, e)] } } : State)
  let x0 : Sec := { data := List.replicate 64 0, poison := false, req := 0 }
  let C : State := { F .rdcFill e0 with ms := { (F .rdcFill e0).ms with rdc := [(0, [(8, { exp := 100, secs := [(0, x0)], used := 0 })])] } }
  let O := fun k => ({ F k e0 with time := { Times.reset with m0 := 100000 } } : State)
  have h : ∀ k ∈ [ReqKind.fill, .homeForRdc], let s := F k e0
      findReq s s.ev.i = some (Q k) ∧ sliceOpen s (Q k) = true ∧ fillReady s (Q k) = true ∧
      s.ops.find 7 = some (pend (.load false 4 false false false)) ∧ l1Owner s ((Q k).sec / 8) = none ∧
      (admitReq s (Q k) (readNeed s (Q k).sec)).1 = true ∧ s.ms.dir.find ((Q k).sec / 8) = some e0 ∧
      (l1Of s (Q k).core).find ((Q k).sec / 8) = none := by decide +kernel
  have g : ∀ k ∈ [ReqKind.fill, .store []], findReq (O k) (O k).ev.i = some (Q k) ∧ (Q k).issue + (Q k).extra + 100000 ≤ (O k).now (Q k).die := by
    decide +kernel
  exact ⟨fun k hk => ⟨F k e0, Q k, 7, _, e0, (h k hk).1, (h k hk).2.1, rfl, (h k hk).2.2.1, rfl, (h k hk).2.2.2.1, (h k hk).2.2.2.2.2.2.1,
      (h k hk).2.2.2.2.1, (h k hk).2.2.2.2.2.1, rfl, (h k hk).2.2.2.2.2.2.2⟩,
    ⟨F .fill { e0 with excl := [{ sc := 0, pa := 4096, data := [] }] }, Q .fill, by decide +kernel, rfl, by decide +kernel⟩,
    ⟨{ O .fill with time := { Times.reset with m0 := 100001 } }, Q .fill, by decide +kernel, rfl, by decide +kernel⟩,
    ⟨C, Q .rdcFill, 7, _, x0, 100, by decide +kernel, rfl, by decide +kernel, by decide +kernel, rfl, rfl, rfl, by decide +kernel⟩,
    ⟨F .rdcFill e0, Q .rdcFill, by decide +kernel, rfl, by decide +kernel, by decide +kernel, by decide +kernel, by decide +kernel⟩,
    fun k hk => ⟨O k, Q k, 7, pend (.load false 4 false false false), (g k hk).1, (g k hk).2, rfl, rfl, rfl, rfl⟩,
    ⟨hst (Q .fill), Q .fill, by decide +kernel, by decide +kernel⟩⟩

theorem witness_OwnersAndSluices :
    (∃ s c, l1Owner s s.ev.i = some c ∧ recallWanted s s.ev.i c = true) ∧ (∃ s : State, l1Owner s s.ev.i = none) ∧
    (∃ s e, s.ev.i = 15 ∧ dramOk s s.ev.j = true ∧ lineHeld s (lineOf s.ev.j) = false ∧ s.ms.dir.find (lineOf s.ev.j) = some e) ∧
    (∃ s : State, s.ev.i = 15 ∧ dramOk s s.ev.j = false) ∧
    (∀ τ ∈ [0, 1], ∃ s e x rest, lineHeld s s.ev.i = false ∧ s.ms.dir.find s.ev.i = some e ∧ e.excl = x :: rest ∧ e.hor = τ ∧
      s.now (paDie (512 * s.ev.i)) = 0 ∧ e.owners = [] ∧
      (let bs := (bytesAt x.pa x.data).filter fun b => decide (b.1 / 512 = s.ev.i)
       (svcSectors s x.sc bs ((bs.map fun b => b.1 / 64).foldl (fun a n => insertNat n a) [])).1 = true)) ∧
    (∀ y ∈ [true, false], ∃ s : State, s.ev.i = 15 ∧ s.ev.j = 72 ∧ sluDue s 15 72 = true ∧ sluHolds s 15 72 = false ∧
      s.regBit (Reg.sluHold 15 72) 1 = y) ∧
    (∃ s k n c, s.ev.i = 15 ∧ s.ev.j = 69 ∧ (s.ms.overruns.find? fun e => decide (e.1 = 15 ∧ e.2.1 = 69)) = some (15, 69, k, n) ∧
      requesterCard s 69 = some c ∧ c < 1024 ∧ k ∉ (cardSt s c).wins ∧ n < cardF s c 0 23 16) ∧
    (∃ s k n c, s.ev.i = 15 ∧ s.ev.j = 69 ∧ (s.ms.overruns.find? fun e => decide (e.1 = 15 ∧ e.2.1 = 69)) = some (15, 69, k, n) ∧
      requesterCard s 69 = some c ∧ c < 1024 ∧ cardF s c 0 23 16 ≤ n ∧ (cardSt s c).bov = false ∧ cardOvpol s c = 2) := by
  let e0 : DirEnt := { hor := 0, holders := [], svc := [], owners := [], excl := [] }
  let dir := fun (s : State) (e : DirEnt) => ({ s with ms := { s.ms with dir := [(8, e)] } } : State)
  let X := fun τ => dir (ev D 8 0) { e0 with hor := τ, excl := [{ sc := 0, pa := 4096, data := [1] }] }
  have h : ∀ τ ∈ [0, 1], lineHeld (X τ) (X τ).ev.i = false ∧ (X τ).now (paDie (512 * (X τ).ev.i)) = 0 ∧
      (let bs := (bytesAt 4096 [1]).filter fun b => decide (b.1 / 512 = (X τ).ev.i)
       (svcSectors (X τ) 0 bs ((bs.map fun b => b.1 / 64).foldl (fun a n => insertNat n a) [])).1 = true) := by decide +kernel
  let T := fun (y : Bool) => ({ ev D 15 72 with time := { Times.reset with m1 := 1000000 } } : State).setRegF (Reg.sluHold 15 72) 1 1 (if y then 1 else 0)
  have g : ∀ y ∈ [true, false], sluDue (T y) 15 72 = true ∧ sluHolds (T y) 15 72 = false ∧ (T y).regBit (Reg.sluHold 15 72) 1 = y := by decide +kernel
  let P : State := { ev D 15 69 with pces := [(0, pce0 .running)], ms := { D.ms with overruns := [(15, 69, 3, 1)] } }
  exact ⟨⟨dir (ev D 8 0) { e0 with owners := [.l1 1 0], excl := [{ sc := 0, pa := 4096, data := [] }] }, 1, by decide +kernel, by decide +kernel⟩,
    ⟨D, by decide +kernel⟩, ⟨dir (ev D 15 4096) e0, e0, rfl, by decide +kernel, by decide +kernel, by decide +kernel⟩,
    ⟨ev D 15 (2 ^ 43), rfl, by decide +kernel⟩,
    fun τ ht => ⟨X τ, _, _, _, (h τ ht).1, rfl, rfl, rfl, (h τ ht).2.1, rfl, (h τ ht).2.2⟩,
    fun y hy => ⟨T y, rfl, rfl, (g y hy).1, (g y hy).2.1, (g y hy).2.2⟩,
    ⟨P.setReg (Reg.card 0) 0x20000, 3, 1, 0, rfl, rfl, by decide +kernel, by decide +kernel, by decide, by decide +kernel, by decide +kernel⟩,
    ⟨P.setReg (Reg.card 0) 0x10400, 3, 1, 0, rfl, rfl, by decide +kernel, by decide +kernel, by decide, by decide +kernel, by decide +kernel, by decide +kernel⟩⟩

/-- Warp 0 in a block and a team with a wait at each lane, and an event of number i. -/
def wst (i j : Nat) (k : LWait) (f : Warp → Warp) : State :=
  ev (vmst fun w => f { w with wait := List.replicate 32 k, clause := none }) i j

theorem witness_Completions :
    (∃ (s : State) (i : Nat) (o : PendOp) (w : Warp) (x : Sec), s.ev.i = i ∧ s.ops.find i = some o ∧ s.warps.find o.wid = some w ∧ w.place.isSome = true ∧ ctxLive s o.ctx = true ∧
      w.nonHelper ≠ 0 ∧ o.kind = .load false 16 true false false ∧
      (∀ e ∈ o.lanes, e.zero = false ∧ e.lane < 32 ∧ o.got.find (secOf e.pa) = some x ∧ x.poison = false) ∧
      (o.lanes.map fun e => e.lane).Nodup ∧ o.lanes.length = 1 ∧ o.dst.field + o.dstCount ≤ 256) ∧
    (∀ y ∈ [true, false], ∃ (s : State) (i : Nat) (o : PendOp), s.ev.j = i ∧ s.ops.find i = some o ∧ ctxLive s o.ctx = false ∧ opArrived s i = y ∧
      (∀ e ∈ s.ddx.cards, e.2.tear = false)) := by
  let x : Sec := { data := List.replicate 64 0x80, poison := false, req := 0 }
  let o := { pend (.load false 16 true false false) with dst := .v 252, lanes := [{ lane := 31, pa := 4144, va := 48, zero := false }], got := [(64, x)] }
  let S : State := { ev (vst id) 7 0 with ops := [(7, o)] }
  let G := fun (y : Bool) => 
    let r := { req 5 (.warp 0) .fill with op := some 7 }
    ({ ev D 0 7 with ops := [(7, { pend (.load false 4 false false false) with ctx := { card := 0, gen := 1 } })]
                     ms := { D.ms with reqs := if y then [] else [r] } } : State)
  have h : ∀ y ∈ [true, false], ctxLive (G y) { card := 0, gen := 1 } = false ∧ opArrived (G y) 7 = y := by decide +kernel
  exact ⟨⟨S, 7, o, warp0 S, x, rfl, rfl, by decide +kernel, by decide +kernel, by decide +kernel, by decide +kernel, rfl, by decide +kernel,
      by decide +kernel, rfl, by decide +kernel⟩,
    fun y hy => ⟨G y, 7, _, rfl, rfl, (h y hy).1, (h y hy).2, (fun e he => (List.not_mem_nil he).elim)⟩⟩

theorem witness_WaitsEnd :
    (∃ (s : State) (w : Warp), s.ev.i = 0 ∧ s.warps.find 0 = some w ∧ w.place.isSome = true ∧ w.st ≠ .trapped ∧ laneGet .none w.wait 31 = .sleep (s.now (coreDie (warpCore w)))) ∧
    (∃ (s : State) (w : Warp), s.ev.i = 0 ∧ s.warps.find 0 = some w ∧ w.place.isSome = true ∧ w.st ≠ .trapped ∧
      (pbTests s (warpCore w) w).1 = true ∧ pbBad (pbTests s (warpCore w) w).2 0 w = none ∧ laneGet .none w.wait 31 = .pbwait true 0 4 0 0 ∧
      pbIs (pbRead (pbTests s (warpCore w) w).2 0 w true 0) (5 * 2 ^ 48 + 4 * 2 ^ 24 + 3) = true ∧ phaseOver 5 4 = true) ∧
    (∃ (s : State) (w : Warp), s.ev.i = 0 ∧ s.warps.find 0 = some w ∧ w.place.isSome = true ∧ w.st ≠ .trapped ∧
      (pbTests s (warpCore w) w).1 = true ∧ (pbBad (pbTests s (warpCore w) w).2 0 w).isSome = true) ∧
    (∀ y ∈ [true, false], ∃ (s : State) (b : Block), s.ddx.blocks.find s.ev.i = some b ∧ allPlaced s b.warps = true ∧ someStands s b.warps .bar = true ∧
      (b.warps.all fun i => arrivalDone s i .bar 1) = y) ∧
    (∃ (s : State) (t0 : Team), s.ev.i = 0 ∧ s.ddx.teams.find 0 = some t0 ∧ s.ev.j = 0 ∧ 0 ∈ teamCores s t0 ∧ 0 ∉ t0.nodes.cores ∧
      allPlaced s (teamWarps s t0) = true ∧ (∀ j ∈ warpsOn s t0 0, arrivalDone s j .tbar 4 = true)) ∧
    (∃ (s : State) (t0 : Team), s.ev.i = 0 ∧ s.ddx.teams.find 0 = some t0 ∧ s.ev.j = 100 ∧ 0 ∉ t0.nodes.dies ∧ (∃ c ∈ teamCores s t0, coreDie c = 0) ∧
      (∀ c ∈ teamCores s t0, coreDie c = 0 → c ∈ t0.nodes.cores)) ∧
    (∀ y ∈ [true, false], ∃ (s : State) (t0 : Team), s.ev.i = 0 ∧ s.ddx.teams.find 0 = some t0 ∧ allPlaced s (teamWarps s t0) = true ∧
      someStands s (teamWarps s t0) .tbar = true ∧ teamComplete s t0 = y) ∧
    (∀ n ∈ [1, 2], ∃ (s : State) (w : Warp) (x : Susp), s.ev.i = 0 ∧ s.warps.find 0 = some w ∧ w.place.isSome = true ∧ w.st ≠ .trapped ∧
      (w.susp.find? fun y => !y.ended && fenceDone s 0 w y.scope y.id) = some x ∧ x.clause.next = n ∧ hdrLen x.clause.hdr = 1) ∧
    (∃ (s : State) (w : Warp), s.ev.i = 0 ∧ s.warps.find 0 = some w ∧ (w.susp.find? fun y => !y.ended && fenceDone s 0 w y.scope y.id) = none) := by
  let B := fun (y : Bool) => ({ wst 0 0 .bar id with ms := { (wst 0 0 .bar id).ms with reqs := if y then [] else [req 0 (.warp 0) (.store [])] } } : State)
  have b : ∀ y ∈ [true, false], allPlaced (B y) [0] = true ∧ someStands (B y) [0] .bar = true ∧
      ([0].all fun i => arrivalDone (B y) i .bar 1) = y := by decide +kernel
  let tm := { team0 with nodes := { team0.nodes with cores := [0] } }
  let T := fun (y : Bool) => ({ wst 0 100 .tbar id with ddx := { (wst 0 100 .tbar id).ddx with teams := [(0, if y then tm else team0)] } } : State)
  have t : ∀ y ∈ [true, false], allPlaced (T y) (teamWarps (T y) (if y then tm else team0)) = true ∧
      someStands (T y) (teamWarps (T y) (if y then tm else team0)) .tbar = true ∧ teamComplete (T y) (if y then tm else team0) = y := by decide +kernel
  let U := fun n => ({ clause := { clause0 V with next := n, hdr := oneWordHdr }, scope := 5, sc := true, id := 0, ended := false } : Susp)
  let F := fun n => wst 0 0 .fence fun w => { w with susp := [U n] }
  have f : ∀ n ∈ [1, 2], ((warp0 (F n)).susp.find? fun y => !y.ended && fenceDone (F n) 0 (warp0 (F n)) y.scope y.id) = some (U n) ∧
      (F n).warps.find 0 = some (warp0 (F n)) ∧ (warp0 (F n)).place.isSome = true ∧ (warp0 (F n)).st ≠ .trapped ∧
      hdrLen (U n).clause.hdr = 1 := by decide +kernel
  let S0 := wst 0 0 (.sleep 0) id
  let W := fun k => wst 0 0 k id
  let P : State := { W (.pbwait true 0 4 0 0) with ddx := { (W .bar).ddx with
    blocks := [(0, { blk0 with mem := Mem.writeN [] 0 (wordsBytes [BitVec.ofNat 64 (5 * 2 ^ 48 + 4 * 2 ^ 24 + 3)]) })] } }
  let E : State := { W (.pbwait false 4096 4 0 0) with ms := { (W .bar).ms with poison := [64] } }
  exact ⟨⟨S0, warp0 S0, rfl, by decide +kernel, by decide +kernel, by decide +kernel, by decide +kernel⟩,
    ⟨P, warp0 P, rfl, by decide +kernel, by decide +kernel, by decide +kernel, by decide +kernel, by decide +kernel, by decide +kernel,
      by decide +kernel, by decide +kernel⟩,
    ⟨E, warp0 E, rfl, by decide +kernel, by decide +kernel, by decide +kernel, by decide +kernel, by decide +kernel⟩,
    fun y hy => ⟨B y, blk0, rfl, b y hy⟩,
    ⟨wst 0 0 .tbar id, team0, rfl, rfl, rfl, by decide +kernel, by decide +kernel, by decide +kernel, by decide +kernel⟩,
    ⟨T true, tm, rfl, rfl, rfl, by decide +kernel, by decide +kernel, by decide +kernel⟩,
    fun y hy => ⟨T y, _, rfl, rfl, t y hy⟩,
    fun n hn => ⟨F n, _, U n, rfl, (f n hn).2.1, (f n hn).2.2.1, (f n hn).2.2.2.1, (f n hn).1, rfl, (f n hn).2.2.2.2⟩,
    ⟨W .bar, warp0 (W .bar), rfl, by decide +kernel, by decide +kernel⟩⟩

/-! ## Witnesses: leats and queue processors -/

/-- A leat at 0x1000 with its ring of 2 ^ lg elements of 16 * (es + 1) bytes at 0x2000, its indices and its state. -/
def leatWords (mode es lg head tail done st : Nat) : List DWord :=
  let cfg : DWord := BitVec.ofNat 64 (2 ^ 32 * lg + 16 * es + mode)
  let ring : DWord := 0x2000
  [BitVec.ofNat 64 (0x4C454154 * 2 ^ 32 + cbFold cfg ring 0x1000), cfg, BitVec.ofNat 64 (head + 2 ^ 32 * tail),
   BitVec.ofNat 64 (done + 2 ^ 32 * (2 ^ lg - (tail - done))), BitVec.ofNat 64 st, ring, 0, 0]

def lreq (who : LWho) (op : LOp) (blocking : Bool) : LReq :=
  { id := 5, cb := 0x1000, who := who, op := op, blocking := blocking, buf := 0x3000, mode := none, ctx := none, pid := none,
    reissue := none }

/-- Request 5, which the event names, at that leat; the first two words of the ring are a header. -/
def lst (ws : List DWord) (hdr : List DWord) (q : LReq) : State :=
  let s := ev D 5 0
  { s with ms := { s.ms with mem := (Mem.writeN [] 0x1000 (wordsBytes ws)).writeN 0x2000 (wordsBytes hdr) }
           lq := { Leats.reset with reqs := [q] } }

/-- The machine as the request finds it when the homes and the sluices of all its accesses let it through. -/
def leatU (s : State) (q : LReq) : State := (leatGate s q).2

def takenB (s : State) (q : LReq) : Bool :=
  decide ((s.lq.reqs.find? fun x => decide (x.id = s.ev.i)) = some q) && reqReady s q && (leatGate s q).1

theorem taken_of {s : State} {q : LReq} (h : takenB s q = true) : TakenUp s q (leatU s q) := by
  simp only [takenB, Bool.and_eq_true, decide_eq_true_eq] at h
  exact { found := h.1.1, ready := h.1.2, takes := Prod.ext h.2 rfl }

def leatB (s : State) (q : LReq) : Bool := takenB s q && decide (commonCheck (leatU s q) q = none)

theorem leat_of {s : State} {q : LReq} (h : leatB s q = true) : AtLeat s q (leatU s q) := by
  simp only [leatB, Bool.and_eq_true, decide_eq_true_eq] at h
  exact { toTakenUp := taken_of h.1, passes := h.2 }

def quietB (s : State) (cb : Nat) : Bool :=
  let c := readCb s cb
  decide (waitersOf s cb = []) && !(bit c.wake 63) && decide (0 < c.cap) &&
    (List.range c.cap).all fun i => decide (c.slot i + c.es ≤ cb ∨ cb + 64 ≤ c.slot i)

theorem quiet_of {s : State} {cb : Nat} (h : quietB s cb = true) : Quiet s cb := by
  simp only [quietB, Bool.and_eq_true, decide_eq_true_eq, Bool.not_eq_true', List.all_eq_true, List.mem_range] at h
  obtain ⟨⟨⟨h1, h2⟩, h3⟩, h4⟩ := h
  refine ⟨h1, h2, fun i => ?_⟩
  have := h4 (i % (readCb s cb).cap) (Nat.mod_lt _ h3)
  simpa [CB.slot, Nat.mod_mod] using this

def elemB (e : Elem) (l : List Byte) : Bool :=
  match e with
  | .ready x => decide (x = l)
  | _ => false

theorem elem_of {e : Elem} {l : List Byte} (h : elemB e l = true) : e = .ready l := by
  unfold elemB at h
  split at h
  · simpa using h
  · exact absurd h (by simp)

def warpWho : LWho := .warp 0 7 31
def el64 : List Byte := List.replicate 64 1

theorem witness_LeatData :
    (∃ s q u e0 e, AtLeat s q u ∧ Quiet u q.cb ∧ q.op = .enq e0 ∧ sizeWrong q (readCb u q.cb) = false ∧ (readCb u q.cb).mode = 0 ∧
      (readCb u q.cb).state = lOPEN ∧ enqElem u q e0 = .ready e ∧ e.length = (readCb u q.cb).es ∧ 0 < (readCb u q.cb).free) ∧
    (∀ st ∈ [0, 1, 3], ∃ s q u e0 e, AtLeat s q u ∧ q.op = .enq e0 ∧ sizeWrong q (readCb u q.cb) = false ∧ (readCb u q.cb).mode = 0 ∧
      enqElem u q e0 = .ready e ∧ q.blocking = false ∧ (readCb u q.cb).state = st ∧ (readCb u q.cb).free = 0) ∧
    (∃ s q u e0, AtLeat s q u ∧ q.op = .enq e0 ∧ sizeWrong q (readCb u q.cb) = false ∧ (readCb u q.cb).mode = 1) ∧
    (∀ e ∈ [(0, 1, false), (1, 1, false), (1, 1, true)], ∃ s q u, AtLeat s q u ∧ Quiet u q.cb ∧ q.op = .deq ∧ q.who = warpWho ∧ (readCb u q.cb).mode = 0 ∧
      (readCb u q.cb).state = lOPEN ∧ (readCb u q.cb).head = e.1 ∧ (readCb u q.cb).tail = e.2.1 ∧ q.blocking = e.2.2 ∧ q.quit = false ∧
      (q.buf + (readCb u q.cb).es ≤ q.cb ∨ q.cb + 64 ≤ q.buf) ∧
      (u.lq.waiters.filter fun w => decide (w.slice = homeSlice u q.cb)).length < 512) ∧
    (∃ s q u, AtLeat s q u ∧ Quiet u q.cb ∧ q.op = .deq ∧ q.who = warpWho ∧ (readCb u q.cb).mode = 1 ∧ (readCb u q.cb).state = lOPEN ∧
      (let c := readCb u q.cb
       let h := mem64 u (c.slot c.head)
       c.head ≠ c.tail ∧ bit h 63 = true ∧ hdrWell c h (mem64 u (c.slot c.head + 8)) = true ∧ bits h 59 56 ≠ 0 ∧ bits h 59 56 ≠ 15)) ∧
    (∀ n ∈ [1, 2], ∃ s q u, AtLeat s q u ∧ Quiet u q.cb ∧ q.op = .res n ∧ (readCb u q.cb).mode = 1 ∧ (readCb u q.cb).state = lOPEN ∧
      (let c := readCb u q.cb
       n ≤ c.cap ∧ c.tail % c.cap + n ≤ c.cap ∧ n ≤ c.free)) ∧
    (∀ n ∈ [0, 3], ∃ s q u, AtLeat s q u ∧ q.op = .res n ∧ (readCb u q.cb).mode = 1 ∧ (readCb u q.cb).state = lOPEN ∧
      (n < 1 ∨ (readCb u q.cb).cap < n) ∧ waitersOf u q.cb = []) ∧
    (∀ n ∈ [1, 2], ∃ s q u, AtLeat s q u ∧ Quiet u q.cb ∧ q.op = .done n ∧ (readCb u q.cb).mode = 1 ∧
      dif (readCb u q.cb).head (readCb u q.cb).done = 1) := by
  let E := lreq (.sp 0) (.enq el64) false
  let O := lst (leatWords 0 3 1 0 0 0 0) [] E
  let F := fun st => lst (leatWords 0 3 0 0 1 0 st) [] E
  have f : ∀ st ∈ [0, 1, 3], let u := leatU (F st) E
      leatB (F st) E = true ∧ sizeWrong E (readCb u E.cb) = false ∧ (readCb u E.cb).mode = 0 ∧
      elemB (enqElem u E el64) el64 = true ∧ (readCb u E.cb).state = st ∧ (readCb u E.cb).free = 0 := by decide +kernel
  let P := lst (leatWords 1 0 1 0 0 0 0) [] (lreq warpWho (.enq []) false)
  let Q := fun b => lreq warpWho .deq b
  let G := fun (e : Nat × Nat × Bool) => lst (leatWords 0 3 1 e.1 e.2.1 e.1 0) [] (Q e.2.2)
  have g : ∀ e ∈ [(0, 1, false), (1, 1, false), (1, 1, true)], let q := Q e.2.2
      let s := leatU (G e) q
      leatB (G e) q = true ∧ quietB s q.cb = true ∧ (readCb s q.cb).mode = 0 ∧ (readCb s q.cb).state = lOPEN ∧
      (readCb s q.cb).head = e.1 ∧ (readCb s q.cb).tail = e.2.1 ∧ (q.buf + (readCb s q.cb).es ≤ q.cb ∨ q.cb + 64 ≤ q.buf) ∧
      (s.lq.waiters.filter fun w => decide (w.slice = homeSlice s q.cb)).length < 512 := by decide +kernel
  let H := lst (leatWords 1 0 1 0 1 0 0) [BitVec.ofNat 64 (2 ^ 63 + 2 ^ 56 + 2 ^ 32), 0] (Q false)
  let R := fun n => lst (leatWords 1 0 1 0 0 0 0) [] (lreq warpWho (.res n) false)
  have r : ∀ n ∈ [1, 2], let q := lreq warpWho (.res n) false
      let s := leatU (R n) q
      let c := readCb s 0x1000
      leatB (R n) q = true ∧ quietB s 0x1000 = true ∧ c.mode = 1 ∧ c.state = lOPEN ∧ n ≤ c.cap ∧
      c.tail % c.cap + n ≤ c.cap ∧ n ≤ c.free := by decide +kernel
  have r0 : ∀ n ∈ [0, 3], let q := lreq warpWho (.res n) false
      let s := leatU (R n) q
      let c := readCb s 0x1000
      leatB (R n) q = true ∧ c.mode = 1 ∧ c.state = lOPEN ∧ (n < 1 ∨ c.cap < n) ∧ waitersOf s 0x1000 = [] := by
    decide +kernel
  let N := fun n => lst (leatWords 1 0 1 1 1 0 0) [] (lreq warpWho (.done n) false)
  have nn : ∀ n ∈ [1, 2], let q := lreq warpWho (.done n) false
      let s := leatU (N n) q
      let c := readCb s 0x1000
      leatB (N n) q = true ∧ quietB s 0x1000 = true ∧ c.mode = 1 ∧ dif c.head c.done = 1 := by decide +kernel
  exact ⟨⟨O, E, _, _, el64, leat_of (by decide +kernel), quiet_of (by decide +kernel), rfl, by decide +kernel, by decide +kernel, by decide +kernel,
      elem_of (by decide +kernel), by decide +kernel, by decide +kernel⟩,
    fun st hs => ⟨F st, E, _, _, el64, leat_of (f st hs).1, rfl, (f st hs).2.1, (f st hs).2.2.1, elem_of (f st hs).2.2.2.1, rfl,
      (f st hs).2.2.2.2.1, (f st hs).2.2.2.2.2⟩,
    ⟨P, lreq warpWho (.enq []) false, _, _, leat_of (by decide +kernel), rfl, by decide +kernel, by decide +kernel⟩,
    fun e he => ⟨G e, Q e.2.2, _, leat_of (g e he).1, quiet_of (g e he).2.1, rfl, rfl, (g e he).2.2.1, (g e he).2.2.2.1, (g e he).2.2.2.2.1,
      (g e he).2.2.2.2.2.1, rfl, rfl, (g e he).2.2.2.2.2.2.1, (g e he).2.2.2.2.2.2.2⟩,
    ⟨H, Q false, _, leat_of (by decide +kernel), quiet_of (by decide +kernel), rfl, rfl, by decide +kernel, by decide +kernel, by decide +kernel⟩,
    fun n hn => ⟨R n, _, _, leat_of (r n hn).1, quiet_of (r n hn).2.1, rfl, (r n hn).2.2.1, (r n hn).2.2.2.1, (r n hn).2.2.2.2⟩,
    fun n hn => ⟨R n, _, _, leat_of (r0 n hn).1, rfl, (r0 n hn).2.1, (r0 n hn).2.2.1, (r0 n hn).2.2.2.1, (r0 n hn).2.2.2.2⟩,
    fun n hn => ⟨N n, _, _, leat_of (nn n hn).1, quiet_of (nn n hn).2.1, rfl, (nn n hn).2.2.1, (nn n hn).2.2.2⟩⟩

theorem witness_LeatControl :
    (∀ y ∈ [true, false], ∃ s q u cfg ring wake, TakenUp s q u ∧ q.op = .init cfg ring wake ∧ waitersOf u q.cb = [] ∧
      dramOk u q.cb = true ∧ initOk u q.cb cfg ring wake q.pid = y) ∧
    (∃ s q u cfg ring wake, TakenUp s q u ∧ q.op = .init cfg ring wake ∧ waitersOf u q.cb = [] ∧ dramOk u q.cb = false) ∧
    (∀ e ∈ [(0, 0), (0, 1), (3, 0)], ∃ s q u, AtLeat s q u ∧ q.op = .drain ∧ (readCb u q.cb).state = e.1 ∧
      (readCb u q.cb).tail = e.2 ∧ waitersOf u q.cb = []) ∧
    (∃ s q u, AtLeat s q u ∧ q.op = .close ∧ waitersOf u q.cb = []) ∧
    (∀ y ∈ [true, false], ∃ s q u, AtLeat s q u ∧ q.op = .reopen ∧
      decide ((readCb u q.cb).state = lCLOSED ∧ (readCb u q.cb).head = (readCb u q.cb).tail ∧ (readCb u q.cb).done = (readCb u q.cb).head) = y) ∧
    (∀ e ∈ [(2, true), (0, false)], ∃ s q u, AtLeat s q u ∧ q.op = .repair 1 ∧ Quiet u q.cb ∧ (readCb u q.cb).state = e.1 ∧
      decide ((readCb u q.cb).state = lERROR ∧ (readCb u q.cb).done = (readCb u q.cb).head ∧
        dif 1 (readCb u q.cb).head ≤ dif (readCb u q.cb).tail (readCb u q.cb).head) = e.2) ∧
    (∃ s q u, AtLeat s q u ∧ q.op = .query) := by
  let q := fun op => lreq (.port 0 0) op false
  let S := fun (op : LOp) (ws : List DWord) => lst ws [] (q op)
  let U := fun (op : LOp) (ws : List DWord) => leatU (S op ws) (q op)
  let I := fun (y : Bool) => q (.init 0 (if y then 0x2000 else 0x2001) 0)
  let K := fun (y : Bool) => (lst [] [] (I y)).setReg Reg.govPidmap 0
  have i : ∀ y ∈ [true, false], let u := leatU (K y) (I y)
      takenB (K y) (I y) = true ∧ waitersOf u 0x1000 = [] ∧ dramOk u 0x1000 = true ∧
      initOk u 0x1000 0 (if y then 0x2000 else 0x2001) 0 none = y := by decide +kernel
  let J : LReq := { I true with cb := 2 ^ 43 }
  let N : State := (lst [] [] J).setReg Reg.govPidmap 0
  let dw := fun (e : Nat × Nat) => leatWords 0 3 1 0 e.2 0 e.1
  have d : ∀ e ∈ [(0, 0), (0, 1), (3, 0)], let u := U .drain (dw e)
      leatB (S .drain (dw e)) (q .drain) = true ∧ (readCb u 0x1000).state = e.1 ∧ (readCb u 0x1000).tail = e.2 ∧ waitersOf u 0x1000 = [] := by
    decide +kernel
  let ow := fun (y : Bool) => leatWords 0 3 1 0 0 0 (if y then 3 else 0)
  have o : ∀ y ∈ [true, false], let u := U .reopen (ow y)
      leatB (S .reopen (ow y)) (q .reopen) = true ∧ decide ((readCb u 0x1000).state = lCLOSED ∧
        (readCb u 0x1000).head = (readCb u 0x1000).tail ∧ (readCb u 0x1000).done = (readCb u 0x1000).head) = y := by decide +kernel
  let pw := fun (e : Nat × Bool) => leatWords 1 0 1 0 1 0 e.1
  have p : ∀ e ∈ [(2, true), (0, false)], let u := U (.repair 1) (pw e)
      leatB (S (.repair 1) (pw e)) (q (.repair 1)) = true ∧ quietB u 0x1000 = true ∧ (readCb u 0x1000).state = e.1 ∧
      decide ((readCb u 0x1000).state = lERROR ∧ (readCb u 0x1000).done = (readCb u 0x1000).head ∧
        dif 1 (readCb u 0x1000).head ≤ dif (readCb u 0x1000).tail (readCb u 0x1000).head) = e.2 := by decide +kernel
  let w := leatWords 0 3 1 0 0 0 0
  exact ⟨fun y hy => ⟨_, I y, _, _, _, _, taken_of (i y hy).1, rfl, (i y hy).2.1, (i y hy).2.2⟩,
    ⟨N, J, _, 0, 0x2000, 0, taken_of (by decide +kernel), rfl, by decide +kernel, by decide +kernel⟩,
    fun e he => ⟨_, q .drain, _, leat_of (d e he).1, rfl, (d e he).2⟩,
    ⟨S .close w, q .close, _, leat_of (by decide +kernel), rfl, by decide +kernel⟩,
    fun y hy => ⟨_, q .reopen, _, leat_of (o y hy).1, rfl, (o y hy).2⟩,
    fun e he => ⟨_, q (.repair 1), _, leat_of (p e he).1, rfl, quiet_of (p e he).2.1, (p e he).2.2⟩,
    ⟨S .query w, q .query, _, leat_of (by decide +kernel), rfl⟩⟩

/-- A waiter to dequeue, with an offer out to it or none. -/
def waiter0 : Waiter := { id := 9, slice := 0, q := { lreq warpWho .deq true with id := 9 }, marked := false }

def wtst (ws hdr : List DWord) (offer : Option Nat) (i : Nat) : State :=
  let s := ev D i 0
  { s with ms := { s.ms with mem := (Mem.writeN [] 0x1000 (wordsBytes ws)).writeN 0x2000 (wordsBytes hdr) }
           lq := { Leats.reset with waiters := [waiter0], notes := [0x1000], removals := [9],
                                    offers := (offer.map fun τ => ({ cb := 0x1000, wid := 9, time := τ } : Offer)).toList } }

theorem alone_of {ws hdr : List DWord} {o : Option Nat} {i : Nat} : WaitsAlone (wtst ws hdr o i) 0x1000 waiter0 :=
  ⟨rfl, fun x hx _ => by simpa [wtst] using hx, rfl, rfl⟩

def deqFinds : Deq → Bool
  | .ok _ _ _ => true
  | _ => false

theorem deqFinds_of {r : Deq} (h : deqFinds r = true) : ∃ h0 h1 sl, r = .ok h0 h1 sl := by cases r <;> simp_all [deqFinds]

theorem pair_of {p : Bool × State} {b : Bool} (h : p.1 = b) : ∃ u, p = (b, u) := ⟨p.2, Prod.ext h rfl⟩

def looked (s : State) (q : LReq) : Bool × State := leatTakes s q (lookUses s (readCb s q.cb))

/-- The waiter's request finds its homes and sluices open, and a dequeue from there finds something to take. -/
def findsB (s : State) (q : LReq) : Bool × Bool :=
  ((looked s q).1, deqFinds (dequeue (looked s q).2 (q.actsFor s) (readCb s q.cb)).1)

theorem finds_of {s : State} {q : LReq} (h : findsB s q = (true, true)) : ∃ u h0 h1 sl,
    looked s q = (true, u) ∧ (dequeue u (q.actsFor s) (readCb s q.cb)).1 = .ok h0 h1 sl := by
  obtain ⟨hx, hy⟩ := Prod.mk.inj h
  obtain ⟨h0, h1, sl, e⟩ := deqFinds_of hy
  generalize looked s q = r at hx e
  exact ⟨r.2, h0, h1, sl, Prod.ext hx rfl, e⟩

theorem witness_LeatWaiting :
    (∃ s cb w s1, s.ev.i = cb ∧ (cb ∈ s.lq.notes ∨ cb ∈ s.lq.owed) ∧ offered s cb = none ∧ WaitsAlone s cb w ∧
      cbCheck (readCb s cb) cb = none ∧ (readCb s cb).state ≠ lERROR ∧ ((readCb s cb).mode = 1 ∨ cb ∈ s.lq.owed) ∧
      s.withLq { s.lq with notes := s.lq.notes.filter fun x => decide (x ≠ cb), owed := s.lq.owed.filter fun x => decide (x ≠ cb) } = s1 ∧
      ∃ u h0 h1 sl, leatTakes s1 w.q (lookUses s1 (readCb s1 cb)) = (true, u) ∧
        (dequeue u (w.q.actsFor s1) (readCb s1 cb)).1 = .ok h0 h1 sl) ∧
    (∃ s cb w s1, s.ev.i = cb ∧ (cb ∈ s.lq.notes ∨ cb ∈ s.lq.owed) ∧ offered s cb = none ∧ WaitsAlone s cb w ∧
      cbCheck (readCb s cb) cb = none ∧ (readCb s cb).state ≠ lERROR ∧ ((readCb s cb).mode = 1 ∨ cb ∈ s.lq.owed) ∧
      s.withLq { s.lq with notes := s.lq.notes.filter fun x => decide (x ≠ cb), owed := s.lq.owed.filter fun x => decide (x ≠ cb) } = s1 ∧
      ∃ u, leatTakes s1 w.q (lookUses s1 (readCb s1 cb)) = (false, u)) ∧
    (∃ s cb, s.ev.i = cb ∧ cb ∈ s.lq.notes ∧ offered s cb = none ∧ (cbCheck (readCb s cb) cb).isSome = true) ∧
    (∃ s w d, s.ev.i = d ∧ s.lq.waiters = [w] ∧ w.q.op.isDeq = true ∧ w.marked = false ∧ cbDie w.q.cb = d ∧ offered s w.q.cb = none ∧
      cbCheck (readCb s w.q.cb) w.q.cb = none ∧ (readCb s w.q.cb).state ≠ lERROR ∧ ∃ u h0 h1 sl,
      leatTakes s w.q (lookUses s (readCb s w.q.cb)) = (true, u) ∧ (dequeue u (w.q.actsFor s) (readCb s w.q.cb)).1 = .ok h0 h1 sl) ∧
    (∃ s o w u, offered s s.ev.i = some o ∧ o.cb = s.ev.i ∧ o.onTime s = true ∧ WaitsAlone s o.cb w ∧ w.id = o.wid ∧
      w.q.who = warpWho ∧ leatGate s w.q = (true, u) ∧ accepts s w = true ∧ (readCb u o.cb).mode = 0 ∧ (readCb u o.cb).state = lOPEN ∧
      (readCb u o.cb).head ≠ (readCb u o.cb).tail ∧ (w.q.buf + (readCb u o.cb).es ≤ o.cb ∨ o.cb + 64 ≤ w.q.buf) ∧
      quietB { u with lq := { u.lq with waiters := [] } } o.cb = true) ∧
    (∃ (s : State) (o : Offer) (w : Waiter), offered s s.ev.i = some o ∧ o.cb = s.ev.i ∧ o.onTime s = true ∧ WaitsAlone s o.cb w ∧
      w.id = o.wid ∧ (∃ i op l, w.q.who = .warp i op l) ∧ accepts s w = false) ∧
    (∀ y ∈ [true, false], ∃ s o w, offered s s.ev.i = some o ∧ o.cb = s.ev.i ∧ WaitsAlone s o.cb w ∧ w.id = o.wid ∧
      decide (o.time + 2000 ≤ s.now (cbDie o.cb)) = y) ∧
    (∃ s w, s.ev.i ∈ s.lq.removals ∧ w.id = s.ev.i ∧ waitersOf s w.q.cb = [w] ∧ w ∈ s.lq.waiters ∧
      (∀ x ∈ s.lq.waiters, x.id = w.id → x = w)) ∧
    (∀ y ∈ [true, false], ∃ (s : State) (q : LReq) (τ : Nat), (s.lq.reqs.find? fun x => decide (x.id = s.ev.i)) = some q ∧ q.reissue = some τ ∧
      decide (τ + 1000 ≤ s.now (cbDie q.cb)) = y) := by
  let H := [BitVec.ofNat 64 (2 ^ 63 + 2 ^ 56 + 2 ^ 32), 0]
  let A0 := wtst (leatWords 1 0 1 0 1 0 0) H none 0x1000
  let A := fun (y : Bool) => if y then A0 else { A0 with gov := { A0.gov with holdSlices := List.range 64 } }
  let B := wtst (leatWords 0 3 1 0 1 0 0) [] (some 0) 0x1000
  let mk : Waiter := { waiter0 with q := { waiter0.q with ctx := some { card := 5, gen := 1 } } }
  let M := B.withLq { B.lq with waiters := [mk] }
  let T := fun (y : Bool) => ({ B with time := { Times.reset with m0 := if y then 2000 else 1999 } } : State)
  have t : ∀ y ∈ [true, false], offered (T y) 0x1000 = some { cb := 0x1000, wid := 9, time := 0 } ∧ decide (2000 ≤ (T y).now (cbDie 0x1000)) = y := by
    decide +kernel
  let r := { lreq warpWho .deq true with reissue := some 0 }
  let R := fun (y : Bool) => ({ lst [] [] r with time := { Times.reset with m0 := if y then 1000 else 999 } } : State)
  have rr : ∀ y ∈ [true, false], decide (1000 ≤ (R y).now (cbDie 0x1000)) = y := by decide +kernel
  let Z := fun y => (A y).withLq { (A y).lq with notes := (A y).lq.notes.filter (fun x => decide (x ≠ 0x1000)), owed := (A y).lq.owed.filter (fun x => decide (x ≠ 0x1000)) }
  have z : findsB (Z true) waiter0.q = (true, true) ∧ (leatTakes (Z false) waiter0.q (lookUses (Z false) (readCb (Z false) 0x1000))).1 = false := by
    decide +kernel
  exact ⟨⟨A true, 0x1000, waiter0, Z true, rfl, by decide +kernel, by decide +kernel, alone_of, by decide +kernel, by decide +kernel,
      by decide +kernel, rfl, finds_of z.1⟩,
    ⟨A false, 0x1000, waiter0, Z false, rfl, by decide +kernel, by decide +kernel, ⟨rfl, fun x hx _ => by simpa [A, A0, wtst] using hx, rfl, rfl⟩,
      by decide +kernel, by decide +kernel, by decide +kernel, rfl, pair_of z.2⟩,
    ⟨wtst [] [] none 0x1000, 0x1000, rfl, by decide +kernel, by decide +kernel, by decide +kernel⟩,
    ⟨wtst (leatWords 0 3 1 0 1 0 0) [] none 0, waiter0, 0, rfl, rfl, rfl, rfl, by decide +kernel, by decide +kernel, by decide +kernel,
      by decide +kernel, finds_of (by decide +kernel)⟩,
    ⟨B, { cb := 0x1000, wid := 9, time := 0 }, waiter0, _, by decide +kernel, rfl, by decide +kernel, alone_of, rfl, rfl,
      Prod.ext (by decide +kernel) rfl, by decide +kernel,
      by decide +kernel, by decide +kernel, by decide +kernel, by decide +kernel, by decide +kernel⟩,
    ⟨M, { cb := 0x1000, wid := 9, time := 0 }, mk, by decide +kernel, rfl, by decide +kernel, ⟨rfl, fun x hx _ => by simpa [M, B, wtst, State.withLq] using hx, rfl, rfl⟩,
      rfl, ⟨0, 7, 31, rfl⟩, by decide +kernel⟩,
    fun y hy => ⟨T y, _, waiter0, (t y hy).1, rfl, ⟨rfl, fun x hx _ => by simpa [T, B, wtst] using hx, rfl, rfl⟩, rfl, by simpa using (t y hy).2⟩,
    ⟨wtst [] [] none 9, waiter0, by decide +kernel, rfl, rfl, by decide +kernel, fun x hx _ => by simpa [wtst] using hx⟩,
    fun y hy => ⟨R y, r, 0, rfl, rfl, by simpa [r, lreq] using rr y hy⟩⟩

/-- Thread th of M1's queue processor in a state, named by the event. -/
def qev (th : Nat) (t : Thread) : State :=
  let s := setThread (ev UP 1 th) 1 th t
  { s.setRegF (Reg.qpCtl 1) 0 0 1 with ms := { s.ms with tlb := [page0 1 101] } }

/-- A read by the queue processor of M1 at a virtual address: its place, and the states after the translation and after the read. -/
def qRead (s : State) (va : Nat) : Option (Nat × State × State) :=
  match translate s (qSpace s 1 31) va .read with
  | (.ok pa, s1) => match homeRead s1 72 (qPid s1 1 31) (pa / 64) with
    | (true, s2) => some (pa, s1, s2)
    | _ => none
  | _ => none

theorem qRead_of {s : State} {va : Nat} (h : (qRead s va).isSome = true) : ∃ pa s1 s2,
    translate s (qSpace s 1 31) va .read = (.ok pa, s1) ∧ homeRead s1 72 (qPid s1 1 31) (pa / 64) = (true, s2) := by
  unfold qRead at h
  split at h
  · split at h
    · exact ⟨_, _, _, ‹_›, ‹_›⟩
    · simp at h
  · simp at h

/-- The state of M1's thread 31 once it owes nothing to memory. -/
def owedU (s : State) : State := (qpOwesNot s 1 31).2

theorem witness_QueueEvents :
    (∃ s u, s.ev.i = 1 ∧ s.ev.j = 31 ∧ qpRuns s 1 31 = true ∧ (thread s 1 31).st = .fetch ∧ qpOwesNot s 1 31 = (true, u) ∧
      (thread u 1 31).ans = none ∧ (thread u 1 31).asked = false) ∧
    (∀ n ∈ [0, 3], ∃ s u a, s.ev.i = 1 ∧ s.ev.j = 31 ∧ qpRuns s 1 31 = true ∧ (thread s 1 31).st = .fetch ∧ qpOwesNot s 1 31 = (true, u) ∧
      (thread u 1 31).ans = some a ∧ a.trap = none ∧ a.status = n ∧ (thread u 1 31).gather ≤ 1) ∧
    (∃ s u, s.ev.i = 1 ∧ s.ev.j = 31 ∧ qpRuns s 1 31 = true ∧ (thread s 1 31).st = .fetch ∧ qpOwesNot s 1 31 = (false, u)) ∧
    (∀ noted ∈ [true, false], ∃ s u next sec, s.ev.i = 1 ∧ s.ev.j = 31 ∧ (thread s 1 31).blk = some (.cond next sec noted) ∧
      (thread s 1 31).st = .blocked ∧ qpRuns s 1 31 = true ∧ next = s.now 1 ∧ qpOwesNot s 1 31 = (true, u) ∧
      (let p := shadowPkt s 1 31 (thread s 1 31).idx
       p.w1 ≠ 0 ∧ ∃ pa s1 s2, translate u (qSpace u 1 31) p.w1.toNat .read = (.ok pa, s1) ∧
         homeRead s1 72 (qPid s1 1 31) (pa / 64) = (true, s2))) ∧
    (∀ y ∈ [true, false], ∃ s u next sec, qpOwesNot s 1 31 = (true, u) ∧ s.ev.i = 1 ∧ s.ev.j = 31 ∧ (thread s 1 31).blk = some (.cond next sec false) ∧
      (thread s 1 31).st = .blocked ∧ qpRuns s 1 31 = true ∧ s.now 1 < next ∧
      (let p := shadowPkt s 1 31 (thread s 1 31).idx
       decide (p.w4 ≠ 0 ∧ p.w4.toNat ≤ s.now 1) = y)) ∧
    (∀ y ∈ [true, false], ∃ s u b, qpOwesNot s 1 31 = (true, u) ∧ s.ev.i = 1 ∧ s.ev.j = 31 ∧ (thread s 1 31).blk = some b ∧ (thread s 1 31).st = .blocked ∧
      (thread s 1 31).stop = false ∧ qpRuns s 1 31 = true ∧
      blockOver s (thread s 1 31) (shadowPkt s 1 31 (thread s 1 31).idx) b = y) ∧
    (∃ s : State, s.ev.i = 1 ∧ qpAdopting s 1 = true ∧ s.regBit (Reg.qpCtl 1) 0 = true ∧ s.regF (Reg.qpAdopt 1) 61 0 + 132800 ≤ s.now 1 ∧
      s.regBit (Reg.mqCfg 0 31) 63 = true ∧ (∀ j, j < 32 → j ≠ 31 → s.regBit (Reg.mqCfg 0 j) 63 = false) ∧
      s.th.find (thKey 1 63) = none ∧ (thread s 0 31).st = .adopted ∧ bits (mem64 s (shadowPa s 1 63 + 8)) 2 0 = 0) ∧
    (∃ s : State, s.ev.i = 1 ∧ qpOut s 1 = true ∧ s.gov.qpRestart.find 1 = none ∧ s.regF (Reg.qpAdopt 0) 63 62 = 2 ∧ qpAdopting s 0 = false ∧
      s.regBit (Reg.mqCfg 1 31) 63 = true ∧ (∀ j, j < 32 → j ≠ 31 → s.regBit (Reg.mqCfg 1 j) 63 = false) ∧ (thread s 1 31).st = .adopted ∧
      bits (mem64 s (shadowPa s 1 31 + 8)) 2 0 = 0) := by
  let F := qev 31 (thr .fetch)
  let A := fun n => qev 31 { thr .fetch with ans := some (LAns.st n) }
  have a : ∀ n ∈ [0, 3], qpRuns (A n) 1 31 = true ∧ (thread (A n) 1 31).st = .fetch ∧ (qpOwesNot (A n) 1 31).1 = true ∧
      (thread (owedU (A n)) 1 31).ans = some (LAns.st n) ∧
      (LAns.st n).trap = none ∧ (LAns.st n).status = n ∧ (thread (owedU (A n)) 1 31).gather ≤ 1 := by decide +kernel
  let pkt := fun (s : State) (p : Rec64) => s.setMem (Mem.writeN [] 64 (wordsBytes p.words))
  let C := fun noted => pkt (qev 31 { thr .blocked with blk := some (.cond 0 64 noted) }) (rec64 2 8 0 0 0)
  have c : ∀ noted ∈ [true, false], (thread (C noted) 1 31).blk = some (.cond 0 64 noted) ∧ (thread (C noted) 1 31).st = .blocked ∧
      qpRuns (C noted) 1 31 = true ∧ 0 = (C noted).now 1 ∧
      (qpOwesNot (C noted) 1 31).1 = true ∧ (let p := shadowPkt (C noted) 1 31 (thread (C noted) 1 31).idx
       p.w1 ≠ 0 ∧ (qRead (owedU (C noted)) p.w1.toNat).isSome = true) := by decide +kernel
  let W := fun (y : Bool) => ({ pkt (qev 31 { thr .blocked with blk := some (.cond 6 64 false) }) (rec64 2 8 0 0 (if y then 5 else 6)) with
    time := { Times.reset with m1 := 5 } } : State)
  have w : ∀ y ∈ [true, false], (qpOwesNot (W y) 1 31).1 = true ∧ (thread (W y) 1 31).blk = some (.cond 6 64 false) ∧ (thread (W y) 1 31).st = .blocked ∧
      qpRuns (W y) 1 31 = true ∧ (W y).now 1 < 6 ∧
      (let p := shadowPkt (W y) 1 31 (thread (W y) 1 31).idx
       decide (p.w4 ≠ 0 ∧ p.w4.toNat ≤ (W y).now 1) = y) := by decide +kernel
  let B := fun (y : Bool) => qev 31 { thr .blocked with blk := some .leat, ans := if y then some (LAns.st 0) else none }
  have b : ∀ y ∈ [true, false], (qpOwesNot (B y) 1 31).1 = true ∧ (thread (B y) 1 31).blk = some .leat ∧ (thread (B y) 1 31).st = .blocked ∧ (thread (B y) 1 31).stop = false ∧
      qpRuns (B y) 1 31 = true ∧ blockOver (B y) (thread (B y) 1 31) (shadowPkt (B y) 1 31 (thread (B y) 1 31).idx) .leat = y := by decide +kernel
  let G : State := { ((setThread (ev UP 1 0) 0 31 (thr .adopted)).setRegF (Reg.qpCtl 1) 0 0 1).setRegF (Reg.qpStatus 1) 1 1 1 with
    time := { Times.reset with m1 := 132800 } }
  let H := (setThread (ev UP 1 0) 1 31 (thr .adopted)).setRegF (Reg.qpStatus 1) 2 2 1
  let V : State := { qev 31 { thr .fetch with owes := some (1, 0) } with qpch := [(1, 5)] }
  exact ⟨⟨F, _, rfl, rfl, by decide +kernel, by decide +kernel, Prod.ext (by decide +kernel) rfl, by decide +kernel, by decide +kernel⟩,
    fun n hn => ⟨A n, _, _, rfl, rfl, (a n hn).1, (a n hn).2.1, Prod.ext (a n hn).2.2.1 rfl, (a n hn).2.2.2⟩,
    ⟨V, _, rfl, rfl, by decide +kernel, by decide +kernel, Prod.ext (by decide +kernel) rfl⟩,
    fun n hn => ⟨C n, _, 0, 64, rfl, rfl, (c n hn).1, (c n hn).2.1, (c n hn).2.2.1, (c n hn).2.2.2.1, Prod.ext (c n hn).2.2.2.2.1 rfl,
      (c n hn).2.2.2.2.2.1, qRead_of (c n hn).2.2.2.2.2.2⟩,
    fun y hy => ⟨W y, _, 6, 64, Prod.ext (w y hy).1 rfl, rfl, rfl, (w y hy).2⟩,
    fun y hy => ⟨B y, _, _, Prod.ext (b y hy).1 rfl, rfl, rfl, (b y hy).2⟩,
    ⟨G.setReg (Reg.mqCfg 0 31) (BitVec.ofNat 64 (2 ^ 63)), rfl, by decide +kernel, by decide +kernel, by decide +kernel, by decide +kernel,
      by decide +kernel, by decide +kernel, by decide +kernel, by decide +kernel⟩,
    ⟨(H.setReg (Reg.mqCfg 1 31) (BitVec.ofNat 64 (2 ^ 63))).setReg (Reg.qpAdopt 0) (BitVec.ofNat 64 (2 ^ 63)), rfl, by decide +kernel,
      by decide +kernel, by decide +kernel, by decide +kernel, by decide +kernel, by decide +kernel, by decide +kernel, by decide +kernel⟩⟩

/-! ## Witnesses: releases and dispatch -/

/-- The header of a vision kernel of blocks of one thread. -/
def hdr0 : List DWord := [0x14B484452, 0, BitVec.ofNat 64 (1 + 2 ^ 12 + 2 ^ 24 + 2 ^ 36 + 2 ^ 44 + 2 ^ 52), 0, 0, 0, 0, 0]

def rel0 (who : Launcher) : Release := { placedRel with hdr := hdr0, grid := 0x100010001, launcher := who }

/-- Words of job card 1023, which a release has made known; PID 0 in partition 0, the DDX enabled. -/
def cardS (ws : List (Nat × Nat)) (f : CardSt) (s : State) : State :=
  let s1 := ws.foldl (fun (s : State) e => s.setReg (Reg.card 1023 + 8 * e.1) (BitVec.ofNat 64 e.2)) (s.setReg Reg.govPidmap 0)
  (setCardSt s1 1023 f).setReg Reg.ddxCtl 1

/-- Graph 63 with a run. -/
def grun (ns : List NodeSt) (cs : List Nat) (mem : List (Nat × Nat)) : State :=
  let s := ev D 63 0
  let s1 := (s.setReg (Reg.graphCfg 63) (BitVec.ofNat 64 (2 ^ 63 + 65536 * ns.length))).withDdx
    { s.ddx with graphs := [(63, { counters := cs, nodes := ns, bodies := [], answers := [] })] }
  mem.foldl (fun (s : State) e => s.setReg (Reg.graphMem + 8 * e.1) (BitVec.ofNat 64 e.2)) s1

/-- What a periodic release reads: the header is read, no register changes, and SHAPE does not refuse it. -/
def periodicB (s : State) : Bool :=
  match loadWords s (ddxSpace s 1023) (cardWord s 1023 8).toNat 8 with
  | (.ok hdr, s1) => decide (s1.regs = s.regs) && hdrValid hdr 1 && !(shapeRefused s1 1023 (cardRelease s1 1023 hdr []))
  | _ => false

def periodicBadB (s : State) : Bool :=
  match loadWords s (ddxSpace s 1023) (cardWord s 1023 8).toNat 8 with
  | (.ok hdr, s1) => decide (s1.regs = s.regs) && !(hdrValid hdr 1)
  | _ => false

theorem witness_ReleaseEvents_graph :
    (∃ (s : State) (r : GraphRun), s.ev.i = 63 ∧ s.ev.j = 0 ∧ s.ddx.graphs.find 63 = some r ∧ r.nodes[0]? = some (.ended false) ∧
      (∃ k x, k ≠ 0 ∧ r.nodes[k]? = some x ∧ x.pending = true)) ∧
    (∃ (s : State) (r : GraphRun), s.ev.i = 63 ∧ s.ev.j = 0 ∧ s.ddx.graphs.find 63 = some r ∧ r.nodes[0]? = some (.ended true) ∧
      nodeSucc s 63 0 = [1] ∧ 1 < r.nodes.length ∧ 1 < r.counters.length ∧ r.counters.getD 1 0 = 1) ∧
    (∃ (s : State) (r : GraphRun), s.ev.i = 63 ∧ s.ev.j = 0 ∧ s.ddx.graphs.find 63 = some r ∧ r.nodes[0]? = some (.ended true) ∧
      nodeSucc s 63 0 = [] ∧ (∀ k x, k ≠ 0 → r.nodes[k]? = some x → x = .done) ∧ s.reg (Reg.graphDone 63) = 0) := by
  let A := grun [.ended false, .running] [0, 0] []
  let B := grun [.ended true, .waiting] [0, 1] [(8, 0x100), (9, 1)]
  let C := grun [.ended true, .done] [0, 0] []
  refine ⟨⟨A, _, rfl, rfl, rfl, rfl, 1, .running, by decide, rfl, rfl⟩, ⟨B, _, rfl, rfl, rfl, rfl, by decide +kernel, by decide, by decide, rfl⟩,
    ⟨C, _, rfl, rfl, rfl, rfl, by decide +kernel, ?_, by decide +kernel⟩⟩
  intro k x hk h
  match k, hk with
  | 1, _ => simpa using h.symm
  | n + 2, _ => simp at h

/-- A LAUNCH's request with its release prepared. -/
def ask0 : Ask := { id := 5, src := .queue 1 31 0 31, card := 1023, pkt := launch0, rel := some (rel0 (.queue 1 31 0 31)) }

theorem witness_ReleaseEvents_asks :
    (∀ e ∈ [(0, 1, false), (0, 0, true), (2, 1, false)], ∃ s r, (s.ddx.asks.find? fun x => decide (x.id = s.ev.i)) = some ask0 ∧
      ask0.rel = some r ∧ s.regBit Reg.ddxCtl 0 = true ∧ cardPid s 1023 ∉ s.gov.holdPids ∧
      (∀ e ∈ s.ddx.ids, ¬ (e.1 = 1 ∧ e.2.1 = 31 ∧ e.2.2.1 = 0)) ∧ r.launcher ≠ .periodic ∧
      cardFree s 1023 = decide (e.1 = 0) ∧ (cardFree s 1023 = true → shapeRefused s 1023 r = e.2.2)) ∧
    (∃ s : State, s.regBit Reg.ddxCtl 0 = false) ∧
    (∃ s : State, s.ev.i = 1023 ∧ cardActive s 1023 = true ∧ cardIsLaunch s 1023 = false ∧ nextRel s 1023 ≤ s.now 3 ∧
      cardPid s 1023 ∉ s.gov.holdPids ∧ cardFree s 1023 = false) ∧
    (∀ y ∈ [true, false], ∃ s : State, s.ev.i = 1023 ∧ cardActive s 1023 = true ∧ cardIsLaunch s 1023 = false ∧ nextRel s 1023 ≤ s.now 3 ∧
      cardPid s 1023 ∉ s.gov.holdPids ∧ s.regBit Reg.ddxCtl 0 = true ∧ cardFree s 1023 = true ∧ cardKind s 1023 = 1 ∧
      (if y then periodicB s else periodicBadB s) = true) ∧
    (∃ s : State, s.ev.i = 1023 ∧ s.now 3 < nextRel s 1023) := by
  let A := fun (st room : Nat) => { cardS [(0, 0x10004), (7, room), (14, st)] CardSt.none (ev D 5 0) with
    ddx := { (cardS [] CardSt.none D).ddx with asks := [ask0] } }
  have a : ∀ e ∈ [(0, 1, false), (0, 0, true), (2, 1, false)], let s := A e.1 e.2.1
      (s.ddx.asks.find? fun x => decide (x.id = s.ev.i)) = some ask0 ∧ s.regBit Reg.ddxCtl 0 = true ∧ cardPid s 1023 ∉ s.gov.holdPids ∧
      cardFree s 1023 = decide (e.1 = 0) ∧ (cardFree s 1023 = true → shapeRefused s 1023 (rel0 (.queue 1 31 0 31)) = e.2.2) := by decide +kernel
  let P := fun (st : Nat) (h : List DWord) =>
    let s := cardS [(0, 0x10001), (1, 1000), (2, 0), (3, 1), (4, 0x9000000000000000), (7, 1), (14, 128 + st)] CardSt.none (ev D 1023 0)
    ({ s with ms := { s.ms with tlb := [page0 0 120], mem := Mem.writeN [] 0x1000 (wordsBytes h) } } : State)
  have p : ∀ y ∈ [true, false], let s := P 0 (if y then [0x114B484452, 1, 0, 0, 0, 0, 0, 0] else [])
      cardActive s 1023 = true ∧ cardIsLaunch s 1023 = false ∧ nextRel s 1023 ≤ s.now 3 ∧ cardPid s 1023 ∉ s.gov.holdPids ∧
      s.regBit Reg.ddxCtl 0 = true ∧ cardFree s 1023 = true ∧ cardKind s 1023 = 1 ∧ (if y then periodicB s else periodicBadB s) = true := by
    decide +kernel
  exact ⟨fun e he => ⟨A e.1 e.2.1, rel0 (.queue 1 31 0 31), (a e he).1, rfl, (a e he).2.1, (a e he).2.2.1, (fun x hx => (List.not_mem_nil hx).elim),
      by decide, (a e he).2.2.2.1, (a e he).2.2.2.2⟩,
    ⟨D, by decide +kernel⟩,
    ⟨P 2 [], rfl, by decide +kernel, by decide +kernel, by decide +kernel, by decide +kernel, by decide +kernel⟩,
    fun y hy => ⟨_, rfl, p y hy⟩, ⟨cardS [(2, 1)] CardSt.none (ev D 1023 0), rfl, by decide +kernel⟩⟩

theorem witness_DispatchEvents_dispatch :
    (∀ k ∈ [0, 1, 2], ∃ (s : State) (res : Nat), s.ev.i = 1023 ∧ s.ev.j = res ∧ s.regBit Reg.ddxCtl 0 = true ∧ waitsDdx s 1023 = true ∧
      (cardSt s 1023).tear = false ∧ opOk s 1023 res = true ∧ powerFits s 1023 = true ∧ served s 1023 res = true ∧ cardKind s 1023 = k ∧
      (∀ d ∈ knownCards s, comesFirst s d 1023 res = false)) ∧
    (∃ s : State, s.ev.i = 1023 ∧ s.regBit Reg.ddxCtl 0 = true ∧ waitsDdx s 1023 = true ∧ (cardSt s 1023).tear = false ∧
      opOk s 1023 s.ev.j = true ∧ powerFits s 1023 = false ∧
      (s.reg Reg.pwrAdm).toNat + cardPwr s 1023 ≤ s.regF Reg.pwrCap 15 0 + powerLeaving s) ∧
    (∃ (s : State) (v : Nat), s.ev.i = 1023 ∧ s.regBit Reg.ddxCtl 0 = true ∧ waitsDdx s 1023 = true ∧ (cardSt s 1023).tear = false ∧
      opOk s 1023 s.ev.j = true ∧ powerFits s 1023 = false ∧
      s.regF Reg.pwrCap 15 0 + powerLeaving s < (s.reg Reg.pwrAdm).toNat + cardPwr s 1023 ∧
      latest s ((runningCards s).filter fun d => decide (cardClass s d = 2) && precedes s 1023 d) = some v ∧ (cardSt s v).preempt = none) := by
  let A := fun (k : Nat) =>
    let s := cardS [(0, 0x10000 + k), (14, 1)] CardSt.none (ev D 1023 5)
    ({ s with ddx := { s.ddx with rel := [(1023, rel0 .periodic)] } } : State).setReg Reg.pwrCap 1000
  have a : ∀ k ∈ [0, 1, 2], let s := (A k).withDdx { (A k).ddx with rel := [(1023, { rel0 .periodic with grid := 0x80 })] }
      s.regBit Reg.ddxCtl 0 = true ∧ waitsDdx s 1023 = true ∧ (cardSt s 1023).tear = false ∧ opOk s 1023 5 = true ∧
      powerFits s 1023 = true ∧ served s 1023 5 = true ∧ cardKind s 1023 = k ∧
      (∀ d ∈ knownCards s, comesFirst s d 1023 5 = false) := by decide +kernel
  let B := (((setCardSt (A 0) 0 CardSt.none).setReg (Reg.card 0) 0x10).setReg (Reg.card 0 + 112) 2).setReg (Reg.card 1023 + 56) (BitVec.ofNat 64 (2 ^ 44 * 1001))
  let L := (setCardSt B 0 { CardSt.none with preempt := some 0 }).setReg (Reg.card 0 + 56) (BitVec.ofNat 64 (2 ^ 44 * 1001))
  exact ⟨fun k hk => ⟨_, 5, rfl, rfl, a k hk⟩,
    ⟨L, rfl, by decide +kernel, by decide +kernel, by decide +kernel, by decide +kernel, by decide +kernel, by decide +kernel⟩,
    ⟨B, 0, rfl, by decide +kernel, by decide +kernel, by decide +kernel, by decide +kernel, by decide +kernel, by decide +kernel, by decide +kernel, by decide +kernel⟩⟩

/-- The deadline at 5 with DMPOL 1, 0 and 2, at its time and 1 ns before; temperatures at TLIM + 10, TLIM and below. -/
theorem witness_DispatchEvents_ends :
    (∀ y ∈ [true, false], ∃ s : State, s.ev.i = 1023 ∧ (cardSt s 1023).preempt = some 0 ∧ (cardSt s 1023).tear = false ∧
      cardState s 1023 = stRunning ∧ cardKind s 1023 = 0 ∧ (∀ e ∈ s.pces, e.2.card.map (fun x => x.card) ≠ some 1023) ∧
      (s.warps.any fun e => decide (e.2.card = 1023 ∧ e.2.place.isSome = true)) = y ∧
      (y = false → (regionTakes s (saveArea s 1023) (imageBytes s 1023)).isSome = true)) ∧
    (∃ s : State, s.ev.i = 1023 ∧ (cardSt s 1023).preempt = some 0 ∧ (cardSt s 1023).tear = false ∧
      cardState s 1023 = stRunning ∧ cardKind s 1023 = 0 ∧ s.pces = [] ∧ s.warps = [] ∧
      regionTakes s (saveArea s 1023) (imageBytes s 1023) = none) ∧
    (∀ y ∈ [true, false], ∃ s : State, s.ev.i = 1023 ∧ cardState s 1023 = stRunning ∧ (cardSt s 1023).tear = false ∧
      (cardSt s 1023).preempt = none ∧ cardKind s 1023 = 0 ∧ (∀ e ∈ s.tiles, e.2.card.map (fun x => x.card) ≠ some 1023) ∧
      (∀ e ∈ s.pces, e.2.card.map (fun x => x.card) ≠ some 1023) ∧ workDone s 1023 = y ∧
      max (cardSt s 1023).ch (tileHorizon s 1023) ≤ s.now 3) ∧
    (∀ e ∈ [(1, 2, 5), (0, 1, 5), (2, 1, 5), (1, 4, 4)], ∃ s : State, s.ev.i = 1023 ∧ cardState s 1023 = e.2.1 ∧ bit (cardWord s 1023 14) 4 = false ∧
      cardDeadline s 1023 = 5 ∧ s.now 3 = e.2.2 ∧ cardDmpol s 1023 = e.1) ∧
    (∀ e ∈ [(30, 3), (20, 0), (19, 0)], ∃ s : State, s.ev.i = 1 ∧ s.ddx.therm.find 1 = some 0 ∧ s.now 3 = 100000 ∧ allRunning s = [] ∧
      s.regF (Reg.opStat 1) 15 8 = e.1 ∧ s.regF Reg.tlim 7 0 = 20 ∧ opPoint s 1 = e.2) ∧
    (∀ y ∈ [true, false], ∃ s : State, s.ev.i = 1 ∧ s.ddx.opNext.find 1 = some 3 ∧ opMay s 1 3 = y) := by
  let S := fun (st : Nat) (f : CardSt) => cardS [(14, st)] f (ev D 1023 0)
  let W : Warp := { placedWarp D with card := 1023 }
  let P := fun (y : Bool) => ({ S 2 { CardSt.none with preempt := some 0 } with warps := if y then [(0, W)] else [] } : State)
  have p : ∀ y ∈ [true, false], (cardSt (P y) 1023).preempt = some 0 ∧ (cardSt (P y) 1023).tear = false ∧ cardState (P y) 1023 = stRunning ∧
      cardKind (P y) 1023 = 0 ∧ (P y).pces = [] ∧ ((P y).warps.any fun e => decide (e.2.card = 1023 ∧ e.2.place.isSome = true)) = y ∧
      (y = false → (regionTakes (P y) (saveArea (P y) 1023) (imageBytes (P y) 1023)).isSome = true) := by decide +kernel
  let P0 := P false
  let N := { P0 with gov := { P0.gov with holdSlices := List.range 64 } }
  let E := fun (y : Bool) =>
    let s := S 2 CardSt.none
    ({ s with ddx := { s.ddx with rel := [(1023, rel0 .periodic)] }, warps := if y then [] else [(0, W)] } : State)
  have e : ∀ y ∈ [true, false], cardState (E y) 1023 = stRunning ∧ (cardSt (E y) 1023).tear = false ∧ (cardSt (E y) 1023).preempt = none ∧
      cardKind (E y) 1023 = 0 ∧ (E y).tiles = [] ∧ (E y).pces = [] ∧ workDone (E y) 1023 = y ∧
      max (cardSt (E y) 1023).ch (tileHorizon (E y) 1023) ≤ (E y).now 3 := by decide +kernel
  have m : ∀ e ∈ [(1, 2, 5), (0, 1, 5), (2, 1, 5), (1, 4, 4)], let s := at3 (cardS [(0, 2048 * e.1), (13, 5), (14, e.2.1)] CardSt.none (ev D 1023 0)) e.2.2
      s.ev.i = 1023 ∧ cardState s 1023 = e.2.1 ∧ bit (cardWord s 1023 14) 4 = false ∧ cardDeadline s 1023 = 5 ∧ s.now 3 = e.2.2 ∧
      cardDmpol s 1023 = e.1 := by decide +kernel
  let T := fun (e : Nat × Nat) =>
    let s := at3 (((ev D 1 0).setReg Reg.tlim 20).setReg (Reg.opStat 1) (BitVec.ofNat 64 (256 * e.1 + e.2))) 100000
    s.withDdx { s.ddx with therm := [(1, 0)] }
  have t : ∀ e ∈ [(30, 3), (20, 0), (19, 0)], (T e).ev.i = 1 ∧ (T e).ddx.therm.find 1 = some 0 ∧ (T e).now 3 = 100000 ∧ allRunning (T e) = [] ∧
      (T e).regF (Reg.opStat 1) 15 8 = e.1 ∧ (T e).regF Reg.tlim 7 0 = 20 ∧ opPoint (T e) 1 = e.2 := by decide +kernel
  let O := fun (y : Bool) =>
    let s := cardS [(0, 1), (14, if y then 1 else 2)] CardSt.none (ev D 1 0)
    ({ s with ddx := { s.ddx with opNext := [(1, 3)] }, tiles := [(23, TileCore.blank { card := 1023, gen := 0 } 0)] } : State)
  have o : ∀ y ∈ [true, false], opMay (O y) 1 3 = y := by decide +kernel
  exact ⟨fun y hy => ⟨P y, rfl, (p y hy).1, (p y hy).2.1, (p y hy).2.2.1, (p y hy).2.2.2.1, by simp [(p y hy).2.2.2.2.1], (p y hy).2.2.2.2.2.1, (p y hy).2.2.2.2.2.2⟩,
    ⟨N, rfl, by decide +kernel, by decide +kernel, by decide +kernel, by decide +kernel, rfl, rfl, by decide +kernel⟩,
    fun y hy => ⟨E y, rfl, (e y hy).1, (e y hy).2.1, (e y hy).2.2.1, (e y hy).2.2.2.1, by simp [(e y hy).2.2.2.2.1],
      by simp [(e y hy).2.2.2.2.2.1], (e y hy).2.2.2.2.2.2⟩,
    fun x hx => ⟨_, m x hx⟩, fun x hx => ⟨T x, t x hx⟩,
    fun y hy => ⟨O y, rfl, rfl, o y hy⟩⟩

/-! ## Witnesses: placement, saves, overlays -/

/-- Card 1023 running a vision release with its unplaced teams, on every core of partition 0; event (i, j) with the cores `ids`. -/
def pl (un : List (List Nat)) (i j : Nat) (ids : List Nat) : State :=
  let s := (cardS [(14, 2)] CardSt.none (ev D i j)).setReg Reg.govPart 0
  { s with ddx := { s.ddx with rel := [(1023, { rel0 .periodic with unplaced := un })] }
           ev := { EvArgs.none with i := i, j := j, ids := ids } }

/-- The teams of a state placed as the event asks. -/
def plOut (s : State) (d : Nat) (i : Nat) : Option State :=
  let r := rel0 .periodic
  let n := teamBlocks r.hdr
  let tm := newTeam s 1023 d
  placeBlocks tm.2 1023 r.hdr tm.1 (fun k => s.ev.ids[n + k]?) (teamCoords r.hdr r.grid i) (s.ev.ids.take n)

/-- Die 0's team on core 15; the steals of 2, 1 and 0 teams. -/
theorem witness_PlacementEvents_teams :
    (∃ (s : State) (d c : Nat) (r : Release) (i : Nat) (rest : List Nat) (u : State) (x : Release), s.ev.i = d ∧ s.ev.j = c ∧
      s.ddx.rel.find c = some r ∧ r.unplaced.getD d [] = i :: rest ∧ workMoves s c = true ∧
      (s.ev.ids.take (teamBlocks r.hdr)).length = teamBlocks r.hdr ∧ (∀ y ∈ s.ev.ids.take (teamBlocks r.hdr), coreDie y = d) ∧
      plOut s d i = some u ∧ u.ddx.rel.find c = some x ∧ d < x.unplaced.length) ∧
    (∃ (s : State) (d c : Nat) (r : Release), s.ev.i = d ∧ s.ev.j = c ∧ s.ddx.rel.find c = some r ∧ r.unplaced.getD d [] = []) ∧
    (∀ e ∈ [(false, [1, 2], true), (false, [1], true), (true, [1, 2], true), (true, [], true), (false, [1, 2], false), (true, [1, 2], false)],
      ∃ (s : State) (r : Release), s.ev.i = 1 ∧ s.ev.j = 1023 ∧ s.ddx.rel.find 1023 = some r ∧ r.unplaced = [e.2.1, []] ∧
      workMoves s 1023 = true ∧ cardDies s 1023 = [0, 1] ∧
      teamBlocks r.hdr ≤ roomFor s r.hdr 1023 ((pidCores s (cardPid s 1023)).filter fun x => decide (coreDie x = 1)) ∧
      stealDue s 1 1023 e.1 = e.2.2) := by
  let A := pl [[1, 2], []] 0 1023 [15]
  have au : (plOut A 0 1).isSome = true := by decide +kernel
  have ax : ∃ x, (((plOut A 0 1).getD D).ddx.rel.find 1023) = some x ∧ x.unplaced = [[1, 2], []] :=
    ⟨{ rel0 .periodic with unplaced := [[1, 2], []] }, by decide +kernel, rfl⟩
  obtain ⟨x, hx, hu⟩ := ax
  let S := fun (e : Bool × List Nat × Bool) =>
    let s := pl [e.2.1, []] 1 1023 []
    at3 ({ s with ddx := { s.ddx with steals := if e.1 = e.2.2 then [(2047, (0, false))] else [] }, time := { s.time with m1 := 1000 } } : State) 0
  have h : ∀ e ∈ [(false, [1, 2], true), (false, [1], true), (true, [1, 2], true), (true, [], true), (false, [1, 2], false), (true, [1, 2], false)],
      (S e).ev.i = 1 ∧ (S e).ev.j = 1023 ∧ (S e).ddx.rel.find 1023 = some { rel0 .periodic with unplaced := [e.2.1, []] } ∧
      workMoves (S e) 1023 = true ∧ cardDies (S e) 1023 = [0, 1] ∧
      teamBlocks hdr0 ≤ roomFor (S e) hdr0 1023 ((pidCores (S e) (cardPid (S e) 1023)).filter fun x => decide (coreDie x = 1)) ∧
      stealDue (S e) 1 1023 e.1 = e.2.2 := by decide +kernel
  refine ⟨⟨A, 0, 1023, _, 1, [2], (plOut A 0 1).getD D, x, rfl, rfl, rfl, rfl, by decide +kernel, by decide +kernel, by decide +kernel, ?_, hx,
      by rw [hu]; decide⟩, ⟨pl [[], [1]] 0 1023 [], 0, 1023, _, rfl, rfl, rfl, rfl⟩, fun e he => ⟨S e, _, (h e he).1, (h e he).2.1, (h e he).2.2.1, rfl, (h e he).2.2.2⟩⟩
  cases e : plOut A 0 1 with
  | none => rw [e] at au; cases au
  | some u => rfl

/-- A state whose card 1023 has published record 0, of entry 0x40, on die 0, with bins and a launch queue there. -/
def contS (bins : List Bin) (q : List QWarp) : State :=
  let s := cardS [(4, 0x9000000000000000), (6, 1), (14, 2)] CardSt.none (ev D 0 1023)
  { s with ms := { s.ms with tlb := [page0 0 130], mem := Mem.writeN [] 0x1000 (wordsBytes [0x40]) }
           ddx := { s.ddx with pools := [(1023, { tail := 1, resv := [], pub := [(0, 0, 0)], head := 0, freed := [] })]
                               bins := bins, queue := [(0, q)] } }

def contOut (s : State) : Bool :=
  match loadWords s (cardSpace s 1023 0 130) (recordVa s 1023 0) 8 with
  | (.ok w, s1) => decide (dwz w 0 = 0x40) && decide (s1.ddx = s.ddx)
  | _ => false

theorem cont_of {s : State} (h : contOut s = true) : ∃ w s1,
    loadWords s (cardSpace s 1023 0 130) (recordVa s 1023 0) 8 = (.ok w, s1) ∧ dwz w 0 = 0x40 ∧ s1.ddx = s.ddx := by
  unfold contOut at h
  split at h
  · rename_i w s1 e
    simp only [Bool.and_eq_true, decide_eq_true_eq] at h
    exact ⟨w, s1, e, h⟩
  · exact absurd h (by simp)

def bin0 (e n : Nat) : Bin := { die := 0, card := 1023, entry := e, recs := List.replicate n [], t0 := 5 }

theorem witness_PlacementEvents_records :
    (∃ (s : State) (k : Nat) (p : Pool) (w : List DWord) (s1 : State), s.ev.i = 0 ∧ s.ev.j = 1023 ∧ (queueOf s 0).length < 256 ∧
      cardState s 1023 = stRunning ∧ firstPub s 0 = some 1023 ∧ poolTake (poolOf s 1023) 0 = some (k, p) ∧
      loadWords s (cardSpace s 1023 0 (130 + 0)) (recordVa s 1023 k) 8 = (.ok w, s1) ∧
      (∀ b ∈ s1.ddx.bins, ¬ (b.die = 0 ∧ b.card = 1023 ∧ b.entry = (dwz w 0).toNat)) ∧
      (s1.ddx.bins.filter fun b => decide (b.die = 0)).length = 1) ∧
    (∃ (s : State) (k : Nat) (p : Pool) (w : List DWord) (s1 : State) (b : Bin), s.ev.i = 0 ∧ s.ev.j = 1023 ∧ (queueOf s 0).length < 256 ∧
      cardState s 1023 = stRunning ∧ firstPub s 0 = some 1023 ∧ poolTake (poolOf s 1023) 0 = some (k, p) ∧
      loadWords s (cardSpace s 1023 0 (130 + 0)) (recordVa s 1023 k) 8 = (.ok w, s1) ∧
      (s1.ddx.bins.find? fun b => decide (b.die = 0 ∧ b.card = 1023 ∧ b.entry = (dwz w 0).toNat)) = some b ∧ b.recs.length = 31) ∧
    (∀ y ∈ [true, false], ∃ (s : State) (b : Bin), s.ev.i = 0 ∧ (s.ddx.bins.filter fun x => decide (x.die = 0))[s.ev.j]? = some b ∧
      (if y then b.t0 + 2000 = s.now 0 ∧ (queueOf s 0).length = 255 else s.now 0 + 1 = b.t0 + 2000)) := by
  let A := contS [bin0 0x48 1] []
  let B := contS [bin0 0x40 31] []
  obtain ⟨w, s1, h1, h2, h3⟩ := cont_of (s := A) (by decide +kernel)
  obtain ⟨x, s2, g1, g2, g3⟩ := cont_of (s := B) (by decide +kernel)
  let q : QWarp := { card := 1023, gen := 0, entry := 0, recs := [], spawn := none, order := 0 }
  let T := fun (y : Bool) =>
    let s := contS [bin0 0x40 1] (List.replicate 255 q)
    ({ s with ev := { EvArgs.none with i := 0, j := 0 }, time := { s.time with m0 := if y then 2005 else 2004 } } : State)
  have t : ∀ y ∈ [true, false], (T y).ev.i = 0 ∧ ((T y).ddx.bins.filter fun x => decide (x.die = 0))[(T y).ev.j]? = some (bin0 0x40 1) ∧
      (if y then (bin0 0x40 1).t0 + 2000 = (T y).now 0 ∧ (queueOf (T y) 0).length = 255 else (T y).now 0 + 1 = (bin0 0x40 1).t0 + 2000) := by
    decide +kernel
  refine ⟨⟨A, 0, _, w, s1, rfl, rfl, by decide +kernel, by decide +kernel, by decide +kernel, rfl, h1, ?_, by rw [h3]; decide +kernel⟩,
    ⟨B, 0, _, x, s2, bin0 0x40 31, rfl, rfl, by decide +kernel, by decide +kernel, by decide +kernel, rfl, g1, ?_, by decide⟩, fun y hy => ⟨T y, _, t y hy⟩⟩
  · rw [h3, h2]; decide +kernel
  · rw [g3, g2]; decide +kernel

/-- One warp of a record, and one of a quad. -/
theorem witness_PlacementEvents_warps :
    (∃ (s : State) (q : QWarp) (rest : List QWarp) (r : Release), s.ev.i = 1 ∧ s.ev.j = 16 ∧ queueOf s 1 = q :: rest ∧ q ∉ rest ∧
      q.spawn = none ∧ q.recs.length = 32 ∧ s.ddx.rel.find q.card = some r ∧ soloFits s (relHeader s q.card) q.card 16 1 = true) ∧
    (∃ (s : State) (q : QWarp) (rest : List QWarp) (r : Release) (x : Spawn), s.ev.i = 0 ∧ s.ev.j = 0 ∧ queueOf s 0 = q :: rest ∧
      q ∉ rest ∧ q.spawn = some x ∧ (∀ e ∈ s.warps, e.2.card = q.card → e.2.place.isSome = true) ∧ s.ddx.rel.find q.card = some r ∧
      soloFits s (relHeader s q.card) q.card 0 0 = true) := by
  let q : QWarp := { card := 1023, gen := 0, entry := 0x40, recs := List.replicate 32 [0x40], spawn := none, order := 0 }
  let x : Spawn := { prim := 3, quads := [(0, 0)], px := [some (0, 0, 1), none] }
  let p : QWarp := { card := 1023, gen := 0, entry := 0x40, recs := [], spawn := some x, order := 0 }
  let A := setQueue (pl [[], []] 1 16 []) 1 [q, p]
  let B := setQueue (pl [[], []] 0 0 []) 0 [p]
  exact ⟨⟨A, q, [p], _, rfl, rfl, rfl, by decide, rfl, rfl, rfl, by decide +kernel⟩,
    ⟨B, p, [], _, x, rfl, rfl, rfl, by decide, rfl, (fun e he => (List.not_mem_nil he).elim), rfl, by decide +kernel⟩⟩

/-- A continuation warp of card 1023 in team 1 and block 2. -/
def contWarp : Warp := { newWarp 1023 0 2 0 0 [] 0 0 0 with place := some (0, 0) }

def saveS (f : CardSt) (w : Warp) : State :=
  let s := pl [[], []] 3 0 []
  setCardSt { s with
    warps := [(3, w)]
    ddx := { s.ddx with blocks := [(2, { card := 1023, gen := 0, team := 1, kind := .cont, linear := 0, coord := (0, 0, 0), warps := [3], cores := [0],
                                         spm := 0, mem := [], poison := [] })]
                        teams := [(1, { card := 1023, gen := 0, owner := 0, phase := 0, blocks := [2],
                                        nodes := { cores := [], dies := [] } })] } } 1023 f

theorem witness_SavesAndRestores :
    (∀ e ∈ [(true, false), (false, false), (true, true)], ∃ (s : State) (w : Warp), s.ev.i = 3 ∧ s.warps.find 3 = some w ∧ w.place.isSome = true ∧
      stopping s w = e.1 ∧ w.held = e.2 ∧ w.hold = none ∧ atSavePoint s 3 w = true ∧ w.st ≠ .trapped) ∧
    (∀ y ∈ [true, false], ∃ (s : State) (w : Warp) (τ : Nat), s.ev.i = 3 ∧ s.warps.find 3 = some w ∧ (cardSt s w.card).preempt = some τ ∧
      w.place.isSome = true ∧ w.held = true ∧ w.st ≠ .trapped ∧
      (if y then s.now 3 = τ + ordBound s w.card else s.now 3 + 1 = τ + ordBound s w.card)) ∧
    (∃ (s : State) (n : Nat) (tm : Team) (b : Nat) (x : Block) (i : Nat) (w : Warp), s.ev.i = 1023 ∧ s.ev.ids = [15] ∧ s.ddx.teams = [(n, tm)] ∧
      tm.card = 1023 ∧ tm.blocks = [b] ∧ s.ddx.blocks.find b = some x ∧ x.kind = .cont ∧ x.warps = [i] ∧ s.warps.find i = some w ∧
      w.place = none ∧ w.card = 1023 ∧ workMoves s 1023 = true ∧ (∀ e ∈ s.ops, e.2.wid ≠ i) ∧ s.ms.reqs = [] ∧ s.lq.reqs = [] ∧
      soloFits s (relHeader s 1023) 1023 15 (coreDie 15) = true) := by
  let A := fun (e : Bool × Bool) => saveS { CardSt.none with preempt := if e.1 then some 0 else none } { contWarp with held := e.2 }
  have h : ∀ e ∈ [(true, false), (false, false), (true, true)], let w := { contWarp with held := e.2 }
      (A e).warps.find 3 = some w ∧ stopping (A e) w = e.1 ∧ atSavePoint (A e) 3 w = true := by decide +kernel
  let B := fun (y : Bool) => at3 ((saveS { CardSt.none with preempt := some 7 } { contWarp with held := true }).setReg
    (Reg.card 1023 + 24) (BitVec.ofNat 64 (2 ^ 32 * 5))) (if y then 12 else 11)
  have g : ∀ y ∈ [true, false], (B y).ev.i = 3 ∧ (B y).warps.find 3 = some { contWarp with held := true } ∧
      (cardSt (B y) 1023).preempt = some 7 ∧
      (if y then (B y).now 3 = 7 + ordBound (B y) 1023 else (B y).now 3 + 1 = 7 + ordBound (B y) 1023) := by decide +kernel
  let C := ({ saveS CardSt.none { contWarp with place := none, saved := true } with
    ev := { EvArgs.none with i := 1023, ids := [15] } } : State)
  refine ⟨fun e he => ⟨A e, { contWarp with held := e.2 }, rfl, (h e he).1, rfl, (h e he).2.1, rfl, rfl, (h e he).2.2, by simp [contWarp, newWarp]⟩,
    fun y hy => ⟨B y, _, 7, (g y hy).1, (g y hy).2.1, (g y hy).2.2.1, rfl, rfl, by simp [contWarp, newWarp], (g y hy).2.2.2⟩,
    ⟨C, 1, _, 2, _, 3, _, rfl, rfl, rfl, rfl, rfl, rfl, rfl, rfl, rfl, rfl, rfl, by decide +kernel, (fun e he => (List.not_mem_nil he).elim), rfl, rfl, by decide +kernel⟩⟩

/-- A state with an overlay in slot 1 of core 0's store; VM with it, which event (0, 1) names; a warp that fetches there. -/
def onS (s : State) (o : Ovl) : State :=
  s.setIst 0 { istore s 0 with ovls := (istore s 0).ovls ++ [o] }

def os (o : Ovl) : State := onS (ev VM 0 1) o

def os1 (o : Ovl) : State :=
  onS (ev (vmst fun w => { w with clause := w.clause.map fun c => { c with at_ := ⟨mkTok 2 1 0, 0⟩ } }) 0 1) o

def loading1 (gen : Nat) : Ovl := { placedOvl V with base := 1, st := .loading, gen := gen, ovid := 2, pos := 0, ops := [3] }

def loadB (s : State) (o : Ovl) : Bool :=
  match loadSectors s 0 o (64 * o.npg) with
  | (.done, s1) => decide (ovlAtBase s1 0 1 = some o) && (ovWaiters s1 0).isEmpty && ((istore s1 0).ovls.all fun y => !y.doomed) && decide (cardGen s1 o.card = 0)
  | _ => false

theorem load_of {s : State} {o : Ovl} (h : loadB s o = true) :
    ∃ s1, loadSectors s 0 o (64 * o.npg) = (.done, s1) ∧ ovlAtBase s1 0 1 = some o ∧ ovWaiters s1 0 = [] ∧
      (∀ y ∈ (istore s1 0).ovls, y.doomed = false) ∧ cardGen s1 o.card = 0 := by
  unfold loadB at h
  split at h
  · rename_i s1 e
    simp only [Bool.and_eq_true, decide_eq_true_eq, List.isEmpty_iff, List.all_eq_true, Bool.not_eq_true'] at h
    exact ⟨s1, e, h.1.1.1, h.1.1.2, h.1.2, h.2⟩
  · exact absurd h (by simp)

def loadFailB (s : State) (o : Ovl) : Bool :=
  match loadSectors s 0 o (64 * o.npg) with
  | (.fail _, s1) => (ovWaiters s1 0).isEmpty
  | _ => false

theorem loadFail_of {s : State} {o : Ovl} (h : loadFailB s o = true) : ∃ k s1, loadSectors s 0 o (64 * o.npg) = (.fail k, s1) ∧ ovWaiters s1 0 = [] := by
  unfold loadFailB at h
  split at h
  · rename_i k s1 e; exact ⟨k, s1, e, by simpa using h⟩
  · exact absurd h (by simp)

def rereadB (s : State) (o : Ovl) : Bool :=
  match rereadPage s 0 o 1 64 with
  | (.done, _) => true
  | _ => false

theorem reread_of {s : State} {o : Ovl} (h : rereadB s o = true) : ∃ s1, rereadPage s 0 o 1 64 = (.done, s1) := by
  unfold rereadB at h
  split at h
  · rename_i s1 e; exact ⟨s1, e⟩
  · exact absurd h (by simp)

/-- Loads of a live and of a retired generation; an image on an unmapped page; 20 us, and 1 ns less, without a placement. -/
theorem witness_OverlayEvents :
    (∀ g ∈ [0, 1], ∃ (s : State) (o : Ovl) (s1 : State), s.ev.i = 0 ∧ (istore s 0).cmdWait = none ∧ ovlAtBase s 0 s.ev.j = some o ∧ o.st = .loading ∧
      o.doomed = false ∧ loadSectors s 0 o (64 * o.npg) = (.done, s1) ∧ ovlAtBase s1 0 s.ev.j = some o ∧ ovWaiters s1 0 = [] ∧ (∀ y ∈ (istore s1 0).ovls, y.doomed = false) ∧ o.cmd = false ∧ o.gen = g ∧
      cardGen s1 o.card = 0) ∧
    (∃ (s : State) (o : Ovl) (k : Cause) (s1 : State), s.ev.i = 0 ∧ ovlAtBase s 0 s.ev.j = some o ∧ o.st = .loading ∧
      loadSectors s 0 o (64 * o.npg) = (.fail k, s1) ∧ ovWaiters s1 0 = [] ∧ o.cmd = false) ∧
    (∀ y ∈ [true, false], ∃ (s : State) (w : Warp) (x : OvWant), s.ev.j = 0 ∧ s.ev.i = 0 ∧ s.warps.find 0 = some w ∧ w.place = some (0, 0) ∧
      w.ovFirst = some x ∧ w.st = .ready ∧
      (if y then x.first + 20000 = s.now (coreDie 0) else s.now (coreDie 0) + 1 = x.first + 20000)) ∧
    (∃ (s : State) (o : Ovl) (s1 : State), s.ev.i = 0 ∧ s.ev.j = 1 ∧ ovlOf s 0 1 = some o ∧ 1 ∈ (istore s 0).bad ∧ o.st ≠ .loading ∧
      fetchesBad s 0 1 = true ∧ rereadPage s 0 o 1 64 = (.done, s1)) ∧
    (∃ (s : State), s.ev.i = 0 ∧ s.ev.j = 1 ∧ ovlOf s 0 1 = none) := by
  let L := fun (g : Nat) => os (loading1 g)
  have h : ∀ g ∈ [0, 1], loadB (L g) (loading1 g) = true ∧ ovlAtBase (L g) 0 1 = some (loading1 g) ∧ (istore (L g) 0).cmdWait = none := by
    decide +kernel
  let f : Ovl := { loading1 0 with image := 0x200000000000 }
  obtain ⟨k, s1, hf, hn⟩ := loadFail_of (s := os f) (o := f) (by decide +kernel)
  let P := fun (y : Bool) =>
    let s := ev (vmst fun w => { w with ovFirst := some { first := 5, npg := 1, ovid := 2, image := 0 } }) 0 0
    (({ s with time := { s.time with m0 := if y then 20005 else 20004 } } : State).setReg (Reg.ovlMask 0 0) 1)
  have p : ∀ y ∈ [true, false], (P y).warps.find 0 = some { warp0 VM with ovFirst := some { first := 5, npg := 1, ovid := 2, image := 0 } } ∧ (warp0 VM).place = some (0, 0) ∧
      (warp0 VM).st = .ready ∧
      (if y then 5 + 20000 = (P y).now (coreDie 0) else (P y).now (coreDie 0) + 1 = 5 + 20000) := by decide +kernel
  let r : Ovl := { loading1 0 with st := .resident }
  let R := (os1 r).setIst 0 { istore (os1 r) 0 with bad := [1] }
  obtain ⟨s2, hr⟩ := reread_of (s := R) (o := r) (by decide +kernel)
  refine ⟨fun g hg => ?_, ⟨os f, f, k, s1, rfl, by decide +kernel, rfl, hf, hn, rfl⟩,
    fun y hy => ⟨P y, _, _, rfl, rfl, (p y hy).1, (p y hy).2.1, rfl, (p y hy).2.2.1, (p y hy).2.2.2⟩,
    ⟨R, r, s2, rfl, rfl, by decide +kernel, by decide +kernel, by decide +kernel, by decide +kernel, hr⟩, ⟨ev VM 0 1, rfl, rfl, by decide +kernel⟩⟩
  obtain ⟨h1, h2, h3⟩ := h g hg
  obtain ⟨s1, e1, e2, e3, e4, e5⟩ := load_of h1
  exact ⟨L g, loading1 g, s1, rfl, h3, h2, rfl, rfl, e1, e2, e3, e4, rfl, rfl, e5⟩

/-! ## Witnesses: programs, frames, records -/

/-- Tile core 0 of card 0, dispatched and without walkers. -/
def freshT (f : CardSt) (acc : TileCore → TileCore) : State :=
  let s := tst 0 (fun t => acc { t with walkers := [] }) id
  ev (setCardSt s 0 f) 0 0

theorem fresh_of {s : State} {tc : Nat} (h : (tileFresh s tc).isSome = true) : ∃ t x, tileFresh s tc = some (t, x) := by
  cases e : tileFresh s tc with
  | none => rw [e] at h; cases h
  | some p => exact ⟨p.1, p.2, rfl⟩

/-- Walkers that stand at a CKPT word of count 0. -/
def meetT (st : WkState) (n : Nat) (f : CardSt) : State :=
  let s := tst 0 (fun t => { t with walkers := t.walkers.map (fun (w : Walker) => { w with st := st }), live := some (n, 0x30001) }) id
  ev (setCardSt s 0 f) 0 0

theorem witness_TileProgramEvents :
    (∃ (s : State) (t0 : TileCore) (x : Ctx) (r : Release), s.ev.i = 0 ∧ tileFresh s 0 = some (t0, x) ∧ s.ddx.rel.find x.card = some r ∧
      (cardSt s x.card).saved = false) ∧
    (∀ e ∈ [(0, none), (0, some 5), (1, none)], ∃ (s : State) (t0 : TileCore) (x : Ctx), s.ev.i = 0 ∧ s.tiles.find 0 = some t0 ∧
      t0.card = some x ∧ t0.live = some (e.1, 0x30001) ∧ t0.trapped = false ∧ t0.heldStop = false ∧ cardState s x.card = stRunning ∧
      ctxLive s x = true ∧ allAt t0 e.1 none = decide (e.1 = 0) ∧ (cardSt s x.card).preempt = e.2) ∧
    (∀ y ∈ [true, false], ∃ (s : State) (t0 : TileCore) (x : Ctx), s.ev.i = 0 ∧ s.tiles.find 0 = some t0 ∧ t0.card = some x ∧ x.card < 1024 ∧
      t0.live = some (0, 0x30001) ∧ ctxLive s x = true ∧ cardState s x.card = stRunning ∧ (cardSt s x.card).tear = false ∧
      tileSaving s x.card = y ∧ (regionTakes s (saveArea s x.card) (imageFixed s 0 t0 x 0x30001 ++
        (liveTiles 0x30001).flatMap (tileBytes t0) ++
        (liveFiles 0x30001).flatMap fun i => fileBytes (t0.wf.getD i WFile.none)).length).isSome = true) ∧
    (∃ (s : State) (t0 : TileCore) (x : Ctx), s.ev.i = 0 ∧ tileFresh s 0 = some (t0, x) ∧ (cardSt s x.card).saved = true ∧
      t0.trapped = false ∧ t0.heldStop = false ∧ ∀ h, h < 64 → (mem64 s (saveArea s x.card + 0x200 + 8 * h)).toNat % 2 = 0) ∧
    (∀ e ∈ [(1, 7, 0), (2, 7, 2), (0, 7, 1)], ∃ (s : State) (t0 : TileCore) (x : Ctx), s.ev.i = 0 ∧ s.tiles.find 0 = some t0 ∧ t0.card = some x ∧
      t0.spanAt = some 3 ∧ t0.trapped = false ∧ t0.heldStop = false ∧ ctxLive s x = true ∧ cardState s x.card = stRunning ∧
      cardBound s x.card + e.1 = t0.span + (s.now (coreDie 32) - 3) + (if e.1 = 2 then 1 else 0) ∧ cardDmpol s x.card = e.2.2) := by
  let A := freshT CardSt.none id
  obtain ⟨t1, x1, f1⟩ := fresh_of (s := A) (tc := 0) (by decide +kernel)
  have c1 : ((tileFresh A 0).map fun p => p.2.card) = some 0 := by decide +kernel
  have k1 : x1.card = 0 := by rw [f1] at c1; simpa using c1
  let R := freshT { CardSt.none with saved := true } id
  obtain ⟨t2, x2, f2⟩ := fresh_of (s := R) (tc := 0) (by decide +kernel)
  have c2 : ((tileFresh R 0).map fun p => (p.2.card, p.1.trapped, p.1.heldStop)) = some (0, false, false) := by decide +kernel
  have k2 : x2.card = 0 ∧ t2.trapped = false ∧ t2.heldStop = false := by rw [f2] at c2; simpa using c2
  let M := fun (e : Nat × Option Nat) => meetT .wait e.1 { CardSt.none with preempt := e.2 }
  have m : ∀ e ∈ [(0, none), (0, some 5), (1, none)], (M e).tiles.find 0 = some (tile0 (M e)) ∧ (tile0 (M e)).card = some { card := 0, gen := 0 } ∧
      (tile0 (M e)).live = some (e.1, 0x30001) ∧ (tile0 (M e)).trapped = false ∧ (tile0 (M e)).heldStop = false ∧
      cardState (M e) 0 = stRunning ∧ ctxLive (M e) { card := 0, gen := 0 } = true ∧ allAt (tile0 (M e)) e.1 none = decide (e.1 = 0) ∧
      (cardSt (M e) 0).preempt = e.2 := by decide +kernel
  let S := fun (y : Bool) => meetT .stopped 0 { CardSt.none with preempt := if y then some 5 else none }
  have e0 : ∀ (s : State) n, s.ms.dir = [] → s.gov.holdSlices = [] → ∀ pa, (regionTakes s pa n).isSome = true := by
    intro s n h1 h2 pa
    simp [regionTakes, h1, h2]
  have v : ∀ y ∈ [true, false], (S y).tiles.find 0 = some (tile0 (S y)) ∧ (tile0 (S y)).card = some { card := 0, gen := 0 } ∧
      (tile0 (S y)).live = some (0, 0x30001) ∧ ctxLive (S y) { card := 0, gen := 0 } = true ∧ cardState (S y) 0 = stRunning ∧
      (cardSt (S y) 0).tear = false ∧ tileSaving (S y) 0 = y := by decide +kernel
  let P := fun (e : Nat × Nat × Nat) =>
    let s := ev (tst 0 (fun t => { t with spanAt := some 3 }) id) 0 0
    let b := if e.1 = 2 then 3 else 4 - e.1
    (({ s with time := { s.time with m0 := e.2.1 } } : State).setReg (Reg.card 0 + 24) (BitVec.ofNat 64 (2 ^ 32 * b))).setReg (Reg.card 0)
      (BitVec.ofNat 64 (2048 * e.2.2))
  have p : ∀ e ∈ [(1, 7, 0), (2, 7, 2), (0, 7, 1)], (P e).tiles.find 0 = some (tile0 (P e)) ∧ (tile0 (P e)).card = some { card := 0, gen := 0 } ∧
      (tile0 (P e)).spanAt = some 3 ∧ (tile0 (P e)).trapped = false ∧ (tile0 (P e)).heldStop = false ∧ ctxLive (P e) { card := 0, gen := 0 } = true ∧
      cardState (P e) 0 = stRunning ∧
      cardBound (P e) 0 + e.1 = (tile0 (P e)).span + ((P e).now (coreDie 32) - 3) + (if e.1 = 2 then 1 else 0) ∧ cardDmpol (P e) 0 = e.2.2 := by
    decide +kernel
  exact ⟨⟨A, t1, x1, placedRel, rfl, f1, by rw [k1]; decide +kernel, by rw [k1]; decide +kernel⟩,
    fun e he => ⟨M e, _, _, rfl, (m e he).1, (m e he).2.1, (m e he).2.2⟩,
    fun y hy => ⟨S y, _, _, rfl, (v y hy).1, (v y hy).2.1, by decide, (v y hy).2.2.1, (v y hy).2.2.2.1, (v y hy).2.2.2.2.1,
      (v y hy).2.2.2.2.2.1, (v y hy).2.2.2.2.2.2, e0 _ _ rfl rfl _⟩,
    ⟨R, t2, x2, rfl, f2, by rw [k2.1]; decide +kernel, k2.2.1, k2.2.2, by rw [k2.1]; decide +kernel⟩,
    fun e he => ⟨P e, _, _, rfl, (p e he).1, (p e he).2.1, (p e he).2.2⟩⟩

/-- Card 0 running with a path release whose header words are `h`, at the engine of die 0. -/
def pceS (p : Pce) (h : List DWord) (reqs : List Req) (q : List QWarp) : State :=
  let s := ev (pst p) 0 0
  { s with ms := { s.ms with mem := Mem.writeN [] 0x1000 (wordsBytes h), reqs := reqs }
           ddx := { s.ddx with rel := [(0, { placedRel with hdr := h })], queue := [(0, q)] } }

def pathHdr (magic n : Nat) : List DWord := [BitVec.ofNat 64 (2 ^ 32 + magic), BitVec.ofNat 64 n, 0, 0, 0xFFFFFFFF, 0, 0, 0]

def headB (s : State) : Bool :=
  match readChecked s (pceSpace s 0 0) (cardWord s 0 8).toNat 8 with
  | (.ok h, s1) => decide (h = (List.range 8).map fun j => mem64 s (0x1000 + 8 * j)) && decide (s1.pces = s.pces) && decide (s1.ddx.rel = s.ddx.rel)
  | _ => false

theorem head_of {s : State} (h : headB s = true) : ∃ l s1, readChecked s (pceSpace s 0 0) (cardWord s 0 8).toNat 8 = (.ok l, s1) ∧
    l = ((List.range 8).map fun j => mem64 s (0x1000 + 8 * j)) ∧ s1.pces = s.pces ∧ s1.ddx.rel = s.ddx.rel := by
  unfold headB at h
  split at h
  · rename_i l s1 e
    simp only [Bool.and_eq_true, decide_eq_true_eq] at h
    exact ⟨l, s1, e, h.1.1, h.1.2, h.2⟩
  · exact absurd h (by simp)

/-- A header with its magic, and one without; the last and an earlier command; hand-overs to a launch queue with and without room. -/
theorem witness_PathEngineEvents :
    (∀ y ∈ [true, false], ∃ (s : State) (p : Pce) (h : List DWord) (s1 : State) (r : Release), s.ev.i = 0 ∧ s.pces.find 0 = some p ∧
      p.st = .start ∧ pceGo s p = true ∧ pceCard p = 0 ∧ readChecked s (pceSpace s 0 0) (cardWord s 0 8).toNat 8 = (.ok h, s1) ∧ s1.pces = s.pces ∧
      s1.ddx.rel.find 0 = some r ∧ pathHdrOk h = y ∧ dwz h 3 = 0 ∧ p.card.isSome = true) ∧
    (∀ e ∈ [(none, 2), (none, 1), (some 64, 1)], ∃ (s : State) (p : Pce) (r : Release), s.ev.i = 0 ∧ s.pces.find 0 = some p ∧ p.st = .wait ∧
      pceGo s p = true ∧ pceBusy s 0 = false ∧ s.ddx.rel.find (pceCard p) = some r ∧ p.ecc = e.1 ∧ p.idx = 0 ∧ (dwz r.hdr 1).toNat = e.2) ∧
    (∃ (s : State) (p : Pce), s.ev.i = 0 ∧ s.pces.find 0 = some p ∧ pceBusy s 0 = true) ∧
    (∀ e ∈ [(0, 0), (1, 255), (1, 256)], ∃ (s : State) (p : Pce), s.ev.i = 0 ∧ s.pces.find 0 = some p ∧ p.st = .spawn ∧ pceGo s p = true ∧
      pceBusy s 0 = false ∧ p.ch ≤ s.now 0 ∧ p.gathered = true ∧ p.spawns.length = e.1 ∧ (queueOf s 0).length = e.2) ∧
    (∀ y ∈ [true, false], ∃ (s : State) (p : Pce), s.ev.i = 0 ∧ s.pces.find 0 = some p ∧ p.stop = false ∧
      (cardSt s (pceCard p)).preempt.isSome = true ∧ pceBusy s 0 = y) := by
  let H := fun (y : Bool) => pceS (pce0 .start) (pathHdr (if y then 0x50484452 else 0) 4096) [] []
  have h : ∀ y ∈ [true, false], headB (H y) = true ∧ pceGo (H y) (pce0 .start) = true ∧
      pathHdrOk ((List.range 8).map fun j => mem64 (H y) (0x1000 + 8 * j)) = y ∧
      dwz ((List.range 8).map fun j => mem64 (H y) (0x1000 + 8 * j)) 3 = 0 := by decide +kernel
  let W := fun (e : Option Nat × Nat) => pceS { pce0 .wait with ecc := e.1 } (pathHdr 0 e.2) [] []
  have w : ∀ e ∈ [(none, 2), (none, 1), (some 64, 1)], pceGo (W e) { pce0 .wait with ecc := e.1 } = true ∧ pceBusy (W e) 0 = false ∧
      (dwz (pathHdr 0 e.2) 1).toNat = e.2 := by decide +kernel
  let x : Spawn := { prim := 3, quads := [(0, 0)], px := [some (0, 0, 1)] }
  let q : QWarp := { card := 0, gen := 0, entry := 0x40, recs := [], spawn := some x, order := 0 }
  let L := fun (e : Nat × Nat) => pceS { pce0 .spawn with gathered := true, spawns := List.replicate e.1 x } [] [] (List.replicate e.2 q)
  have l : ∀ e ∈ [(0, 0), (1, 255), (1, 256)], pceGo (L e) { pce0 .spawn with gathered := true, spawns := List.replicate e.1 x } = true ∧
      pceBusy (L e) 0 = false ∧ (queueOf (L e) 0).length = e.2 := by decide +kernel
  let S := fun (y : Bool) => setCardSt (pceS (pce0 .running) [] (if y then [req 3 (.pce 0) (.engine [(4096, 1)] false)] else []) []) 0
    { CardSt.none with preempt := some 0 }
  have t : ∀ y ∈ [true, false], (cardSt (S y) 0).preempt.isSome = true ∧ pceBusy (S y) 0 = y := by decide +kernel
  refine ⟨fun y hy => ?_, fun e he => ⟨W e, _, _, rfl, rfl, rfl, (w e he).1, (w e he).2.1, rfl, rfl, rfl, (w e he).2.2⟩,
    ⟨S true, pce0 .running, rfl, rfl, (t true (by simp)).2⟩,
    fun e he => ⟨L e, _, rfl, rfl, rfl, (l e he).1, (l e he).2.1, Nat.zero_le _, rfl, by simp, (l e he).2.2⟩,
    fun y hy => ⟨S y, pce0 .running, rfl, rfl, rfl, t y hy⟩⟩
  obtain ⟨a, b, c, d⟩ := h y hy
  obtain ⟨g, s1, e1, e2, e3, e4⟩ := head_of a
  exact ⟨H y, pce0 .start, g, s1, { placedRel with hdr := pathHdr (if y then 0x50484452 else 0) 4096 }, rfl, rfl, rfl, b, rfl, e1, e3,
    by rw [e4]; rfl, by rw [e2]; exact c, by rw [e2]; exact d, rfl⟩

/-- Camera 3 on virtual channel 0 with its queues, and PID 0 with a partition. -/
def camS (x : SpState) (i j : Nat) (bs : List Byte) (r : List (Nat × Nat)) : State :=
  let s := r.foldl (fun (s : State) e => s.setReg e.1 (BitVec.ofNat 64 e.2)) (D.setReg Reg.govPidmap 0)
  ({ s with ev := { EvArgs.none with i := i, j := j, bytes := bs } } : State).setSp 3 x

def inFr : SpState := { SpState.none with inFrame := true, buf := some (0, 128), tFirst := some 7 }

/-- Virtual channels 0 and 15; bursts up to the buffer's end, with and without EN; ends at and 1 ns before the horizon. -/
theorem witness_FrameEvents :
    (∃ (s : State), s.ev.i = 3 ∧ s.ev.j % 16 ≠ s.regF (Reg.spVc 3) 3 0) ∧
    (∃ (s : State), s.ev.i = 3 ∧ s.ev.j % 16 = s.regF (Reg.spVc 3) 3 0 ∧ spFreePa s 3 ≠ 0 ∧ (spState s 3).inFrame = false ∧
      (spState s 3).ended = false ∧ (spState s 3).asked = false) ∧
    (∀ y ∈ [true, false], ∃ (s : State) (pa size : Nat), s.ev.i = 3 ∧ (spState s 3).inFrame = true ∧ (spState s 3).asked = false ∧
      (spState s 3).buf = some (pa, size) ∧ s.ev.bytes ≠ [] ∧ s.ev.j + s.ev.bytes.length = size ∧
      burstOk s 3 (spanSecs (pa + s.ev.j) s.ev.bytes.length) = y ∧
      ∀ q ∈ spanSecs (pa + s.ev.j) s.ev.bytes.length, dramOk s (64 * q) = true) ∧
    (∀ y ∈ [true, false], ∃ (s : State), s.ev.i = 3 ∧ (spState s 3).inFrame = y ∧ (spState s 3).asked = false) ∧
    (∀ y ∈ [true, false], ∃ (s : State) (pa size τ : Nat), s.ev.i = 3 ∧ (spState s 3).buf = some (pa, size) ∧ (spState s 3).ended = true ∧
      (spState s 3).asked = false ∧ (spState s 3).tFirst = some τ ∧ (∀ q ∈ s.ms.reqs, q.agent ≠ .sp 3) ∧
      (if y then (spState s 3).wct + 6 = s.now 3 else s.now 3 + 1 = (spState s 3).wct + 6)) := by
  let B := fun (y : Bool) => camS inFr 3 120 (List.replicate 8 1) [(Reg.spPid 3, if y then 16 else 0)]
  have b : ∀ y ∈ [true, false], burstOk (B y) 3 (spanSecs 120 8) = y ∧ ∀ q ∈ spanSecs 120 8, dramOk (B y) (64 * q) = true := by
    decide +kernel
  let E := fun (y : Bool) => camS { SpState.none with inFrame := y } 3 0 [] []
  have e : ∀ y ∈ [true, false], (spState (E y) 3).inFrame = y ∧ (spState (E y) 3).asked = false := by decide +kernel
  let x : SpState := { inFr with inFrame := false, ended := true, wct := 10 }
  let T := fun (y : Bool) => at3 (camS x 3 0 [] []) (if y then 16 else 15)
  have t : ∀ y ∈ [true, false], spState (T y) 3 = x ∧ (if y then x.wct + 6 = (T y).now 3 else (T y).now 3 + 1 = x.wct + 6) := by decide +kernel
  refine ⟨⟨camS SpState.none 3 15 [] [], rfl, by decide +kernel⟩,
    ⟨camS SpState.none 3 0 [] [(Reg.spFreeq 3, 4096)], rfl, by decide +kernel, by decide +kernel, by decide +kernel, by decide +kernel, by decide +kernel⟩,
    fun y hy => ⟨B y, 0, 128, rfl, rfl, rfl, rfl, by simp [B, camS, State.setSp], by simp [B, camS, State.setSp], (b y hy).1, (b y hy).2⟩,
    fun y hy => ⟨E y, rfl, e y hy⟩, fun y hy => ⟨T y, 0, 128, 7, rfl, ?_, ?_, ?_, ?_, (fun q hq => (List.not_mem_nil hq).elim), ?_⟩⟩ <;>
  rw [(t y hy).1] <;> first | rfl | exact (t y hy).2

/-- A record of card 0, with TRAPQ of PID 0 at the leat of 64-byte elements at 0x1000, enabled or not. -/
def rec0 (src : Nat) (notice : Bool) (gen : Nat) (tried : Option Nat) : TrapRec :=
  { code := 1, notice := notice, src := src, pid := 0, card := 0, gen := gen, target := 0, pc := 0, next := 0, addr := 0, lanes := 0, done := 0,
    detail := 0, lane := 0, core := 0, time := 0, tried := tried }

def trapS (en : Bool) (r : TrapRec) : State :=
  let s := ((ev D 0 0).setReg (Reg.trapq 0) (BitVec.ofNat 64 (4096 + if en then 2 ^ 63 else 0))).setReg Reg.govPidmap 0
  { s with ms := { s.ms with mem := Mem.writeN [] 0x1000 (wordsBytes (leatWords 0 3 1 0 0 0 0)) }, ddx := { s.ddx with recs := [r] } }

/-- The machine as the record finds it when the homes of what it writes let it through. -/
def trapU (s : State) (r : TrapRec) : State := (trapTakes s r).2

def handedB (s : State) (r : TrapRec) : Bool :=
  (r.notice || decide (cardGen s r.card = r.gen)) && decide (offered s (trapqPa s r.pid) = none) && (trapTakes s r).1

theorem handedB_of {s : State} {r : TrapRec} (h : handedB s r = true) : Handed s r (trapU s r) := by
  simp only [handedB, Bool.and_eq_true, decide_eq_true_eq, Bool.or_eq_true] at h
  exact { current := fun n => h.1.1.resolve_left (by simp [n]), idle := h.1.2, takes := Prod.ext h.2 rfl }

/-- TRAPQ as the record finds it: its bits, its block, its mode and size, and its room. -/
def queueB (u : State) (r : TrapRec) : Bool × Bool × Bool :=
  let a := trapqPa u r.pid
  let c := readCb u a
  (u.regBit (Reg.trapq r.pid) 63 && dramOk u a && pidMatches u c (some r.pid), decide (cbCheck c a = none) && quietB u a,
   decide (c.mode = 0 ∧ c.es = 64 ∧ c.state = lOPEN ∧ 0 < c.free))

theorem takes_of {s : State} {r : TrapRec} (hp : r.pid < 16) (hh : handedB s r = true)
    (hq : queueB (trapU s r) r = (true, true, true)) : TrapqTakes s r (trapU s r) := by
  have h := handedB_of hh
  generalize trapU s r = u at h hq
  simp only [queueB, Prod.mk.injEq, Bool.and_eq_true, decide_eq_true_eq] at hq
  obtain ⟨hb, hs, hm⟩ := hq
  exact { toHanded := h, pid := hp, enabled := hb.1.1, dram := hb.1.2, match_ := hb.2, sound := hs.1, quiet := quiet_of hs.2,
          plain := hm.1, size := hm.2.1, open_ := hm.2.2.1, room := hm.2.2.2 }

/-- The first attempt, one 1 us later and 1 ns before that; a retired generation, no TRAPQ, and a warp whose horizon is not reached. -/
theorem witness_TrapRecords :
    (∃ (s : State) (r : TrapRec) (u : State), s.ddx.recs[s.ev.i]? = some r ∧ r.tried = none ∧ recFirst s s.ev.i r = true ∧
      recReleased s r = true ∧ TrapqTakes s r u) ∧
    (∀ n ∈ [1007, 1006], ∃ (s : State) (r : TrapRec) (u : State), s.ddx.recs[s.ev.i]? = some r ∧ r.tried = some 7 ∧ recFirst s s.ev.i r = true ∧ TrapqTakes s r u ∧
      s.now 3 = n) ∧
    (∃ (s : State) (r : TrapRec), s.ddx.recs[s.ev.i]? = some r ∧ r.tried = none ∧ recFirst s s.ev.i r = true ∧ recReleased s r = true ∧
      r.notice = false ∧ cardGen s r.card + 1 = r.gen) ∧
    (∀ n ∈ [false, true], ∃ (s : State) (r : TrapRec) (u : State), s.ddx.recs[s.ev.i]? = some r ∧ r.tried = none ∧
      recFirst s s.ev.i r = true ∧ recReleased s r = true ∧ r.notice = n ∧ Handed s r u ∧ u.regBit (Reg.trapq r.pid) 63 = false) ∧
    (∃ (s : State) (r : TrapRec), s.ddx.recs[s.ev.i]? = some r ∧ recReleased s r = false) := by
  let A := at3 (trapS true (rec0 3 false 0 none)) 1
  let B := fun (n : Nat) => at3 (trapS true (rec0 3 false 0 (some 7))) n
  have b : ∀ n ∈ [1007, 1006], recFirst (B n) 0 (rec0 3 false 0 (some 7)) = true ∧ handedB (B n) (rec0 3 false 0 (some 7)) = true ∧
      queueB (trapU (B n) (rec0 3 false 0 (some 7))) (rec0 3 false 0 (some 7)) = (true, true, true) := by decide +kernel
  let C := fun (e : Bool × Nat) => at3 (trapS false (rec0 3 e.1 e.2 none)) 1
  have c : ∀ n ∈ [false, true], let r := rec0 3 n 0 none
      recFirst (C (n, 0)) 0 r = true ∧ recReleased (C (n, 0)) r = true ∧ handedB (C (n, 0)) r = true ∧
      (trapU (C (n, 0)) r).regBit (Reg.trapq r.pid) 63 = false := by decide +kernel
  let w : Warp := { warp0 V with ch := 1 }
  let r := { rec0 0 false 0 none with target := warpTarget V w }
  let W := { V with ddx := { V.ddx with recs := [r] }, warps := [(0, w)], ev := { EvArgs.none with i := 0 } }
  exact ⟨⟨A, rec0 3 false 0 none, _, rfl, rfl, by decide +kernel, by decide +kernel, takes_of (by decide) (by decide +kernel) (by decide +kernel)⟩,
    fun n hn => ⟨B n, _, _, rfl, rfl, (b n hn).1, takes_of (by decide) (b n hn).2.1 (b n hn).2.2, rfl⟩,
    ⟨C (false, 1), _, rfl, rfl, by decide +kernel, by decide +kernel, rfl, by decide +kernel⟩,
    fun n hn => ⟨C (n, 0), _, _, rfl, rfl, (c n hn).1, (c n hn).2.1, rfl, handedB_of (c n hn).2.2.1, (c n hn).2.2.2⟩,
    ⟨W, r, rfl, by decide +kernel⟩⟩

/-! ## Witnesses: the step -/

theorem ok_of {e : Except DecodeErr Instr} {i : Instr} (h : e.toOption = some i) : e = .ok i := by
  cases e with
  | error x => cases h
  | ok j => simpa [Except.toOption] using h

theorem oks_of {e : Except DecodeErr Instr} (h : e.toOption.isSome = true) : ∃ i, e = .ok i := by
  cases e with
  | error x => cases h
  | ok j => exact ⟨j, rfl⟩

def turns (s : State) (w : Who) : State := { s with agenda := [turnOf w] }
def begun (s : State) (w : Who) : State := beginTurn (turns s w) (turnOf w) []

def cmdB (s : State) : Bool :=
  match readChecked (s.setPce 0 { pce0 .command with cmd := none }) (pceSpace s 0 0) 0 8 with
  | (.ok l, _) => (decodeCommand (wordsRec l)).toOption.isSome
  | _ => false

theorem cmd_of {s : State} (h : cmdB s = true) : ∃ l s1 i,
    readChecked (s.setPce 0 { pce0 .command with cmd := none }) (pceSpace s 0 0) 0 8 = (.ok l, s1) ∧ decodeCommand (wordsRec l) = .ok i := by
  unfold cmdB at h
  split at h
  · rename_i l s1 e
    obtain ⟨i, hi⟩ := oks_of h
    exact ⟨l, s1, i, e, hi⟩
  · exact absurd h (by simp)

/-- A turn of each kind of agent that fetches, with its word at hand. -/
theorem witness_StepRunsDecoded :
    (∃ s : State, s.agenda = []) ∧
    (∃ (s : State) (x : Turn) (rest : List Turn) (b : BusWrite), s.agenda = x :: rest ∧ x.who = .bus b) ∧
    (∃ (s : State) (x : Turn) (rest : List Turn) (sc : Nat) (a : SvcAct), s.agenda = x :: rest ∧ x.who = .svcDo sc a ∧
      (svcBus (beginTurn s x rest) sc a).isSome = true) ∧
    (∃ (s : State) (x : Turn) (rest : List Turn) (i : Instr) (a : EvArgs), s.agenda = x :: rest ∧ x.who = .hw i a ∧ encode i = none) ∧
    (∃ (s : State) (x : Turn) (rest : List Turn) (w : Warp) (p : Nat × Nat) (c : Clause) (o : Ovl) (i : Instr), s.agenda = x :: rest ∧
      x.who = .warp 0 ∧
      (let s0 := { beginTurn s x rest with focus := .warp 0 }
       let a : OvAddr := { c.at_ with off := c.at_.off + 8 * c.next }
       s0.warps.find 0 = some w ∧ w.place = some p ∧ warpGoes s0 w p.1 = true ∧ w.nonHelper ≠ 0 ∧ w.resolving = none ∧
       (canIssue s0 0 = true → hasTurn s0 0 w p = true) ∧ w.clause = some c ∧
       tokCurrent s0 p.1 w.card w.gen c.at_.tok = some o ∧ (istore s0 p.1).bad.contains (o.base + a.off / 4096) = false ∧
       decodeVision (storeWord s0 p.1 a) = .ok i)) ∧
    (∃ (s : State) (x : Turn) (rest : List Turn) (w : Warp) (p : Nat × Nat) (o : Ovl) (l : Nat), s.agenda = x :: rest ∧ x.who = .warp 0 ∧
      (let s0 := { beginTurn s x rest with focus := .warp 0 }
       let w1 := settle s0 { w with yieldTo := w.yieldTo.filter fun i => canIssue s0 i }
       let s1 := s0.setWarp 0 w1
       let a := laneGet zeroAddr w1.pc l
       s0.warps.find 0 = some w ∧ w.place = some p ∧ warpGoes s0 w p.1 = true ∧ w.nonHelper ≠ 0 ∧ w.resolving = none ∧
       (canIssue s0 0 = true → hasTurn s0 0 w p = true) ∧ w.clause = none ∧
       w1.yieldTo = [] ∧ nextPath s1 w1 p.1 = some l ∧ (∀ y ∈ w1.susp, laneIn y.clause.lanes l = true → y.ended = false) ∧
       ¬ (w1.look = true ∧ a.tok = 0) ∧ tokCurrent s1 p.1 w1.card w1.gen a.tok = some o ∧ a.off % 8 = 0 ∧
       a.off < 4096 * o.npg ∧ a.off < 2 ^ 16 ∧
       (istore s1 p.1).bad.contains (o.base + a.off / 4096) = false)) ∧
    (∃ (s : State) (x : Turn) (rest : List Turn) (t : TileCore) (c : Ctx) (w : Walker) (o : Ovl) (i : Instr), s.agenda = x :: rest ∧
      x.who = .walker 0 0 ∧
      (let s0 := wakeWalker { beginTurn s x rest with focus := .walker 0 0 } 0 0
       s0.tiles.find 0 = some t ∧ t.card = some c ∧ t.walkers[0]? = some w ∧ tileGo s0 0 t c w = true ∧ fetchStalls s0 0 t = false ∧
       tokCurrent s0 32 c.card c.gen w.pc.tok = some o ∧ w.pc.off < 4096 * o.npg ∧
       decodeTile ((istore s0 32).bytes.read64 (4096 * o.base + w.pc.off)) = .ok i)) ∧
    (∃ (s : State) (x : Turn) (rest : List Turn) (i : Instr), s.agenda = x :: rest ∧ x.who = .qp 0 0 ∧
      (let s0 := { beginTurn s x rest with focus := .qp 0 0 }
       qpRuns s0 0 0 = true ∧ (thread s0 0 0).st = .exec ∧ decodePacket (shadowPkt s0 0 0 (thread s0 0 0).idx) = .ok i)) ∧
    (∃ (s : State) (x : Turn) (rest : List Turn) (p : Pce) (r : Rec64) (i : Instr), s.agenda = x :: rest ∧ x.who = .pce 0 ∧
      (let s0 := { beginTurn s x rest with focus := .pce 0 }
       s0.pces.find 0 = some p ∧ pceGo s0 p = true ∧ p.st = .running ∧ p.cmd = some r ∧ decodeCommand r = .ok i)) ∧
    (∃ (s : State) (x : Turn) (rest : List Turn) (p : Pce) (l : List DWord) (s1 : State) (i : Instr), s.agenda = x :: rest ∧ x.who = .pce 0 ∧
      (let s0 := { beginTurn s x rest with focus := .pce 0 }
       let s2 := s0.setPce 0 { p with cmd := none }
       let hdr := ((s0.ddx.rel.find (pceCard p)).map fun r => r.hdr).getD []
       s0.pces.find 0 = some p ∧ pceGo s0 p = true ∧ p.st = .command ∧
       readChecked s2 (pceSpace s2 0 (pceCard p)) ((dwz hdr 2).toNat + 64 * p.idx) 8 = (.ok l, s1) ∧
       decodeCommand (wordsRec l) = .ok i)) := by
  let w := warp0 V
  obtain ⟨i, hi⟩ := oks_of (e := decodeVision (storeWord V 0 { (clause0 V).at_ with off := 8 })) (by decide +kernel)
  obtain ⟨j, hj⟩ := oks_of (e := decodeTile ((istore T0 32).bytes.read64 0)) (by decide +kernel)
  let H := vst fun w => { w with clause := none }
  let L := turns (State.reset.withFetchWord 512 0x401) (.qp 0 0)
  let Q := { begun (State.reset.withFetchWord 512 0x401) (.qp 0 0) with focus := .qp 0 0 }
  obtain ⟨k, hk⟩ := oks_of (e := decodePacket (shadowPkt Q 0 0 (thread Q 0 0).idx)) (by decide +kernel)
  let P := pceS { pce0 .running with cmd := some (rec64 1 0 0 0 0) } [] [] []
  let C := pceS (pce0 .command) [1, 0, 0] [] []
  obtain ⟨l, s1, m, hl, hm⟩ := cmd_of (s := { begun C (.pce 0) with focus := .pce 0 }) (by decide +kernel)
  let Z := turns { D with gov := { D.gov with holdReset := false } } (.svcDo 0 (.store 0xF0000000000 [1, 0, 0, 0, 0, 0, 0, 0]))
  refine ⟨⟨D, rfl⟩, ⟨turns D (.bus (bw 0 0)), _, _, _, rfl, rfl⟩, ⟨Z, _, _, _, _, rfl, rfl, by decide +kernel⟩,
    ⟨turns D (.hw .powerOnReset EvArgs.none), _, _, _, _, rfl, rfl, rfl⟩,
    ⟨turns V (.warp 0), _, _, w, (0, 0), clause0 V, placedOvl V, i, rfl, rfl, by decide +kernel, by decide +kernel, by decide +kernel,
      by decide +kernel, by decide +kernel, by decide +kernel, by decide +kernel, by decide +kernel, by decide +kernel, hi⟩,
    ⟨turns H (.warp 0), _, _, warp0 H, (0, 0), placedOvl V, 0, rfl, rfl, by decide +kernel, by decide +kernel, by decide +kernel,
      by decide +kernel, by decide +kernel, by decide +kernel, by decide +kernel, by decide +kernel, by decide +kernel, by decide +kernel,
      by decide +kernel, by decide +kernel, by decide +kernel, by decide +kernel, by decide +kernel, by decide +kernel⟩,
    ⟨turns T0 (.walker 0 0), _, _, tile0 T0, { card := 0, gen := 0 }, placedWalker V, placedOvl T0, j, rfl, rfl, by decide +kernel,
      by decide +kernel, by decide +kernel, by decide +kernel, by decide +kernel, by decide +kernel, by decide +kernel, hj⟩,
    ⟨L, _, _, k, rfl, rfl, by decide +kernel, by decide +kernel, hk⟩,
    ⟨turns P (.pce 0), _, _, _, _, _, rfl, rfl, rfl, by decide +kernel, rfl, rfl, rfl⟩,
    ⟨turns C (.pce 0), _, _, _, l, s1, m, rfl, rfl, rfl, by decide +kernel, rfl, hl, hm⟩⟩

theorem witness_StepKeepsStores : StoresOk State.reset ∧ step State.reset = .next (idle State.reset) := by
  exact ⟨⟨by decide +kernel⟩, rfl⟩

/-- SUB 3 and 8 in the lowest of the words that the checks accept otherwise. -/
theorem witness_QuadExchange : (∀ n ∈ [3, 8], ∃ x : VWord, x.subX = n ∧ vGuardOk x = true ∧ vUniformOk 0x080 x = true ∧ vRegOk 0x080 x = true ∧
    vAllotOk 0x080 x 256 = true) ∧ ∃ x : VWord, vEnc 0x080 x 256 true = none := by
  have h : ∀ n ∈ [3, 8], (fun x : VWord => x.subX = n ∧ vGuardOk x = true ∧ vUniformOk 0x080 x = true ∧ vRegOk 0x080 x = true ∧
    vAllotOk 0x080 x 256 = true) (vw 0 8 2 448 448 (8 * n)) := by decide +kernel
  exact ⟨fun n hn => ⟨_, h n hn⟩, vw 0 8 2 448 448 0, by decide +kernel⟩

/-- A well-formed instruction of each kind of encoding, with the words it stands for. -/
theorem witness_DecodeEncode :
    (∀ e ∈ [Enc.header 0xC1000FF200000000, .vision 0x001C04027FF80000, .tile 0x2A8800088000, .packet launch0, .command (rec64 3 0 0 0 0), .bus (bw Reg.govMode 0)],
      ∃ i : Instr, i.wellFormed = true ∧ encode i = some e) ∧
    (∃ v i, decodeVision v = .ok i) ∧ ∃ v i, decodeTile v = .ok i := by
  have h : ∀ e ∈ [Enc.header 0xC1000FF200000000, .vision 0x001C04027FF80000, .tile 0x2A8800088000, .packet launch0, .command (rec64 3 0 0 0 0), .bus (bw Reg.govMode 0)],
      (decode e).toOption.any (fun i => i.wellFormed && decide (encode i = some e)) = true := by decide +kernel
  refine ⟨fun e he => ?_, ⟨_, oks_of (e := decodeVision 0x001C04027FF80000) rfl⟩, ⟨_, oks_of (e := decodeTile 0x2A8800088000) rfl⟩⟩
  have := h e he
  cases d : (decode e).toOption with
  | none => rw [d] at this; cases this
  | some i => rw [d] at this; exact ⟨i, by simpa using this⟩

/-! ## Decoding -/

/-- Vision words of the worked clauses (10 to 14), their fields as the tables give them. -/
def visionWords : List (DWord × Instr) :=
  [(0x001C04027FF80000, .iadd { guard := 7, u := 0, dst := 4, srcA := 4, srcB := 511, srcC := 448, mod := 0x0 }),
   (0x10C80603FC80C100, .ffma { guard := 2, u := 0, dst := 6, srcA := 7, srcB := 498, srcC := 6, mod := 0x100 }),
   (0x005F0381F0780000, .isub { guard := 7, u := 1, dst := 259, srcA := 259, srcB := 449, srcC := 448, mod := 0x0 }),
   (0x18DC080100C10700, .dp4 { guard := 7, u := 0, dst := 8, srcA := 2, srcB := 3, srcC := 8, mod := 0x700 }),
   (0x181C090470380100, .cvt { guard := 7, u := 0, dst := 9, srcA := 8, srcB := 448, srcC := 448, mod := 0x100 }),
   (0x109C0904C1780100, .fmul { guard := 7, u := 0, dst := 9, srcA := 9, srcB := 261, srcC := 448, mod := 0x100 }),
   (0x20DC050270380C00, .scan { guard := 7, u := 0, dst := 5, srcA := 4, srcB := 448, srcC := 448, mod := 0xC00 }),
   (0x205C060270780C08, .lpick { guard := 7, u := 0, dst := 6, srcA := 4, srcB := 449, srcC := 448, mod := 0xC08 }),
   (0x211F020270381400, .red { guard := 7, u := 1, dst := 258, srcA := 4, srcB := 448, srcC := 448, mod := 0x1400 }),
   (0x401C0800F2380062, .ld { guard := 7, u := 0, dst := 8, srcA := 1, srcB := 456, srcC := 448, mod := 0x62 }),
   (0x465DC00102380040, .fredAdd { guard := 7, u := 0, dst := 448, srcA := 2, srcB := 8, srcC := 448, mod := 0x40 }),
   (0x495DC0E070380000, .tbar { guard := 7, u := 0, dst := 448, srcA := 448, srcB := 448, srcC := 448, mod := 0x0 }),
   (0x291C1E8370380000, .ocall { guard := 7, u := 0, dst := 30, srcA := 262, srcB := 448, srcC := 448, mod := 0x0 }),
   (0x219C02E070381400, .lfirst { guard := 7, u := 0, dst := 2, srcA := 448, srcB := 448, srcC := 448, mod := 0x1400 }),
   (0x4649C08142380040, .fredAdd { guard := 2, u := 0, dst := 448, srcA := 258, srcB := 264, srcC := 448, mod := 0x40 }),
   (0x401C0801F0380082, .ld { guard := 7, u := 0, dst := 8, srcA := 3, srcB := 448, srcC := 448, mod := 0x82 }),
   (0x029E018178380003, .icmp { guard := 7, u := 1, dst := 1, srcA := 258, srcB := 480, srcC := 448, mod := 0x3 }),
   (0x2805C0E07038000D, .bra { guard := 1, u := 0, dst := 448, srcA := 448, srcB := 448, srcC := 448, mod := 0xD }),
   (0x505F208042B80040, .qdeq { guard := 7, u := 1, dst := 288, srcA := 256, srcB := 266, srcC := 448, mod := 0x40 }),
   (0x405FC08C70235260, .st { guard := 7, u := 1, dst := 448, srcA := 280, srcB := 448, srcC := 282, mod := 0x1260 })]

/-- Tile words of the worked programs (15 to 17). -/
def tileWords : List (DWord × Instr) :=
  [(0x2A8800088000, .ldw { high := 0, tag := 1, popP := 0, popN := 1, pushP := 0, pushN := 1, rep := 0, step := 0, opa := 0x88, opb := 0x0 }),
   (0x52C0000C8000, .xmmI8 { high := 0, tag := 2, popP := 1, popN := 0, pushP := 0, pushN := 1, rep := 0, step := 0, opa := 0xC8, opb := 0x0 }),
   (0x73C400000000, .ttok { high := 0, tag := 3, popP := 1, popN := 0, pushP := 0, pushN := 1, rep := 0, step := 0, opa := 0x0, opb := 0x0 }),
   (0x9183F9108000, .sst { high := 0, tag := 4, popP := 1, popN := 0, pushP := 0, pushN := 0, rep := 127, step := 1, opa := 0x108, opb := 0x0 }),
   (0x753809884804, .vqnt8 { high := 0, tag := 3, popP := 1, popN := 0, pushP := 1, pushN := 0, rep := 1, step := 1, opa := 0x884, opb := 0x804 }),
   (0x4AD000001012, .xmmbI8 { high := 0, tag := 2, popP := 0, popN := 1, pushP := 0, pushN := 1, rep := 0, step := 0, opa := 0x1, opb := 0x12 }),
   (0x007000080000, .kld { high := 0, tag := 0, popP := 0, popN := 0, pushP := 0, pushN := 0, rep := 0, step := 0, opa := 0x80, opb := 0x0 }),
   (0x007000100008, .kld { high := 0, tag := 0, popP := 0, popN := 0, pushP := 0, pushN := 0, rep := 0, step := 0, opa := 0x100, opb := 0x8 }),
   (0x007000180010, .kld { high := 0, tag := 0, popP := 0, popN := 0, pushP := 0, pushN := 0, rep := 0, step := 0, opa := 0x180, opb := 0x10 }),
   (0x007000200018, .kld { high := 0, tag := 0, popP := 0, popN := 0, pushP := 0, pushN := 0, rep := 0, step := 0, opa := 0x200, opb := 0x18 }),
   (0x003400280000, .kli { high := 0, tag := 0, popP := 0, popN := 0, pushP := 0, pushN := 0, rep := 0, step := 0, opa := 0x280, opb := 0x0 }),
   (0x208000000080, .tbind { high := 0, tag := 1, popP := 0, popN := 0, pushP := 0, pushN := 0, rep := 0, step := 0, opa := 0x0, opb := 0x80 }),
   (0x208000040100, .tbind { high := 0, tag := 1, popP := 0, popN := 0, pushP := 0, pushN := 0, rep := 0, step := 0, opa := 0x40, opb := 0x100 }),
   (0x208000080180, .tbind { high := 0, tag := 1, popP := 0, popN := 0, pushP := 0, pushN := 0, rep := 0, step := 0, opa := 0x80, opb := 0x180 }),
   (0x2080000C0200, .tbind { high := 0, tag := 1, popP := 0, popN := 0, pushP := 0, pushN := 0, rep := 0, step := 0, opa := 0xC0, opb := 0x200 }),
   (0x2A880004A000, .ldw { high := 0, tag := 1, popP := 0, popN := 1, pushP := 0, pushN := 1, rep := 0, step := 0, opa := 0x4A, opb := 0x0 }),
   (0x52C00000A000, .xmmI8 { high := 0, tag := 2, popP := 1, popN := 0, pushP := 0, pushN := 1, rep := 0, step := 0, opa := 0xA, opb := 0x0 }),
   (0x753BF988A80A, .vqnt8 { high := 0, tag := 3, popP := 1, popN := 0, pushP := 1, pushN := 0, rep := 127, step := 1, opa := 0x88A, opb := 0x80A }),
   (0xA1E000002000, .ckpt { high := 0, tag := 5, popP := 0, popN := 0, pushP := 0, pushN := 0, rep := 0, step := 0, opa := 0x2, opb := 0x0 }),
   (0x2A880008A001, .ldw { high := 0, tag := 1, popP := 0, popN := 1, pushP := 0, pushN := 1, rep := 0, step := 0, opa := 0x8A, opb := 0x1 }),
   (0x5AD000001012, .xmmbI8 { high := 0, tag := 2, popP := 1, popN := 1, pushP := 0, pushN := 1, rep := 0, step := 0, opa := 0x1, opb := 0x12 }),
   (0x9183F90CA100, .sst { high := 0, tag := 4, popP := 1, popN := 0, pushP := 0, pushN := 0, rep := 127, step := 1, opa := 0xCA, opb := 0x100 }),
   (0xA1E400000000, .tend { high := 0, tag := 5, popP := 0, popN := 0, pushP := 0, pushN := 0, rep := 0, step := 0, opa := 0x0, opb := 0x0 })]
/-- The vision words of the worked clauses decode to what their tables say, and are what the encoder gives. -/
theorem test_decode_vision : ∀ e ∈ visionWords, (decodeVision e.1).toOption = some e.2 ∧ encode e.2 = some (.vision e.1) := by decide +kernel

theorem test_decode_tile : ∀ e ∈ tileWords, (decodeTile e.1).toOption = some e.2 ∧ encode e.2 = some (.tile e.1) := by decide +kernel

/-- The headers of 10's and 11's worked clauses: SIG 0xC1, WAIT, SETA, SETB, LEN, YIELD and IMM (R216). -/
theorem test_decode_header :
    decode (.header 0xC1004FF7000003E8) = .ok (.clauseBegin 0xC1004FF7000003E8) ∧ hdrOk 0xC1004FF7000003E8 = true ∧
    hdrWait 0xC1004FF7000003E8 = 4 ∧ hdrLen 0xC1004FF7000003E8 = 3 ∧ hdrYield 0xC1004FF7000003E8 = true ∧ hdrImm 0xC1004FF7000003E8 = 0x3E8 ∧
    hdrLen 0xC1000FF600000000 = 3 ∧ hdrYield 0xC1000FF600000000 = false := by
  refine ⟨rfl, ?_⟩; decide +kernel

/-- R139, R146, R381: the OP of a packet, the KIND of a SIGNAL and the OP of a command name the instruction. -/
theorem test_decode_records :
    (∀ e ∈ ([(0, .pktNop), (0x0000000700000401, .launch), (2, .wait), (3, .pred), (4, .trigger), (0x005, .signalStore), (0x105, .signalAdd),
        (0x205, .signalEnq), (0x305, .signalIntr)] : List (DWord × (Rec64 → Instr))), let p : Rec64 := ⟨e.1, 1, 2, 3, 4, 5, 6, 7⟩
      (decodePacket p).toOption = some (e.2 p)) ∧
    (∀ e ∈ ([(1, .pclr), (2, .pfill), (3, .prsv)] : List (DWord × (Rec64 → Instr))), let p : Rec64 := ⟨e.1, 1, 2, 3, 4, 5, 6, 7⟩
      (decodeCommand p).toOption = some (e.2 p)) ∧
    (decodePacket ⟨6, 0, 0, 0, 0, 0, 0, 0⟩).toOption = none ∧ (decodeCommand ⟨4, 0, 0, 0, 0, 0, 0, 0⟩).toOption = none := by
  decide +kernel

/-- Register writes by the addresses of their maps: DTU_LOAD, the DDX and the Governor of the package, SHOOT and LEASE_CFG of M0, queues
of M1, and a register that only stores. -/
theorem test_decode_bus :
    ∀ e ∈ ([(.svc 3, 0xF0000000010, 8, 9, .dtuLoadWrite), (.svc 3, 0xF0001000008, 4, 0x1C00, .registerWrite), (.svc 3, 0xF0001000008, 4, 0x0C00, .ddxResume),
        (.svc 3, 0xF0001000118, 4, 4, .ctxSkip), (.svc 3, 0xF0003000000, 4, 2, .merge), (.svc 3, 0xF0100000408, 4, 0x80020000, .shootAll),
        (.svc 3, 0xF0100000820, 4, 8, .lqInit), (.gov, 0xF0205020008, 8, 0x4000000000000000, .adopt), (.svc 3, 0xF0205020120, 4, 3, .mqStop)] :
        List (Writer × BitVec 44 × Nat × DWord × (BusWrite → Instr))),
      let b : BusWrite := { src := e.1, pa := e.2.1, size := e.2.2.1, val := e.2.2.2.1 }
      decodeBus b = e.2.2.2.2 b := by decide +kernel

/-! ## Ill-formed terms, each refused by its check -/

/-- R233: the guard, the uniform form, a register field and MOD. -/
theorem test_vision_illformed :
    Instr.wellFormed (.iadd (vw 0 8 2 4 448 0)) = true ∧
    Instr.wellFormed (.iadd { vw 0 8 2 4 448 0 with guard := 15 }) = false ∧ vGuardOk { vw 0 8 2 4 448 0 with guard := 15 } = false ∧
    Instr.wellFormed (.iadd (vw 1 8 2 4 448 0)) = false ∧ vUniformOk 0x000 (vw 1 8 2 4 448 0) = false ∧
    Instr.wellFormed (.iadd (vw 0 449 2 4 448 0)) = false ∧ vRegOk 0x000 (vw 0 449 2 4 448 0) = false ∧
    Instr.wellFormed (.iadd (vw 0 8 2 4 448 0x1000)) = false ∧ vModOk 0x000 (vw 0 8 2 4 448 0x1000) = false := by decide +kernel

/-- R328: the high half, TAG, the tag of an opcode, tokens, the pattern and an operand. -/
theorem test_tile_illformed :
    (∀ e ∈ ([(0x2A8800088000, none), (0x10000000000000, some 1), (0xE00000000000, some 2), (0x008800088000, some 3), (0x0A0000000000, some 4),
        (0x003401280000, some 5), (0xA1E400001000, some 6)] : List (DWord × Option Nat)), tEnc (tOpcode e.1) (tFieldsOf e.1) = e.2) := by
  decide +kernel

/-- A packet, a command and a register write whose code is another row's; a write that is not aligned, and one outside every window. -/
theorem test_records_illformed :
    Instr.wellFormed (.wait (rec64 2 0 0 0 0)) = true ∧ Instr.wellFormed (.launch (rec64 2 0 0 0 0)) = false ∧
    Instr.wellFormed (.signalEnq (rec64 0x105 0 0 0 0)) = false ∧ Instr.wellFormed (.pfill (rec64 1 0 0 0 0)) = false ∧
    Instr.wellFormed (.dtuLoadWrite { src := .svc 3, pa := 0xF0000000010, size := 8, val := 9 }) = true ∧
    Instr.wellFormed (.dtuAdjWrite { src := .svc 3, pa := 0xF0000000010, size := 8, val := 9 }) = false ∧
    Instr.wellFormed (.dtuLoadWrite { src := .svc 3, pa := 0xF0000000014, size := 8, val := 9 }) = false ∧
    Instr.wellFormed (.registerWrite { src := .svc 3, pa := 0x1000, size := 8, val := 9 }) = false ∧
    Instr.wellFormed (.clauseBegin 0xC2004FF7000003E8) = false := by decide +kernel

/-! ## Worked examples of the spec -/

def nextOr (o : Host.Outcome State Fault Refusal) : State :=
  match o with
  | .next t => t
  | _ => D

/-- 11's worked clause: lane 2 on another path, lane 3 dead, lane 4 a helper; v2, v3 and v8 as its table gives them. -/
def clause11 : State := vst fun w =>
  let w1 := [(2, 0, 0x80), (3, 0, 0x80), (8, 0, 5), (2, 1, 1), (3, 1, 1), (8, 1, 0x1000000), (8, 2, 77), (8, 3, 78),
    (2, 4, 0x7F7F7F7F), (3, 4, 0x7F7F7F7F), (8, 4, 0x7FFFFF00)].foldl (fun (a : Warp) e => a.vSet e.1 e.2.1 (BitVec.ofNat 32 e.2.2)) w
  { w1 with dead := 8, helper := 16, clause := w.clause.map fun c => { c with lanes := ~~~(4 : Word) } }

def dp4W : VWord := { guard := 7, u := 0, dst := 8, srcA := 2, srcB := 3, srcC := 8, mod := 0x700 }
def cvtW : VWord := { guard := 7, u := 0, dst := 9, srcA := 8, srcB := 448, srcC := 448, mod := 0x100 }
def fmulW : VWord := { guard := 7, u := 0, dst := 9, srcA := 9, srcB := 261, srcC := 448, mod := 0x100 }

def regsOf (s : State) (r : Nat) (ls : List Nat) : List Word := ls.map fun l => (warp0 s).vGet r l

/-- DP4.sat: lanes 0, 1 and the helper write, lanes 2 and 3 keep; the helper's SAT is not recorded. -/
theorem test_dp4 : let t := nextOr (exec (.dp4 dp4W) clause11)
    regsOf t 8 [0, 1, 2, 3, 4] = [0x4005, 0x1000001, 77, 78, 0x7FFFFFFF] ∧ (warp0 t).fpflags = 0 := by decide +kernel

/-- CVT.f32.i32 of the sums: lane 1 ties to even with INX; the helper's INX is not recorded. -/
theorem test_cvt : let s := vst fun w =>
      let w1 := [(0, 0x4005), (1, 0x1000001), (4, 0x7FFFFFFF)].foldl (fun (a : Warp) e => a.vSet 8 e.1 (BitVec.ofNat 32 e.2)) w
      { w1 with helper := 16 }
    let t := nextOr (exec (.cvt cvtW) s)
    regsOf t 9 [0, 1, 4] = [0x46800A00, 0x4B800000, 0x4F000000] ∧ (warp0 t).fpflags = 8 := by decide +kernel

/-- FMUL by s5 = 0.5. -/
theorem test_fmul : let s := vst fun w =>
      { [(0, 0x46800A00), (1, 0x4B800000), (4, 0x4F000000)].foldl (fun (a : Warp) e => a.vSet 9 e.1 (BitVec.ofNat 32 e.2)) w with
        s := [(5, 0x3F000000)] }
    let t := nextOr (exec (.fmul fmulW) s)
    regsOf t 9 [0, 1, 4] = [0x46000A00, 0x4B000000, 0x4E800000] ∧ (warp0 t).fpflags = 0 := by decide +kernel

/-- 12's worked clause: lane 2 on another path, lane 5 dead, and no other lane than 0 to 7 live. -/
def clause12 : State := vst fun w =>
  let w1 := (List.range 8).foldl (fun (a : Warp) l => a.vSet 4 l (BitVec.ofNat 32 (l + 1))) w
  { w1 with dead := 32, exited := 0xFFFFFF00, clause := w.clause.map fun c => { c with lanes := ~~~(4 : Word) } }

theorem test_scan : regsOf (nextOr (exec (.scan { guard := 7, u := 0, dst := 5, srcA := 4, srcB := 448, srcC := 448, mod := 0xC00 }) clause12)) 5
    [0, 1, 2, 3, 4, 5, 6, 7] = [1, 3, 0, 7, 12, 0, 19, 27] := by decide +kernel

theorem test_lpick : let t := nextOr (exec (.lpick { guard := 7, u := 0, dst := 6, srcA := 4, srcB := 449, srcC := 448, mod := 0xC08 }) clause12)
    regsOf t 6 [0, 1, 2, 3, 4, 5, 6, 7] = [2, 2, 0, 5, 5, 0, 8, 1] ∧ (warp0 t).deadsrc = true := by decide +kernel

theorem test_red : (warp0 (nextOr (exec (.red { guard := 7, u := 1, dst := 258, srcA := 4, srcB := 448, srcC := 448, mod := 0x1400 })
    clause12))).sGet 2 = 27 := by decide +kernel

/-- 05's identity of a block with PID 3, 16 slots of 64 bytes and its ring at 0x01200000. -/
theorem test_cbFold : cbFold 0x300400000031 0x1200000 0x1100040 = 0x1247034 := by decide +kernel

/-- R366: the vertices of the quadratic through (512, 1024). -/
theorem test_flatten : flatten (0, 0) (0, 0) [(512, 1024), (1024, 0)] =
    [(128, 224), (256, 384), (384, 480), (512, 512), (640, 480), (768, 384), (896, 224), (1024, 0)] := by decide +kernel

/-- 18's example: the pieces of the same curve, and the resolve of row 0 under nonzero. -/
theorem test_pieces :
    ((polyPieces (0, 0) (flatten (0, 0) (0, 0) [(512, 1024), (1024, 0)])).map fun p => (p.col, p.row, p.area, p.cover)) =
      [(0, 0, 43008, 57344), (0, 0, 3680, 8192), (0, 1, 6528, 32768), (1, 1, 18432, 24576), (1, 1, 2048, 8192), (2, 1, -6144, -8192),
       (2, 1, -6144, -24576), (3, 1, -26240, -32768), (3, 0, -4512, -8192), (3, 0, -14336, -57344)] ∧
    resolveRow 0 0 [(46688, 65536), (0, 0), (0, 0), (2 ^ 32 - 18848, 2 ^ 32 - 65536)] = [46688, 65536, 65536, 46688] := by decide +kernel

/-- Accumulator slots of a tile program, by row and lane, as six bytes each. -/
def accOf (l : List (Nat × Nat × Nat)) : Mem := l.foldl (fun (m : Mem) e => m.writeN (rowAt e.1 + 6 * e.2.1) (leBytes 6 e.2.2)) []

/-- 16's example: row 0 of a0 quantised into row 0 of a1 by the first repetition, its scale 0x7C00; and row 1, which saturates. -/
theorem test_vqnt8 : let s := fun (row : List (Nat × Nat × Nat)) => fms 0x4E (tw 3 1 1 0x884 0x804) (tst 2 (fun t => { t with acc := accOf row }) id)
    let out := fun (t : State) (o n : Nat) => (tile0 t).acc.readN (rowAt 128 + o) n
    let a := nextOr (exec (.vqnt8 (tw 3 1 1 0x884 0x804)) (s [(0, 0, 0x417E000000), (0, 1, 0xBF80000000), (0, 2, 0x3E40000000), (0, 3, 0x3D80000000),
      (0, 4, 0x3EA0000000)]))
    let b := nextOr (exec (.vqnt8 (tw 3 1 1 0x884 0x804)) (s [(0, 0, 0x7F80000000), (0, 1, 0x4000000000)]))
    out a 0 5 = [0x7F, 0xF8, 0x02, 0x00, 0x02] ∧ out a 128 2 = [0x00, 0x7C] ∧ a.regF (Reg.tcStat 0) 7 7 = 0 ∧
    out b 0 3 = [0x7F, 0x7F, 0] ∧ out b 128 2 = [0x02, 0x79] ∧ b.regF (Reg.tcStat 0) 7 7 = 1 := by decide +kernel

/-! ## Muhilu (R420 to R423, R428) -/

/-- The record of the example of chapter 22: IADD v4, v4, 1000 with literal 0. -/
theorem test_muhilu_record : muRec 0x0004D00000C001C0 0x0000007F00000400 =
    { opc := 0, gneg := false, u := 0, mod := 0, guard := 127, dst := 4, srcA := 4, srcB := 0xD00000, srcC := 0xC001C0 } := by
  decide

/-- A record that is not last passes, with its literal; without one it is OPERAND; an excluded word is OPCODE. -/
theorem test_muhilu_status : let r := muRec 0x0004D00000C001C0 0x0000007F00000400
    r.status 1 1 2 false = muOK ∧ r.status 0 1 2 false = muOPERAND ∧ r.status 1 1 1 true = muTARGET ∧
      { r with opc := 0x0A9 }.status 1 1 2 false = muOPCODE := by
  decide +kernel

/-- BRA to record 1 of its function. -/
def muBra : MuRec :=
  { opc := 0x0A0, gneg := false, u := 0, mod := 0, guard := 127, dst := 0xC001C0, srcA := 0xC001C0, srcB := 0xE00001, srcC := 0xC001C0 }

/-- In a function of two records, and of one; a module of no bytes is FORMAT. -/
theorem test_muhilu_target : muBra.status 0 1 2 true = muOK ∧ muBra.status 0 1 1 true = muTARGET ∧ muLoad [] = (muFORMAT, 0, 0) := by
  decide +kernel

end Sys2Proof.Tests
end

section
/-! PROOFS. The quad exchange (R263 to R266): when the checks of a vision word pass, what an exchange leaves in its warp, and the
source lanes of QXCH. -/

namespace Sys2Proof.Machine

/-! ## The checks of a word (R233) -/

/-- A word has no ENC detail just when every check passes. -/
theorem vEnc_eq_none_iff {opc n : Nat} {x : VWord} {last : Bool} :
    vEnc opc x n last = none ↔ vGuardOk x = true ∧ vUniformOk opc x = true ∧ vRegOk opc x = true ∧ vAllotOk opc x n = true ∧
      vModOk opc x = true ∧ vPlaceOk opc x last = true := by
  simp only [vEnc]
  repeat' split
  all_goals simp_all

/-- MOD is the check that fails once the four before it pass. -/
theorem vEnc_eq_mod {opc n : Nat} {x : VWord} (last : Bool) (hg : vGuardOk x = true) (hu : vUniformOk opc x = true)
    (hr : vRegOk opc x = true) (ha : vAllotOk opc x n = true) (hm : vModOk opc x = false) : vEnc opc x n last = some 7 := by
  simp [vEnc, hg, hu, hr, ha, hm]

/-- R224: an opcode whose U column is 0 permits no uniform word. -/
theorem uni_eq_false_of_vUniformOk {opc : Nat} {x : VWord} (hp : vUPerm opc = 0) (h : vUniformOk opc x = true) : x.uni = false := by
  have hu : x.u.toNat = 0 := by simpa [vUniformOk, hp, eq_comm] using (Bool.and_eq_true_iff.1 h).1
  simp [VWord.uni, hu]

/-! ## Exchanges (R263) -/

/-- A per-lane exchange is the register result of what each lane takes, with sr.deadsrc set where a lane's source is dead. -/
theorem exchange_eq (k : VCtx) (src : Nat → Nat) (hu : k.x.uni = false) :
    exchange k src = { regResult k (takes k src) with
      deadsrc := (regResult k (takes k src)).deadsrc || deadSource k src } := by
  have hr : regResult k (takes k src) = writeLanes k (takes k src) := by simp [regResult, hu]
  rw [hr]
  change (if deadSource k src then { writeLanes k (takes k src) with deadsrc := true } else writeLanes k (takes k src)) = _
  cases deadSource k src <;> simp

/-- A per-lane exchange completes, and gives every lane the word it takes. -/
theorem runExchange_wrote {s : State} {opc : Nat} {x : VWord} {k : VCtx} (h : Issues s opc x k) (hu : x.uni = false)
    (src : VCtx → Nat → Nat) : ∃ t, runExchange s opc x src = .next t ∧
      Wrote s t k 1 (takes k (src k)) (deadSource k (src k)) := by
  obtain ⟨hfield, hflags, hframe⟩ := regResult_spec k (takes k (src k)) 1 (fun _ => rfl) h.soundV h.soundU
  have hex := exchange_eq k (src k) (by rw [h.x, hu])
  rw [hframe] at hex
  obtain ⟨honly, w, hfind, hadv, hw⟩ := vDone_spec s k (exchange k (src k)) (by rw [hex])
  rw [hex] at hw
  refine ⟨vDone s k (exchange k (src k)), by simp [runExchange, h.go], honly, w, hfind, hadv, fun r l hr hl => ?_, ?_, ?_, ?_⟩
  · have hkeep : w.field r l = (regResult k (takes k (src k))).field r l := by rw [hw]; rfl
    rw [hkeep]; exact hfield r l hr hl
  · rw [hw]; exact hflags
  · rw [hw]
  · rw [hw]

/-! ## QXCH (R265, R266) -/

/-- The source lane that the table of R266 gives the reader l: a lane exchanged with it, or a lane of its quad broadcast. -/
def quadSource (sub l : Nat) : Nat :=
  match sub with
  | 0 => l ^^^ 1
  | 1 => l ^^^ 2
  | 2 => l ^^^ 3
  | n => 4 * (l / 4) + (n - 4)

/-- From SUB 4 on, QXCH reads the lane SUB - 4 of the reader's quad. -/
theorem qxchSrc_broadcast {sub : Nat} (h : 4 ≤ sub) (l : Nat) : qxchSrc sub l = 4 * (l / 4) + (sub - 4) := by
  rw [qxchSrc, if_neg (by omega)]
  omega

/-- At the SUB values that R266 gives a meaning, the model's source lane is the table's. -/
theorem qxchSrc_eq_quadSource {sub : Nat} (h : sub ≠ 3) : qxchSrc sub = quadSource sub := by
  funext l
  match sub, h with
  | 0, _ | 1, _ | 2, _ => rfl
  | n + 4, _ => exact qxchSrc_broadcast (by omega) l

/-- R265, R266: the MOD check of QXCH passes only the patterns of the table. -/
theorem subX_of_vModOk_qxch {x : VWord} (h : vModOk 0x080 x = true) : x.subX ≤ 2 ∨ (4 ≤ x.subX ∧ x.subX ≤ 7) := by
  have hX : vModXOk 0x080 x = true := h
  simp only [vModXOk, if_true, Bool.and_eq_true, decide_eq_true_eq] at hX
  obtain ⟨-, -, -, hsub⟩ := hX
  exact hsub

/-- Settles O7: QXCH completes as a per-lane exchange (`runExchange_wrote`) whose source lanes are the table's, and its MOD check
passes only the patterns of the table. -/
theorem quadExchange : Obligations.QuadExchange := by
  refine ⟨fun s x k h => ?_, fun x n last hsub hg hu hr ha => ?_, fun x n last hn => ?_⟩
  · obtain ⟨-, hu, -, -, hm, -⟩ := vEnc_eq_none_iff.1 h.legal
    have hsrc : qxchSrc x.subX = quadSource x.subX := qxchSrc_eq_quadSource (by have := subX_of_vModOk_qxch hm; omega)
    have hrun := runExchange_wrote h (uni_eq_false_of_vUniformOk rfl hu) fun _ => qxchSrc x.subX
    rw [hsrc] at hrun
    have hexec : exec (.qxch x) s = runExchange s 0x080 x fun _ => quadSource x.subX := by rw [← hsrc]; rfl
    rw [hexec]
    exact hrun
  · have hm : vModOk 0x080 x = false := Bool.eq_false_iff.2 fun hm => by
      have := subX_of_vModOk_qxch hm
      omega
    exact vEnc_eq_mod last hg hu hr ha hm
  · obtain ⟨-, -, -, -, hm, -⟩ := vEnc_eq_none_iff.1 hn
    have := subX_of_vModOk_qxch hm
    simp only [List.mem_cons, List.not_mem_nil, or_false]
    omega

end Sys2Proof.Machine
end

section
/-! PROOFS. The slip bound (R310): every tile word begins with the checks that the words share, and a walker SLIP words ahead of
another that has not ended is held there, in WAIT. -/

namespace Sys2Proof.Machine

/-! ## The smallest walk count -/

/-- The smallest walk count is the minimum over the walkers that have not ended, 0 where all have. -/
theorem minCount_eq_min? (t : TileCore) : minCount t = ((t.walkers.filter Walker.walks).map (·.count)).min?.getD 0 := by
  unfold minCount
  split
  · next h => rw [h]; rfl
  · next h => rw [h]; rfl

/-- No walker that has not ended stands below the smallest walk count. -/
theorem minCount_le_of_walks {t : TileCore} {y : Walker} (hy : y ∈ t.walkers) (hw : y.walks = true) : minCount t ≤ y.count := by
  rw [minCount_eq_min?]
  exact List.min?_getD_le_of_mem (List.mem_map_of_mem (List.mem_filter.2 ⟨hy, hw⟩))

/-! ## A walker held by the bound -/

/-- Walker `k.e` of tile core `k.tc` is the agent of the turn and would begin its word, but it is SLIP words or more ahead of the last
walker (R310): where `Walks` has a walker perform its word, this has it held. -/
structure HeldBySlip (s : State) (k : TCtx) : Prop where
  agent : s.focus = .walker k.tc k.e
  found : s.tiles.find k.tc = some k.t
  loaded : k.t.card = some k.x
  here : k.t.walkers[k.e]? = some k.w
  moves : tileGo s k.tc k.t k.x k.w = true
  going : k.w.st = .run ∨ k.w.st = .wait
  ahead : tileSlip s k.x.card ≤ k.w.count - minCount k.t

/-- A walker that has not stopped is not one that R322 still lets meet a fault of its own. -/
theorem sameClock_of_going {s : State} {tc e : Nat} {t : TileCore} {w : Walker} (h : w.st = .run ∨ w.st = .wait) :
    sameClock s tc e t w = false := by
  rcases h with h | h <;> simp [sameClock, h]

/-- Of the turn of a walker that has not stopped, the whole effect remains. -/
theorem HeldBySlip.onlyFaults_eq {s : State} {k : TCtx} (h : HeldBySlip s k) (s' : State) : onlyFaults s s' = s' := by
  simp [onlyFaults, h.agent, h.found, h.here, sameClock_of_going h.going]

/-- A walker in RUN or WAIT that waits is put back in WAIT. -/
theorem HeldBySlip.tWait_eq {s : State} {k : TCtx} (h : HeldBySlip s k) :
    tWait s k = putWalker s k { k.w with st := .wait } := by
  have hput : (if k.w.st = .run then { k.w with st := .wait } else k.w) = { k.w with st := .wait } := by
    rcases h.going with hr | hw
    · rw [if_pos hr]
    · rw [← hw, ite_self]
  simp only [tWait, putWalker, setWalkerAt, h.found, h.here, hput]

/-- The bound is tested before all that a word does, so no word begins, whatever its opcode and its effect. -/
theorem HeldBySlip.runTile_eq {s : State} {k : TCtx} (h : HeldBySlip s k) (opc : Nat) (word : TWord) (f : State → TCtx → State) :
    runTile s opc word f = .next (tWait s k) := by
  have hturn : tileTurn s k.tc k.e k.t k.x k.w = true := by simp [tileTurn, h.moves]
  have hstart : tStart s opc word = .stay (tWait s k) := by
    simp [tStart, tWait, h.agent, h.found, h.loaded, h.here, hturn, h.ahead]
  simp only [runTile, hstart, h.onlyFaults_eq]

/-! ## Every tile word -/

/-- Each row of the opcode map runs its word through the checks that all tile words share, under the row's own opcode. -/
theorem exec_eq_runTile_of_tInstr {opc : Nat} {w : TWord} {i : Instr} (h : tInstr opc w = some i) :
    ∃ f, ∀ s, exec i s = runTile s opc w f := by
  unfold tInstr at h
  split at h <;> cases h <;> exact ⟨_, fun _ => rfl⟩

theorem exec_eq_runTile_of_decodeTile {v : DWord} {i : Instr} (h : decodeTile v = .ok i) :
    ∃ f, ∀ s, exec i s = runTile s (tOpcode v) (tFieldsOf v) f := by
  refine exec_eq_runTile_of_tInstr ?_
  unfold decodeTile at h
  split at h <;> cases h
  assumption

/-- Settles O8: a lag of SLIP behind the walker is a lag of SLIP of the smallest walk count (`minCount_le_of_walks`), so no tile word
begins (`HeldBySlip.runTile_eq`) and the walker is put back in WAIT. -/
theorem slipBound : Obligations.SlipBound := by
  refine ⟨fun v i s tc e t x w hdec hfocus hfind hcard hhere hgo hst ⟨y, hy, hwalks, hlag⟩ => ?_, fun _ _ => rfl⟩
  let k : TCtx := { tc := tc, e := e, t := t, x := x, w := w, word := tFieldsOf v }
  have hahead : tileSlip s x.card ≤ w.count - minCount t := by
    have hmin := minCount_le_of_walks hy hwalks
    unfold tileSlip
    omega
  have hheld : HeldBySlip s k := ⟨hfocus, hfind, hcard, hhere, hgo, hst, hahead⟩
  obtain ⟨f, hexec⟩ := exec_eq_runTile_of_decodeTile hdec
  refine ⟨tWait s k, (hexec s).trans (hheld.runTile_eq _ _ f), ?_⟩
  rw [hheld.tWait_eq]
  exact putWalker_is hfind hhere _

end Sys2Proof.Machine
end

section
/-! PROOFS. The coverage rules (R373): what each of the three rules makes of an area word. -/

namespace Sys2Proof.Machine

/-! ## One equation per rule -/

theorem fillRule_nonzero (a : Int) : fillRule 0 a = min (a.natAbs : Int) 65536 := rfl

/-- The model tests and folds the magnitude as a natural number, the table as an integer. -/
theorem fillRule_evenOdd (a : Int) :
    fillRule 1 a = if (a.natAbs : Int) % 131072 ≤ 65536 then (a.natAbs : Int) % 131072 else 131072 - (a.natAbs : Int) % 131072 := by
  have htest : (a.natAbs : Int) % 131072 ≤ 65536 ↔ a.natAbs % 131072 ≤ 65536 := by omega
  simp only [htest]
  rfl

theorem fillRule_absClamp (a : Int) : fillRule 2 a = min (max a (-65536)) 65536 := rfl

/-! ## The sign under absolute-clamp -/

theorem fillRule_absClamp_neg_iff (a : Int) : fillRule 2 a < 0 ↔ a < 0 := by
  rw [fillRule_absClamp]
  omega

theorem fillRule_absClamp_pos_iff (a : Int) : 0 < fillRule 2 a ↔ 0 < a := by
  rw [fillRule_absClamp]
  omega

/-- Settles O9: each rule's equation is its row of the table; the magnitude of −2^31 is above the bound of the nonzero rule, and the
bounds of absolute-clamp lie on either side of 0, so that it keeps the sign. -/
theorem coverageRules : Obligations.CoverageRules := by
  refine ⟨fillRule_nonzero, ?_, fun a u hu => ?_,
    fun a => ⟨fillRule_absClamp a, fillRule_absClamp_neg_iff a, fillRule_absClamp_pos_iff a⟩⟩
  · rw [fillRule_nonzero]
    decide
  · rw [hu]
    exact fillRule_evenOdd a

end Sys2Proof.Machine
end
